-- ==== Sys2Proof/Word.lean ====
section
/-! DEFINITION. The word types of the hub (00_scope.md R2, R4; 01_architecture.md R18). -/

namespace Sys2Proof

/-- A 32-bit register or data word (R4). -/
abbrev Word := BitVec 32

/-- A byte, as it leaves or enters a ball, a link or host memory. -/
abbrev Byte := BitVec 8

/-- A word of a checked memory: check bits c[3:0] in [35:32], data d[31:0] in [31:0] (R18). -/
abbrev MemWord := BitVec 36

/-- Sparse data by key: strictly rising keys, and no entry that equals what an unlisted key reads as. -/
abbrev SMap (α : Type) := List (Nat × α)

end Sys2Proof
end

