-- ==== Sys2Proof/Syntax.lean ====
section
/-! DEFINITION. The commands of the hub: one constructor per row of spec/opcode_table.json, with the operands that the
world outside the hub supplies: an address, a value, a frame, a level at a ball, the taps a TDC edge passed. -/

namespace Sys2Proof

/-- The levels of the strap balls REFSEL and PAIR_SIDE, sampled while RESET_N is low (R72, R351, R364), and the levels of the VDDIO banks,
sensed at its release (R371). -/
structure Straps where
  /-- REFSEL: high selects 25 MHz. -/
  refsel : Bool
  /-- PAIR_SIDE: high is side B. -/
  side : Bool
  /-- Banks at the 3.3 V level: VDDIO_SC0 to VDDIO_SC7 in bits 0 to 7, VDDIO_MISC in bit 8. -/
  io33 : BitVec 9
  deriving DecidableEq, Repr

/-- A clock whose presence the hub monitors (R9, R14). -/
inductive MonClock where
  | rx (n : Fin 4)
  | pcie
  | jtag
  deriving DecidableEq, Repr

/-- A monitored clock stops (R14), and whether a frame that its port receives is cut short. -/
structure ClockStop where
  clock : MonClock
  midFrame : Bool
  deriving DecidableEq, Repr

/-- A handshake crossing that a hound watches, by the unit it belongs to (R344). -/
inductive Crossing where
  | serial (p : Fin 128)
  /-- Of the watch receiver of a serial port. -/
  | watch (p : Fin 128)
  | can (n : Fin 8)
  | ethernet (n : Fin 4) (transmit : Bool)
  | eventIn (i : Fin 32)
  | eventOut (m : Fin 8)
  | panel (n : Fin 8)
  | bridge
  | flash
  | engine (e : Fin 32)
  | kennel
  | herder
  | copier
  | timeCore
  | hostInterface
  deriving DecidableEq, Repr

/-- A phase of the handshake of a crossing, and for how many TB ticks it has waited; at 0 it begins, which is what injection acts on
(R340, R343). -/
structure CrossPhase where
  crossing : Crossing
  waited : Nat
  deriving DecidableEq, Repr

/-- A place where a scheduler starts copies (R224): a serial transmitter, a CAN lane, a launch queue of an Ethernet
port, a host ring, a panel port. -/
inductive Endpoint where
  | serial (p : Fin 128)
  | can (n : Fin 8)
  | ethernet (n : Fin 4) (q : Fin 8)
  | hostRing (r : Fin 16)
  | panel (n : Fin 8)
  deriving DecidableEq, Repr

/-- A CAN frame as seen on a bus (R250, R253, R267). -/
structure CanFrame where
  ident : BitVec 29
  ide : Bool
  fdf : Bool
  brs : Bool
  /-- Error state indicator: its sender is error passive. FD frames only. -/
  esi : Bool
  remote : Bool
  /-- Data length code: 9 to 15 stand for 8 data bytes in a classic frame, and for 12 to 64 in an FD frame. -/
  dlc : BitVec 4
  data : List Byte
  deriving DecidableEq, Repr

/-- The five CAN error kinds of R263. -/
inductive CanErr where
  | bit
  | stuff
  | crc
  | form
  | ack
  deriving DecidableEq, Repr

/-- A CAN error with what the levels on the bus decide (R263): whether it lies in the hub's own error flag, whether an exception of
ISO 11898-1 spares the transmitter, and the dominant bits behind the flag. -/
structure CanFault where
  kind : CanErr
  inFlag : Bool
  exempt : Bool
  dominant : Nat
  deriving DecidableEq, Repr

/-- How a transmit attempt of a CAN lane ended (R258): sent, arbitration lost, or an error frame. -/
inductive AttemptResult where
  | sent
  | lost
  | error
  deriving DecidableEq, Repr

/-- What the flash returned to the boot sequencer (R354, R357): no answer or no JESD216 table; the size in bytes that the table gives, with
a read failure during the copy after a header that may be judged, or with the bytes of the image. -/
inductive FlashRead where
  | noTable
  | copyFailed (size : Nat) (header : List Byte)
  | image (size : Nat) (bytes : List Byte)
  deriving DecidableEq, Repr

/-- What the boot sequencer met: the answer of the flash, and the ns from the release of reset to PLL lock, which no clock of the hub
counts (R354). -/
structure BootRun where
  flash : FlashRead
  lockNs : Nat
  deriving DecidableEq, Repr

/-! ## Nymsa words (R190 to R192) -/

/-- The opcodes of Nymsa in the order of R192; unassigned is 0x3E. -/
inductive NyOp where
  | nop
  | endRecord
  | br
  | brc
  | call
  | ret
  | budget
  | cur
  | nextf
  | matchText
  | getc
  | skip
  | chk
  | talk
  | fmt
  | pdec
  | plat
  | plon
  | phex
  | pchr
  | ptime
  | pdate
  | add
  | sub
  | mul
  | mulq
  | andW
  | orW
  | xorW
  | shl
  | shr
  | minW
  | maxW
  | cmp
  | ldi
  | mov
  | scale
  | tlk
  | rt
  | slotw
  | slotr
  | lds
  | sts
  | tsa
  | tse
  | tnow
  | tdiff
  | timeset
  | openItem
  | putc
  | puts
  | putf
  | putraw
  | opgn
  | putb
  | close
  | launch
  | tagItem
  | panel
  | count
  | event
  | ackstat
  | unassigned
  | drop
  deriving DecidableEq, Repr

/-- The two forms of a Nymsa word (R190): a register and a specifier, or an immediate. -/
inductive NyArg where
  | reg (b : BitVec 4) (x : BitVec 13)
  | imm (k : BitVec 17)
  deriving DecidableEq, Repr

/-- A Nymsa instruction: opcode, destination or condition, source A, and the rest of its word. -/
structure NyInstr where
  op : NyOp
  d : BitVec 4
  a : BitVec 4
  arg : NyArg
  deriving DecidableEq, Repr

/-- The commands: one constructor per row of spec/opcode_table.json. -/
inductive Instr where
  /-- CMD_BUF_WRITE (R38): A host write into a submission window's command buffer loads that window. -/
  | cmdBufWrite (w : Fin 8) (k : Fin 16) (data : List Word)
  /-- CMD_ACCEPT (R43): A read of CMD_ACCEPT evaluates the window, returns a handle or refusal code and clears the buffer. -/
  | cmdAccept (w : Fin 8)
  /-- NOP_COMMAND (R47): The NOP command completes at once with DONE. -/
  | nopCommand (slot : Fin 256)
  /-- DEVICE_RESET (R47): An accepted DEVICE_RESET with the right key schedules a full reset 2 µs after the accepting read and returns 0xFFFF. -/
  | deviceReset (w : Fin 8)
  /-- DEVICE_RESET_START (R352): 2 µs after acceptance, the DEVICE_RESET full reset is taken with the link kept trained. -/
  | deviceResetStart
  /-- STATS_SNAPSHOT (R36): Freezes the statistics block at one TB instant and writes it to host memory. -/
  | statsSnapshot (slot : Fin 256)
  /-- INJECT_ARM (R339): Arms, replaces or clears injection on one detector with a mode, count or duration and a unit. -/
  | injectArm (slot : Fin 256)
  /-- SLEEP_ENTER (R361): Checks the watching ports and commits entry to harbour watch after its completion and message. -/
  | sleepEnter (slot : Fin 256)
  /-- LOAD_PROGRAM (R179): Checks a program image header, then fills the inactive bank with code, pool and table sections from host or flash. -/
  | loadProgram (slot : Fin 256)
  /-- BANK_SWAP (R181): At the swap point, makes the inactive bank active for every later dispatch. -/
  | bankSwap (slot : Fin 256)
  /-- BANK_SWAP_DRAINED (R181): When the last record dispatched on the old bank ends, the old bank becomes writable and BANK_SWAP completes. -/
  | bankSwapDrained
  /-- TABLE_WRITE (R48): Writes entries of a route, listener, listener-set, talker or slot table from host memory. -/
  | tableWrite (slot : Fin 256)
  /-- TABLE_READ (R48): Copies entries of a table from the active or inactive bank to host memory. -/
  | tableRead (slot : Fin 256)
  /-- PORT_SET (R47): Checks and applies new settings to a port of any class, in the layout of the port's chapter. -/
  | portSet (slot : Fin 256)
  /-- PORT_ENABLE (R47): Enables a port of any class. -/
  | portEnable (slot : Fin 256)
  /-- PORT_DISABLE (R47): Stops a port, discards its queues and partial inputs, and reports the counts. -/
  | portDisable (slot : Fin 256)
  /-- ENGINE_GROUP_ONLINE (R185): Starts powering an engine group and clears the scratch of its engines. -/
  | engineGroupOnline (slot : Fin 256)
  /-- GROUP_POWERED (R185): A powered group enters ONLINE, and its unwedged engines become available to the Herder at one instant. -/
  | groupPowered (g : Fin 8)
  /-- ENGINE_GROUP_OFFLINE (R184): Puts an engine group in DRAINING, so that it receives no further records. -/
  | engineGroupOffline (slot : Fin 256)
  /-- GROUP_DRAINED (R184): When no engine of a draining group holds a record, power is removed and ENGINE_GROUP_OFFLINE completes. -/
  | groupDrained (g : Fin 8)
  /-- QUOTA_SET (R166): Sets a talker sentence or ply budget, a talker reservation, or a listener queue quota. -/
  | quotaSet (slot : Fin 256)
  /-- TIME_STEP (R97): In the follower role, adds a signed seconds, nanoseconds and fraction offset to the clock at one tick. -/
  | timeStep (slot : Fin 256)
  /-- TIME_ROLE (R97): Sets the role, source and jump threshold, and enters WAIT, ACQUIRE or IDLE when the role or source changes. -/
  | timeRole (slot : Fin 256)
  /-- TIME_REACQUIRE (R97): In the reference role, enters REACQUIRE so that the next pairing steps the clock. -/
  | timeReacquire (slot : Fin 256)
  /-- CAL_RUN (R84): Discards the histograms of the selected regions and starts a forced accumulation with dither at 8 M hits/s. -/
  | calRun (slot : Fin 256)
  /-- CAL_SNAPSHOT (R85): Writes a region's present table and histogram to host memory. -/
  | calSnapshot (slot : Fin 256)
  /-- PANEL_UPDATE (R316): Requests an update of one panel region from the bindings or from a host image. -/
  | panelUpdate (slot : Fin 256)
  /-- FAR_RMW_LOCKED (R299): Runs a locked read-modify-write of one cabinet bus word after the earlier posted writes. -/
  | farRmwLocked (slot : Fin 256)
  /-- FAR_FENCE (R305): Completes when every earlier posted write cycle has finished, and reports how many finished and how many failed. -/
  | farFence (slot : Fin 256)
  /-- CAN_SEND (R260): Fetches a host CAN frame and makes it pending on a port's transmit lane. -/
  | canSend (slot : Fin 256)
  /-- CAN_CANCEL (R262): Registers a cancel of a pending CAN_SEND at the lane, with the outcome APPLIED or LATE. -/
  | canCancel (slot : Fin 256)
  /-- ETH_LAUNCH (R279): Fetches a host Ethernet frame and makes it pending in a launch queue. -/
  | ethLaunch (slot : Fin 256)
  /-- FLASH_READ (R47): Reads flash into host memory. -/
  | flashRead (slot : Fin 256)
  /-- FLASH_WRITE (R47): Programs flash from host memory and reads it back for verification. -/
  | flashWrite (slot : Fin 256)
  /-- FLASH_ERASE (R47): Erases 4 KiB flash pages. -/
  | flashErase (slot : Fin 256)
  /-- HELD_COMPLETION_FLUSH (R44): Held completions are written in finishing order once the completion ring has room or is enabled again. -/
  | heldCompletionFlush
  /-- RING_ENABLE (R50): A write of CTRL.EN from 0 to 1 resets HEAD, TAIL and the phase of a ring. -/
  | ringEnable (r : Fin 18) (ctrl : Word)
  /-- RING_HEAD_WRITE (R50): Software advances HEAD and frees units in a ring. -/
  | ringHeadWrite (r : Fin 18) (v : Word)
  /-- RING_MODERATION_TIMER (R50): MOD_TIME runs out after the first unannounced entry, and the hub issues the ring's message. -/
  | ringModerationTimer (r : Fin 18)
  /-- MSIX_UNMASK (R58): Unmasking a vector with its pending bit set issues one message. -/
  | msixUnmask (v : Fin 32)
  /-- BAR0_BAD_ACCESS (R32): A malformed BAR0 access reads 0xFFFF_FFFF or is discarded, and is counted in BAD_ACCESS. -/
  | bar0BadAccess (isWrite : Bool) (off : Nat) (enables : List Bool)
  /-- REGISTER_WRITE (R5): A write to a register with no behaviour of its own sets the value under its access type. -/
  | registerWrite (off : BitVec 19) (val : Word)
  /-- RC_REGISTER_READ (R34): A read of an RC register returns its value and clears it. -/
  | rcRegisterRead (off : BitVec 19)
  /-- BAR2_READ (R35): A read through BAR2 of the Kennel, the slot store or the statistics block, reporting check-bit failures with no action. -/
  | bar2Read (off : Nat) (len : Nat)
  /-- BAR2_WRITE (R35): A write to BAR2 is discarded and counted. -/
  | bar2Write (off : Nat) (len : Nat)
  /-- TIME_LATCH_CAPTURE (R67): A write of CAPTURE copies the clock into the snapshot registers at one tick and increments SEQ. -/
  | timeLatchCapture
  /-- CMP_TARGET_LOAD (R71): A write to CMPn_NS loads the held seconds and the nanoseconds as the compare target. -/
  | cmpTargetLoad (n : Fin 4) (ns : Word)
  /-- CMP_ENABLE (R71): A write of CMPn_CTRL.EN from 0 to 1 arms the compare unit. -/
  | cmpEnable (n : Fin 4)
  /-- COMPARE_HIT (R71): A compare unit's target is reached: it sets HIT, then advances by PERIOD or clears EN. -/
  | compareHit (n : Fin 4)
  /-- EO_PULSE_QUEUE (R116): A write to EO_PULSE_FRAC queues the held target in an event output's pulse queue. -/
  | eoPulseQueue (m : Fin 8) (frac : Word)
  /-- LISTENER_ENABLE (R226): A write to LST_ENABLE_SET enables listeners. -/
  | listenerEnable (k : Fin 32) (mask : Word)
  /-- LISTENER_DISABLE (R226): A write to LST_ENABLE_CLR disables listeners and flushes their unstarted copies. -/
  | listenerDisable (k : Fin 32) (mask : Word)
  /-- SP_STATUS_READ (R133): A read of SP_STATUS arms a clear of the flags it returns as set. -/
  | spStatusRead (p : Fin 128)
  /-- SP_DATA_READ (R135): A read of SP_DATA returns and removes a character, and clears the armed flags. -/
  | spDataRead (p : Fin 128)
  /-- CN_RECOVER_START (R264): A write of CN_RECOVER.START starts bus-off recovery while AUTO_REC is 0. -/
  | cnRecoverStart (n : Fin 8)
  /-- CB_IRQ_ACK (R303): A write to CB_IRQ_ACK re-arms a far-card interrupt line. -/
  | cbIrqAck (val : Word)
  /-- CB_LOG_CLEAR (R306): A write to CB_LOG_CLEAR empties the bridge error log. -/
  | cbLogClear
  /-- BRIDGE_DISABLE (R308): Clearing CB_CTRL.EN drops queued writes, fails waiting reads and releases the bus. -/
  | bridgeDisable
  /-- FAR_WINDOW_WRITE (R293): A write to a bridge window's registers changes its mapping and invalidates its prefetch line. -/
  | farWindowWrite (w : Fin 8) (reg : Fin 3) (val : Word)
  /-- ETH_MDIO_CMD (R288): A write to ETH_MDIO_CMD while idle starts one management frame. -/
  | ethMdioCmd (val : Word)
  /-- MDIO_FRAME_DONE (R288): A management frame ends, and a read sets VALID and DATA. -/
  | mdioFrameDone (data : BitVec 16)
  /-- PAIR_CTRL_EN_CHANGE (R367): A write that changes PAIR_CTRL.EN releases every endpoint and restarts ownership. -/
  | pairCtrlEnChange (val : Word)
  /-- BAR4_WRITE (R296): A served BAR4 write is posted as write cycles that take sequence numbers. -/
  | bar4Write (off : Nat) (bytes : List (Option Byte))
  /-- BAR4_READ (R298): A served BAR4 read waits for the earlier posted writes, then runs its cycles before its deadline. -/
  | bar4Read (off : Nat) (enables : List Bool)
  /-- BAR4_UNSERVED_ACCESS (R294): A BAR4 access outside every enabled window reads 0xFF bytes or is discarded, and is counted. -/
  | bar4UnservedAccess (isWrite : Bool) (off : Nat) (enables : List Bool)
  /-- CABINET_CYCLE_START (R291): The bridge starts the next master cycle on the cabinet bus once the bus is free. -/
  | cabinetCycleStart
  /-- CABINET_CYCLE_ACK (R292): The bridge sees DTACK, BERR or a retry, and fixes the outcome of the cycle. -/
  | cabinetCycleAck (dtack berr : Bool) (data : BitVec 16)
  /-- CABINET_CYCLE_TIMEOUT (R292): The window timeout runs out with no answer, and the cycle fails as a DTACK timeout. -/
  | cabinetCycleTimeout
  /-- CARD_RETRY_WAIT_END (R292): The 1 µs wait after a card retry ends, and the same cycle runs again. -/
  | cardRetryWaitEnd
  /-- BAR4_READ_DEADLINE (R298): A BAR4 read reaches its deadline and completes with 0xFF from the unfinished cycle on. -/
  | bar4ReadDeadline
  /-- PREFETCH_LINE_READ (R300): After a read in a prefetchable window, the next 16-byte far line is read into the prefetch line. -/
  | prefetchLineRead (w : Fin 8)
  /-- PREFETCH_LINE_AGE (R300): A prefetch line reaches an age of 100 µs and is invalidated. -/
  | prefetchLineAge (w : Fin 8)
  /-- FAR_BUS_REQUEST (R301): A far master asserts CB_BREQ_N and is granted the bus under the fairness rule. -/
  | farBusRequest
  /-- FAR_BUS_RELEASE (R301): A far master negates CB_BREQ_N, and the bridge withdraws the grant and takes the bus. -/
  | farBusRelease
  /-- FAR_WRITE (R302): A far-master write in a reverse window is latched, acknowledged and posted to host memory. -/
  | farWrite (addr : BitVec 24) (strobes : BitVec 2) (data : BitVec 16)
  /-- FAR_READ (R302): A far-master read in a reverse window becomes a host memory read. -/
  | farRead (addr : BitVec 24) (strobes : BitVec 2)
  /-- FAR_READ_COMPLETION (R302): The host completion of a far read returns and is answered with DTACK and data, or with BERR. -/
  | farReadCompletion (data : Option (BitVec 16))
  /-- FAR_CARD_INTERRUPT (R303): An enabled CB_IRQ_N line is asserted, and an event of KIND 1 follows the earlier far writes. -/
  | farCardInterrupt (i : Fin 4)
  /-- HOST_WAIT_BACKOFF (R304): Host work has waited HOST_WAIT µs for a far master, and the far master's cycles are answered with retry. -/
  | hostWaitBackoff
  /-- FAR_HOLD_LIMIT (R304): A far master holds the bus for HOLD_MAX µs, and the hub logs it and reports it. -/
  | farHoldLimit
  /-- POWER_ON_RESET (R352): VAON rises, and a full reset that also resets the always-on registers is taken. -/
  | powerOnReset (straps : Straps)
  /-- PWR_EN_STEP (R351): An SL count runs out, and the next power-enable output rises. -/
  | pwrEnStep
  /-- RESET_N (R351): A low level on RESET_N of 10 µs or longer takes a full reset and puts every endpoint ball in high impedance. -/
  | resetN (lowNs : Nat)
  /-- RESET_N_RELEASE (R354): The release of reset starts the boot sequencer, which waits for PLL lock. -/
  | resetNRelease (straps : Straps)
  /-- FUNCTION_LEVEL_RESET (R352): A PCIe function-level reset takes a full reset and resets configuration space. -/
  | functionLevelReset
  /-- D3HOT_TRANSITION (R30): The function enters or leaves D3hot, which stops or resumes memory requests and messages. -/
  | d3hotTransition (enter : Bool)
  /-- MONITORED_CLOCK_LOSS (R14): A monitored clock stops beyond its limit, and its crossing ports complete with a discard indication and are disarmed. -/
  | monitoredClockLoss (c : ClockStop)
  /-- MONITORED_CLOCK_RETURN (R14): A monitored clock returns, and its crossing port resumes at the next bundle. -/
  | monitoredClockReturn (c : MonClock)
  /-- PLL_LOCK (R63): The REFCLK PLL locks: TB starts or relocks, and the boot sequencer proceeds. -/
  | pllLock
  /-- REFCLK_LOSS (R72): REFCLK stops or leaves ±200 ppm, and the PLL control value is held with DET_TIME_HOLD. -/
  | refclkLoss
  /-- BOOT (R354): The boot sequencer reads and checks the flash image, loads bank A, runs the setting records and clears BOOT_BUSY. -/
  | boot (run : BootRun)
  /-- SLEEP_ENTRY_STOP (R361): 100 µs after the SLEEP_ENTER message, intake and endpoints stop and the watch receivers start. -/
  | sleepEntryStop
  /-- SLEEP_POWER_DOWN_STEP (R361): A timed step of harbour-watch entry lowers the next power enable. -/
  | sleepPowerDownStep
  /-- WATCH_CHARACTER (R151): A watch receiver receives a character, compares it with the pattern and buffers it. -/
  | watchCharacter (j : Fin 8) (ch : Byte) (stopLow parityBad : Bool) (idleChars : Nat)
  /-- WAKE_N (R362): WAKE_N is low for 2 SL periods and wakes the hub from harbour watch. -/
  | wakeN
  /-- WAKE_TIMER (R362): PWR_WAKE.TIMER seconds pass in harbour watch and wake the hub. -/
  | wakeTimer
  /-- WAKE_RELEASE (R362): DELAY after PWR_EN_SD, the internal release starts the wake reset and boot. -/
  | wakeRelease
  /-- WATCH_TAKEOVER (R152): The PS receiver of a woken port takes over from its watch receiver at the first idle. -/
  | watchTakeover (p : Fin 128)
  /-- WATCH_RECEIVER_TIMEOUT (R363): 10 s pass with no enable of the port, and the watch receiver stops and discards its buffer. -/
  | watchReceiverTimeout (j : Fin 8)
  /-- SERIAL_CHARACTER (R124): A serial receiver completes a character, sets flags and passes it to the framer, the FIFO or a raw record. -/
  | serialCharacter (p : Fin 128) (ch : Byte) (parityBit stopLow : Bool) (taps : Fin 256)
  /-- LEASH_TIMEOUT (R143): No XON arrives within SP_LEASH_TIMEOUT, and the transmitter resumes. -/
  | leashTimeout (p : Fin 128)
  /-- RAW_GAP_CLOSE (R139): RAW_GAP character times of idle line close a raw record. -/
  | rawGapClose (p : Fin 128)
  /-- LINE_BREAK (R149): A receive line stays low for 2 character times, and a break record is written. -/
  | lineBreak (p : Fin 128)
  /-- LINE_HELD (R149): A receive line stays low for SP_HOLD, and the port is marked HELD. -/
  | lineHeld (p : Fin 128)
  /-- LINE_RELEASE (R149): A stuck receive line goes high, and BREAK and HELD clear. -/
  | lineRelease (p : Fin 128)
  /-- SERIAL_SETTINGS_APPLY (R141): A direction reaches its character boundary and takes up the settings of a pending PORT_SET. -/
  | serialSettingsApply (p : Fin 128) (rx : Bool)
  /-- SERIAL_ITEM_STAGE (R129): 256 ns before its launch time, a launched item is handed to the transmitter. -/
  | serialItemStage (p : Fin 128)
  /-- SERIAL_ITEM_START (R128): The transmitter takes an item and places its start edge, with any TAG block and Leash characters. -/
  | serialItemStart (p : Fin 128)
  /-- HALF_DUPLEX_ATTEMPT (R146): After the idle wait of G character times, a half-duplex attempt raises DE and starts. -/
  | halfDuplexAttempt (p : Fin 128)
  /-- COLLISION (R147): Read-back differs from the sent bit; the attempt stops, the dice are rolled, or the item fails after 8 attempts. -/
  | collision (p : Fin 128)
  /-- SERIAL_ITEM_END (R131): The last stop bit of an item ends, and the departure stamp, count and echo are written. -/
  | serialItemEnd (p : Fin 128)
  /-- TALKER_SWEEP (R160): At each whole second of TB time, silent unpinned talkers are aged out. -/
  | talkerSweep
  /-- BUCKET_REFILL (R164): At each whole millisecond, the sentence and ply buckets of the talkers are refilled. -/
  | bucketRefill
  /-- DISPATCH (R168): The Herder gives the chosen ready head, or a rebuild run, to the lowest free online engine. -/
  | dispatch
  /-- ENGINE_HOUND_TRIP (R188): An engine's wall time exceeds its hound limit: the engine is wedged and its record abandoned. -/
  | engineHoundTrip (e : Fin 32)
  /-- CROSSING_HOUND_TRIP (R343): A handshake phase exceeds the crossing limit, and its unit is wedged or the hub stops. -/
  | crossingHoundTrip (x : CrossPhase) (out idle : Bool)
  /-- NOP (R196): The NOP instruction does nothing for 1 ply. -/
  | nop (e : Fin 32)
  /-- END (R172): The END instruction ends the record, discarding any open item. -/
  | endRecord (e : Fin 32)
  /-- DROP (R172): The DROP instruction ends the record. -/
  | drop (e : Fin 32)
  /-- BR (R196): Unconditional branch. -/
  | br (e : Fin 32)
  /-- BRC (R197): Conditional branch on a flag condition. -/
  | brc (e : Fin 32)
  /-- CALL (R196): Pushes the return address and branches. -/
  | call (e : Fin 32)
  /-- RET (R196): Pops the return address, or goes to word 32 767 when the stack is empty. -/
  | ret (e : Fin 32)
  /-- BUDGET (R198): Lowers the ply budget and returns the plies remaining. -/
  | budget (e : Fin 32)
  /-- CUR (R200): Reads and optionally sets the cursor. -/
  | cur (e : Fin 32)
  /-- NEXTF (R199): Finds and records the next field in the field index. -/
  | nextf (e : Fin 32)
  /-- MATCH (R200): Compares a pool string with payload bytes at the cursor. -/
  | match (e : Fin 32)
  /-- GETC (R200): Reads the byte at the cursor and advances the cursor. -/
  | getc (e : Fin 32)
  /-- SKIP (R200): Moves the cursor by a signed amount. -/
  | skip (e : Fin 32)
  /-- CHK (R201): Checks the checksum of the sentence proper. -/
  | chk (e : Fin 32)
  /-- TALK (R200): Returns the talker characters of a sentence. -/
  | talk (e : Fin 32)
  /-- FMT (R200): Returns the formatter characters of a sentence. -/
  | fmt (e : Fin 32)
  /-- PDEC (R203): Parses a decimal field into Q-format. -/
  | pdec (e : Fin 32)
  /-- PLAT (R204): Parses a latitude and its hemisphere. -/
  | plat (e : Fin 32)
  /-- PLON (R204): Parses a longitude and its hemisphere. -/
  | plon (e : Fin 32)
  /-- PHEX (R205): Parses a hexadecimal field. -/
  | phex (e : Fin 32)
  /-- PCHR (R205): Returns the first byte of a field. -/
  | pchr (e : Fin 32)
  /-- PTIME (R205): Parses hhmmss.fraction into seconds of the day and nanoseconds. -/
  | ptime (e : Fin 32)
  /-- PDATE (R205): Parses a date into days since 1970. -/
  | pdate (e : Fin 32)
  /-- ADD (R206): Adds. -/
  | add (e : Fin 32)
  /-- SUB (R206): Subtracts. -/
  | sub (e : Fin 32)
  /-- MUL (R206): Signed multiply, keeping the low 32 bits. -/
  | mul (e : Fin 32)
  /-- MULQ (R207): Q-format multiply with rounding and saturation. -/
  | mulq (e : Fin 32)
  /-- AND (R206): Bitwise AND. -/
  | andW (e : Fin 32)
  /-- OR (R206): Bitwise OR. -/
  | orW (e : Fin 32)
  /-- XOR (R206): Bitwise XOR. -/
  | xorW (e : Fin 32)
  /-- SHL (R206): Shift left. -/
  | shl (e : Fin 32)
  /-- SHR (R206): Logical or arithmetic shift right. -/
  | shr (e : Fin 32)
  /-- MIN (R206): Signed minimum. -/
  | minW (e : Fin 32)
  /-- MAX (R206): Signed maximum. -/
  | maxW (e : Fin 32)
  /-- CMP (R206): Sets the flags of A minus B. -/
  | cmp (e : Fin 32)
  /-- LDI (R208): Loads an immediate value or a pool word. -/
  | ldi (e : Fin 32)
  /-- MOV (R206): Copies a register. -/
  | mov (e : Fin 32)
  /-- SCALE (R207): Linear scaling with pool constants. -/
  | scale (e : Fin 32)
  /-- TLK (R209): Reads a word of a talker entry. -/
  | tlk (e : Fin 32)
  /-- RT (R209): Reads a route entry of the record's bank. -/
  | rt (e : Fin 32)
  /-- LDS (R209): Loads a scratch word. -/
  | lds (e : Fin 32)
  /-- STS (R209): Stores a scratch word. -/
  | sts (e : Fin 32)
  /-- SLOTW (R210): Writes 12 scratch words and the source stamp into a slot. -/
  | slotw (e : Fin 32)
  /-- SLOTR (R210): Reads a slot into scratch. -/
  | slotr (e : Fin 32)
  /-- TSA (R211): Reads the FIRST stamp of the record. -/
  | tsa (e : Fin 32)
  /-- TSE (R211): Reads the END stamp of the record. -/
  | tse (e : Fin 32)
  /-- TNOW (R211): Reads the clock as a short stamp. -/
  | tnow (e : Fin 32)
  /-- TDIFF (R211): Takes the saturated difference of two short stamps. -/
  | tdiff (e : Fin 32)
  /-- TIMESET (R212): Hands UTC seconds and the arrival stamp to the time core. -/
  | timeset (e : Fin 32)
  /-- OPEN (R215): Opens an output item with a set, a priority and a deadline. -/
  | openItem (e : Fin 32)
  /-- PUTC (R214): Appends a byte or the running checksum. -/
  | putc (e : Fin 32)
  /-- PUTS (R214): Appends a pool string. -/
  | puts (e : Fin 32)
  /-- PUTF (R214): Appends a field, or formats a number under R216. -/
  | putf (e : Fin 32)
  /-- PUTRAW (R214): Appends scratch bytes. -/
  | putraw (e : Fin 32)
  /-- OPGN (R217): Gives the open item a CAN identifier. -/
  | opgn (e : Fin 32)
  /-- PUTB (R214): Appends bytes of a register. -/
  | putb (e : Fin 32)
  /-- CLOSE (R214): Closes the item and hands it to the copier. -/
  | close (e : Fin 32)
  /-- LAUNCH (R218): Sets the item's launch time, or queues a pulse on an event output. -/
  | launch (e : Fin 32)
  /-- TAG (R219): Sets the NOTAG and SRC options of the open item. -/
  | tagItem (e : Fin 32)
  /-- PANEL (R220): Requests a panel region update from the bindings. -/
  | panel (e : Fin 32)
  /-- COUNT (R221): Adds to a program counter. -/
  | count (e : Fin 32)
  /-- EVENT (R221): Copies the record to a host ring. -/
  | event (e : Fin 32)
  /-- ACKSTAT (R221): Runs a serial port's status-then-data sequence at one instant. -/
  | ackstat (e : Fin 32)
  /-- ENDPOINT_START_COPY (R231): An endpoint that can start chooses and starts the next ready copy or drain item. -/
  | endpointStartCopy (ep : Endpoint)
  /-- DEADLINE_MISS (R234): A copy's deadline is reached before it starts, and it is discarded or kept as late. -/
  | deadlineMiss (arrival : Word)
  /-- DRAIN_TICK (R242): A slot-drain listener ticks and marks or moves a drain item. -/
  | drainTick (l : Fin 1024)
  /-- TOD_PAIRING (R94): A TIMESET is paired with a PPS edge, which gives a time-of-day sample or steps the clock in acquisition. -/
  | todPairing
  /-- PAIR_WINDOW_CLOSE (R94): The window of a waiting PAIR = 1 TIMESET closes, and the TIMESET is discarded. -/
  | pairWindowClose
  /-- HOLD_TIMEOUT (R92): No sample arrives for HOLD_TIMEOUT, so the state becomes HOLD_SILENT with DET_TIME_HOLD. -/
  | holdTimeout
  /-- EI_EDGE (R108): An edge at an event input ball is converted by its TDC, or lost in the dead time. -/
  | eiEdge (i : Fin 32) (level : Bool) (taps : Fin 256)
  /-- EI_LEVEL_ACCEPTED (R107): A level holds for the filter width, and the edge is recorded or coalesced. -/
  | eiLevelAccepted (i : Fin 32)
  /-- BURST_CLOSE (R111): A coalesced record closes after 1 µs of quiet or 10 ms, and is written as BURST. -/
  | burstClose (i : Fin 32)
  /-- EI_HELD (R112): An active level holds for EI_HOLD, and a HELD record is written. -/
  | eiHeld (i : Fin 32)
  /-- EI_FIFO_DRAIN (R110): An event record leaves its FIFO when its destinations take it. -/
  | eiFifoDrain (i : Fin 32)
  /-- EO_PULSE (R117): A pulse target falls due and the leading edge is placed, or the pulse is discarded. -/
  | eoPulse (m : Fin 8)
  /-- EO_PULSE_END (R116): The width of a pulse runs out and the trailing edge is placed. -/
  | eoPulseEnd (m : Fin 8)
  /-- CAL_MIDPOINT (R79): At the midpoint of an interval with too few hits, dither starts at 1 M hits/s. -/
  | calMidpoint (g : Fin 8)
  /-- CAL_INTERVAL_END (R80): A region's interval ends, and its table is computed, checked and committed or refused. -/
  | calIntervalEnd (g : Fin 8) (dither : List Nat)
  /-- CAL_HITS_REACHED (R84): A forced or fallback accumulation reaches CAL_HITS, and the region commits or refuses its table. -/
  | calHitsReached (g : Fin 8) (dither : List Nat)
  /-- CAL_TRIGGER (R83): A 1 ms sample of temperature or VCORE crosses a threshold and restarts the interval. -/
  | calTrigger (g : Fin 8) (temp mv : BitVec 16)
  /-- TDC_TABLE_SWITCH (R82): A TDC at its first idle moment switches to the newest table, which may release a waiting commit. -/
  | tdcTableSwitch (t : Fin 164)
  /-- OCCUPANCY_WINDOW_END (R25): A 10 ms window ends, and automatic control judges occupancy. -/
  | occupancyWindowEnd
  /-- VID_CODE_CHANGE (R24): Once every region has committed since the last change, VID moves by one code. -/
  | vidCodeChange
  /-- CAN_FRAME_RECEIVED (R250): A valid CAN frame is received, stamped and filtered into RXQ0 or RXQ1. -/
  | canFrameReceived (n : Fin 8) (frame : CanFrame) (own : Bool)
  /-- CAN_INTAKE (R252): The intake takes a frame from an RXQ to admission or to fast-packet reassembly. -/
  | canIntake (n : Fin 8)
  /-- FAST_PACKET_TIMEOUT (R255): An open reassembly receives no frame for TIMEOUT ms and is discarded. -/
  | fastPacketTimeout (n : Fin 8) (r : Fin 32)
  /-- CAN_LANE_SELECT (R258): Before each SOF, the lane selects the eligible frame that would win arbitration. -/
  | canLaneSelect (n : Fin 8)
  /-- CAN_ATTEMPT_END (R258): A transmit attempt completes, loses arbitration or ends in error, and the frame completes or retries. -/
  | canAttemptEnd (n : Fin 8) (res : AttemptResult)
  /-- CAN_ERROR (R263): A CAN error is detected, TEC and REC are updated, and bus-off may follow. -/
  | canError (n : Fin 8) (kind : CanFault) (tx dataPhase : Bool)
  /-- BUS_OFF_RECOVERED (R264): 128 occurrences of 11 recessive bits make the port error active again. -/
  | busOffRecovered (n : Fin 8)
  /-- CAN_STUCK (R265): RXD stays dominant for 64 bit times, and the port enters bus-off. -/
  | canStuck (n : Fin 8)
  /-- CAN_STUCK_RELEASE (R265): RXD returns to recessive and STUCK clears. -/
  | canStuckRelease (n : Fin 8)
  /-- CAN_INTEGRATED (R266): The controller integrates on 11 recessive bits after PORT_SET or PORT_ENABLE. -/
  | canIntegrated (n : Fin 8)
  /-- LINK_CHANGE (R269): An Ethernet link comes up or goes down, with an event and failed launches. -/
  | linkChange (n : Fin 4) (up speedFault : Bool)
  /-- ETH_FRAME_RECEIVED (R270): A frame is judged by the MAC and routed to PTP, the 450 intake or the host ring. -/
  | ethFrameReceived (n : Fin 4) (bytes : List Byte) (fcs : Word) (taps : Fin 256)
  /-- ETH_DATAGRAM_SPLIT (R273): A buffered 61162-450 datagram is split into parts, which go to duplicate checking and admission. -/
  | ethDatagramSplit (n : Fin 4)
  /-- ETH_FRAME_START (R277): The MAC chooses and starts a PTP frame, an ETH_LAUNCH frame or a listener datagram. -/
  | ethFrameStart (n : Fin 4)
  /-- ETH_FRAME_DEPARTED (R279): A frame finishes transmission, and completion and echo follow. -/
  | ethFrameDeparted (n : Fin 4)
  /-- PTP_SYNC_TIMER (R101): A MASTER port's Sync interval runs out, and it sends Sync with Follow_Up. -/
  | ptpSyncTimer (p : Fin 4)
  /-- PTP_DELAY_REQ_TIMER (R101): A SLAVE port's random Delay_Req time runs out. -/
  | ptpDelayReqTimer (p : Fin 4)
  /-- PTP_PDELAY_REQ_TIMER (R101): A P2P port's Pdelay_Req interval runs out. -/
  | ptpPdelayReqTimer (p : Fin 4)
  /-- PANEL_FRAME_BOUNDARY (R311): At a frame boundary, the strobe applies the drive, updates start or end, and the ledgers move. -/
  | panelFrameBoundary (n : Fin 8)
  /-- PANEL_SENSOR_READ (R312): Once per second, the panel temperature sensor is read. -/
  | panelSensorRead (n : Fin 8) (startBit : Bool) (raw : BitVec 16)
  /-- PANEL_CRC_CHECK (R324): Every 10 s, the image CRC is checked, and on mismatch the image is recomputed with recovery requests. -/
  | panelCrcCheck (n : Fin 8)
  /-- PROGRAM_REFETCH_DONE (R336): The re-fetch of a failed bank word returns or fails, and the waiting reader continues. -/
  | programRefetchDone (data : Option (List Word))
  /-- TEMP_MONITOR_SAMPLE (R347): A 1 ms die temperature sample is compared with the limits. -/
  | tempMonitorSample (g : Fin 8) (temp : BitVec 16)
  /-- VCORE_MONITOR_SAMPLE (R348): A VCORE sample is compared with the request. -/
  | vcoreMonitorSample (g : Fin 8) (mv : BitVec 16)
  /-- INJECTION_DURATION_END (R339): A mode 3 injection duration runs out, and the arm clears. -/
  | injectionDurationEnd (d : BitVec 7)
  /-- HEARTBEAT_SEND (R365): Every 1 ms, the hub starts a pair-link heartbeat. -/
  | heartbeatSend
  /-- HEARTBEAT_HEARD (R365): A partner heartbeat is received, checked, gives a pair-link sample and may transfer ownership. -/
  | heartbeatHeard (msg : List Word)
  /-- PAIR_SYMBOL_TIMEOUT (R364): An unacknowledged symbol or an interrupted message abandons the message. -/
  | pairSymbolTimeout (tx : Bool)
  /-- PARTNER_SILENT (R368): No heartbeat for SILENCE ms: takeover, or a fault when PAIR_ALIVE_IN is high. -/
  | partnerSilent
  /-- HANDBACK_DELAY (R368): The partner has been heard for BACK_DELAY, and the endpoints of its home side are released. -/
  | handbackDelay
  /-- DMA_READ_COMPLETION (R62): A DMA read issued by the hub returns its data, or ends in an error or a completion timeout, and the command waiting on it continues or completes DMA_FAULT. -/
  | dmaReadCompletion (slot : Fin 256) (data : Option (List Byte))
  /-- FLASH_OPERATION_END (R47): A flash read, program, erase or verification ends, successfully or with a flash error, and the flash command or flash-sourced LOAD_PROGRAM completes. -/
  | flashOperationEnd (slot : Fin 256) (ok : Bool) (data : List Byte)
  /-- BAR0_USABLE (R29): After a DEVICE_RESET or function-level reset, BAR0 becomes usable again and HOST_STATUS reads READY without 0xFFFF_FFFF. -/
  | bar0Usable
  /-- SERIAL_FALSE_START (R126): A start bit that reads high at its middle sample is ignored; its edge is still stamped and counted as a calibration hit, which may force a pending table switch. -/
  | serialFalseStart (p : Fin 128) (taps : Fin 256)
  /-- PAIR_ALIVE_IN_CHANGE (R368): PAIR_ALIVE_IN changes level, and a hub whose partner is already silent takes its endpoints, or reports the fault case, at that moment. -/
  | pairAliveInChange (level : Bool)
  /-- CB_IRQ_N_RELEASE (R303): A far-card interrupt line goes high, which clears CB_IRQ_CTRL.LEVEL and decides whether its next low level counts as a new assertion. -/
  | cbIrqNRelease (i : Fin 4)
  /-- VAON_REMOVED (R360): VAON is removed and the hub enters the Off state from any state. -/
  | vaonRemoved
  deriving DecidableEq, Repr

end Sys2Proof
end

