-- ==== Sys2Proof/Decode.lean ====
section
/-! DEFINITION. Words: the commands of the table, which gives no row any bits, and the Nymsa words that the engines run
(09_nymsa_reference.md R190 to R192), with their encoder. -/

namespace Sys2Proof

/-- The command that a word spells: the opcode table gives bits to no row, so a word spells none. -/
def decodeTableWord (_nbits _w : Nat) : Option Instr := none

/-- The opcodes of Nymsa, by number (R192). -/
def nyOps : List NyOp :=
  [.nop, .endRecord, .br, .brc, .call, .ret, .budget, .cur, .nextf, .matchText, .getc, .skip, .chk, .talk, .fmt, .pdec] ++
  [.plat, .plon, .phex, .pchr, .ptime, .pdate, .add, .sub, .mul, .mulq, .andW, .orW, .xorW, .shl, .shr, .minW] ++
  [.maxW, .cmp, .ldi, .mov, .scale, .tlk, .rt, .slotw, .slotr, .lds, .sts, .tsa, .tse, .tnow, .tdiff, .timeset] ++
  [.openItem, .putc, .puts, .putf, .putraw, .opgn, .putb, .close, .launch, .tagItem, .panel, .count, .event, .ackstat, .unassigned, .drop]

/-- The number of an opcode (R192). -/
def nyCode : NyOp → BitVec 6
  | .nop => 0x00#6
  | .endRecord => 0x01#6
  | .br => 0x02#6
  | .brc => 0x03#6
  | .call => 0x04#6
  | .ret => 0x05#6
  | .budget => 0x06#6
  | .cur => 0x07#6
  | .nextf => 0x08#6
  | .matchText => 0x09#6
  | .getc => 0x0A#6
  | .skip => 0x0B#6
  | .chk => 0x0C#6
  | .talk => 0x0D#6
  | .fmt => 0x0E#6
  | .pdec => 0x0F#6
  | .plat => 0x10#6
  | .plon => 0x11#6
  | .phex => 0x12#6
  | .pchr => 0x13#6
  | .ptime => 0x14#6
  | .pdate => 0x15#6
  | .add => 0x16#6
  | .sub => 0x17#6
  | .mul => 0x18#6
  | .mulq => 0x19#6
  | .andW => 0x1A#6
  | .orW => 0x1B#6
  | .xorW => 0x1C#6
  | .shl => 0x1D#6
  | .shr => 0x1E#6
  | .minW => 0x1F#6
  | .maxW => 0x20#6
  | .cmp => 0x21#6
  | .ldi => 0x22#6
  | .mov => 0x23#6
  | .scale => 0x24#6
  | .tlk => 0x25#6
  | .rt => 0x26#6
  | .slotw => 0x27#6
  | .slotr => 0x28#6
  | .lds => 0x29#6
  | .sts => 0x2A#6
  | .tsa => 0x2B#6
  | .tse => 0x2C#6
  | .tnow => 0x2D#6
  | .tdiff => 0x2E#6
  | .timeset => 0x2F#6
  | .openItem => 0x30#6
  | .putc => 0x31#6
  | .puts => 0x32#6
  | .putf => 0x33#6
  | .putraw => 0x34#6
  | .opgn => 0x35#6
  | .putb => 0x36#6
  | .close => 0x37#6
  | .launch => 0x38#6
  | .tagItem => 0x39#6
  | .panel => 0x3A#6
  | .count => 0x3B#6
  | .event => 0x3C#6
  | .ackstat => 0x3D#6
  | .unassigned => 0x3E#6
  | .drop => 0x3F#6

/-- A Nymsa word read by its fields (R190). -/
def nyDecode (w : Word) : NyInstr :=
  { op := nyOps.getD (w.extractLsb' 26 6).toNat .nop,
    d := w.extractLsb' 22 4,
    a := w.extractLsb' 18 4,
    arg := if w.getLsbD 17 then .imm (w.extractLsb' 0 17) else .reg (w.extractLsb' 13 4) (w.extractLsb' 0 13) }

/-- The low 18 bits of a Nymsa word: I and what follows it (R190). -/
def nyArgBits : NyArg → BitVec 18
  | .reg b x => 0#1 ++ b ++ x
  | .imm k => 1#1 ++ k

/-- The word of a Nymsa instruction (R190). -/
def nyEncode (i : NyInstr) : Word := nyCode i.op ++ i.d ++ i.a ++ nyArgBits i.arg

end Sys2Proof
end

