-- ==== Sys2Proof/Machine/Bits.lean ====
section
/-! DEFINITION. Bit fields, byte order, check bits, checksums and the sparse map that the machine's definitions share. -/

namespace Sys2Proof.Machine

/-! ## Fields of a word (R2: [msb:lsb]) -/

/-- The field [hi:lo] of a word, as a number. -/
def fld (w : Word) (hi lo : Nat) : Nat := (w.toNat >>> lo) % 2 ^ (hi + 1 - lo)

/-- One bit of a word. -/
def bit (w : Word) (i : Nat) : Bool := (w.toNat >>> i) % 2 == 1

/-- A word with its field [hi:lo] replaced. -/
def setFld (w : Word) (hi lo v : Nat) : Word :=
  BitVec.ofNat 32 (w.toNat - fld w hi lo * 2 ^ lo + (v % 2 ^ (hi + 1 - lo)) * 2 ^ lo)

/-- A flag as a number. -/
def b2n (b : Bool) : Nat := if b then 1 else 0

/-- A number of n bits in two's complement, as a signed number. -/
def sext (n v : Nat) : Int := if v % 2 ^ n < 2 ^ (n - 1) then (v % 2 ^ n : Nat) else (v % 2 ^ n : Nat) - (2 ^ n : Nat)

/-- A signed number, limited to the range of a 32-bit signed word (R91). -/
def sat32 (i : Int) : Int := if i < -2147483648 then -2147483648 else if i > 2147483647 then 2147483647 else i

/-- A signed number as a 32-bit word. -/
def ofInt (i : Int) : Word := BitVec.ofInt 32 i

/-- A number limited from below and above. -/
def clampNat (lo hi v : Nat) : Nat := if v < lo then lo else if hi < v then hi else v

/-- A saturating sum (R47: counts saturate). -/
def satAdd (a b top : Nat) : Nat := if a + b ≤ top then a + b else top

/-- Ceiling division. -/
def ceilDiv (a b : Nat) : Nat := (a + b - 1) / b

/-! ## Check bits (R18) -/

/-- Check bit k of 32 data bits: the XOR of the bits k, k+4, …, k+28. -/
def checkBit (d : Word) (k : Nat) : Bool :=
  [0, 4, 8, 12, 16, 20, 24, 28].foldl (fun acc j => acc ^^ bit d (k + j)) false

/-- The four check bits of 32 data bits. -/
def checkBits (d : Word) : BitVec 4 :=
  BitVec.ofNat 4 (b2n (checkBit d 0) + 2 * b2n (checkBit d 1) + 4 * b2n (checkBit d 2) + 8 * b2n (checkBit d 3))

/-- A memory word with fresh check bits. -/
def memFresh (d : Word) : MemWord := checkBits d ++ d

/-- The data bits of a memory word. -/
def memData (m : MemWord) : Word := m.setWidth 32

/-- The stored check bits of a memory word. -/
def memCheck (m : MemWord) : BitVec 4 := (m >>> 32).setWidth 4

/-- A word is good when every stored check bit equals the XOR over its group (R18). -/
def memGood (m : MemWord) : Bool := memCheck m == checkBits (memData m)

/-! ## Byte order (R4: bits [7:0] at the lowest address) -/

/-- The four bytes of a word, lowest address first. -/
def wordBytes (w : Word) : List Byte :=
  [w.setWidth 8, (w >>> 8).setWidth 8, (w >>> 16).setWidth 8, (w >>> 24).setWidth 8]

/-- The word that four bytes spell, lowest address first; missing bytes count as 0. -/
def bytesWord (bs : List Byte) : Word :=
  BitVec.ofNat 32 ((bs.getD 0 0).toNat + 256 * (bs.getD 1 0).toNat + 65536 * (bs.getD 2 0).toNat
    + 16777216 * (bs.getD 3 0).toNat)

/-- The bytes of a list of words. -/
def wordsBytes (ws : List Word) : List Byte := ws.flatMap wordBytes

/-- n words from a list of bytes, padded with 0. -/
def bytesWords : Nat → List Byte → List Word
  | 0, _ => []
  | n + 1, bs => bytesWord (bs.take 4) :: bytesWords n (bs.drop 4)

/-- The number that bytes spell, first byte most significant (network order). -/
def beNat (bs : List Byte) : Nat := bs.foldl (fun a b => a * 256 + b.toNat) 0

/-- n bytes of a number, most significant first. -/
def natBe : Nat → Nat → List Byte
  | 0, _ => []
  | n + 1, v => BitVec.ofNat 8 (v / 256 ^ n) :: natBe n v

/-- n bytes of a number, least significant first. -/
def natLe : Nat → Nat → List Byte
  | 0, _ => []
  | n + 1, v => BitVec.ofNat 8 v :: natLe n (v / 256)

/-- The number that bytes spell, first byte least significant. -/
def leNat (bs : List Byte) : Nat := bs.foldr (fun b a => a * 256 + b.toNat) 0

/-- The bytes of an ASCII text. -/
def ascii (t : String) : List Byte := t.toList.map (fun c => BitVec.ofNat 8 c.toNat)

/-! ## CRC-32 of IEEE 802.3 (R354) -/

/-- One bit of the reflected CRC-32. -/
def crcBit (c : Nat) : Nat := if c % 2 == 1 then (c / 2) ^^^ 0xEDB88320 else c / 2

/-- One byte of the reflected CRC-32. -/
def crcByte (c : Nat) (b : Byte) : Nat :=
  crcBit (crcBit (crcBit (crcBit (crcBit (crcBit (crcBit (crcBit (c ^^^ b.toNat))))))))

/-- The IEEE 802.3 CRC-32 of bytes in address order. -/
def crc32 (bs : List Byte) : Word := BitVec.ofNat 32 (bs.foldl crcByte 0xFFFFFFFF ^^^ 0xFFFFFFFF)

/-! ## Sparse maps -/

/-- What a key holds; an unlisted key holds d. -/
def sget {α : Type} (d : α) : SMap α → Nat → α
  | [], _ => d
  | (k', v) :: m, k => if k' = k then v else sget d m k

/-- A map without a key. -/
def serase {α : Type} : SMap α → Nat → SMap α
  | [], _ => []
  | (k', v) :: m, k => if k' = k then serase m k else (k', v) :: serase m k

/-- A map with a pair put before the first larger key. -/
def sinsert {α : Type} : SMap α → Nat → α → SMap α
  | [], k, v => [(k, v)]
  | (k', v') :: m, k, v => if k < k' then (k, v) :: (k', v') :: m else (k', v') :: sinsert m k v

/-- A map with one key rewritten; a key that holds d again is not listed. -/
def sset {α : Type} [DecidableEq α] (d : α) (m : SMap α) (k : Nat) (v : α) : SMap α :=
  if v = d then serase m k else sinsert (serase m k) k v

/-- The keys of a map rise strictly. -/
def srising {α : Type} : SMap α → Bool
  | [] => true
  | [_] => true
  | (k, _) :: (k', v') :: m => decide (k < k') && srising ((k', v') :: m)

/-- The canonical form of a map with default d: keys rise strictly and no entry equals d. -/
def swf {α : Type} [DecidableEq α] (d : α) (m : SMap α) : Bool :=
  srising m && m.all (fun e => decide (e.2 ≠ d))

/-! ## Lists -/

/-- A list with its element at an index replaced (unchanged where there is none). -/
def setAt {α : Type} (l : List α) (i : Nat) (v : α) : List α := l.set i v

/-- The first index in a list at which a test holds. -/
def findIdx? {α : Type} (p : α → Bool) : List α → Nat → Option Nat
  | [], _ => none
  | a :: l, i => if p a then some i else findIdx? p l (i + 1)

/-- The smallest element by a key, the first of equals. -/
def minBy {α : Type} (key : α → Nat) : List α → Option α
  | [] => none
  | a :: l => match minBy key l with
    | none => some a
    | some b => if key b < key a then some b else some a

/-- Insert into a list kept in ascending order of a key, behind equals. -/
def insertBy {α : Type} (le : α → α → Bool) (x : α) : List α → List α
  | [] => [x]
  | a :: l => if le a x then a :: insertBy le x l else x :: a :: l

end Sys2Proof.Machine
end

