-- ==== Sys2Proof/Machine/Operands.lean ====
section
/-! DEFINITION. Text of numbers, and the numbers that text and instruction fields give (09_nymsa_reference.md R191, R203 to R205,
R207, R216). -/

namespace Sys2Proof.Machine

/-! ## Digits -/

/-- One upper-case hexadecimal digit. -/
def hexDigit (v : Nat) : Byte := BitVec.ofNat 8 (if v % 16 < 10 then 48 + v % 16 else 55 + v % 16)

/-- A byte as two upper-case hexadecimal digits. -/
def hexByte (v : Nat) : List Byte := [hexDigit (v / 16), hexDigit v]

/-- n decimal digits of a number, leading zeros included. -/
def decDigits : Nat → Nat → List Byte
  | 0, _ => []
  | n + 1, v => BitVec.ofNat 8 (48 + v / 10 ^ n % 10) :: decDigits n v

/-- Decimal digits that a number needs, at least one. -/
def decWidth : Nat → Nat → Nat
  | 0, _ => 1
  | fuel + 1, v => if v < 10 then 1 else 1 + decWidth fuel (v / 10)

/-- A number in decimal without leading zeros. -/
def decText (v : Nat) : List Byte := decDigits (decWidth 40 v) v

/-- A number in decimal with at least w digits. -/
def decPad (w v : Nat) : List Byte := decDigits (max w (decWidth 40 v)) v

/-- The value of a decimal digit. -/
def digitOf (c : Byte) : Option Nat := if 48 ≤ c.toNat ∧ c.toNat ≤ 57 then some (c.toNat - 48) else none

/-- The value of a hexadecimal digit of either case. -/
def hexOf (c : Byte) : Option Nat :=
  let n := c.toNat
  if 48 ≤ n ∧ n ≤ 57 then some (n - 48) else if 65 ≤ n ∧ n ≤ 70 then some (n - 55) else if 97 ≤ n ∧ n ≤ 102 then some (n - 87) else none

/-- Text that holds decimal digits only, as a number; the empty text is 0. -/
def decVal : List Byte → Option Nat
  | cs => cs.foldl (fun acc c => match acc, digitOf c with
    | some v, some d => some (10 * v + d)
    | _, _ => none) (some 0)

/-- Text that holds hexadecimal digits only, as a number; the empty text is 0. -/
def hexVal (cs : List Byte) : Option Nat :=
  cs.foldl (fun acc c => match acc, hexOf c with
    | some v, some d => some (16 * v + d)
    | _, _ => none) (some 0)

/-- The value of two hexadecimal digits. -/
def hexPair (a b : Byte) : Option Nat := match hexOf a, hexOf b with
  | some x, some y => some (16 * x + y)
  | _, _ => none

/-- The exclusive or of bytes. -/
def xorBytes (bs : List Byte) : Nat := bs.foldl (fun a b => a ^^^ b.toNat) 0

/-! ## Rounding (R203, R204, R207, R216) -/

/-- n / d rounded to the nearest whole number, ties up. -/
def roundDiv (n d : Nat) : Nat := (2 * n + d) / (2 * d)

/-- p shifted right arithmetically by q with a tie rounded toward plus infinity (R207). -/
def roundShift (p : Int) (q : Nat) : Int := (p + (if q == 0 then 0 else 2 ^ (q - 1) : Nat)) / (2 ^ q : Nat)

/-- A number as text under R216: q fraction bits, places decimals (10 to 15 act as 9), at least width integer digits (0 acts as 1). -/
def formatQ (a : Int) (spec : Nat) : List Byte :=
  let q := spec % 32
  let places := min 9 (spec / 32 % 16)
  let width := max 1 (spec / 512 % 16)
  let m := roundDiv (a.natAbs * 10 ^ places) (2 ^ q)
  (if a < 0 && m != 0 then [0x2D#8] else []) ++ decPad width (m / 10 ^ places)
    ++ (if places == 0 then [] else 0x2E#8 :: decDigits places (m % 10 ^ places))

/-- A decimal text: its sign, its digits before and after the point, and whether it has one; none where it is malformed (R203). -/
def splitDecimal (cs : List Byte) : Option (Bool × List Byte × List Byte) :=
  let neg := cs.head? == some 0x2D#8
  let cs := if neg || cs.head? == some 0x2B#8 then cs.drop 1 else cs
  let ip := cs.takeWhile (· != 0x2E#8)
  let fp := (cs.drop ip.length).drop 1
  if (ip ++ fp).isEmpty then none
  else match decVal (ip ++ fp) with
    | some _ => some (neg, ip, fp)
    | none => none

/-- A decimal field in Qq, with its saturation (R203); none where it is malformed. -/
def parseDecimal (cs : List Byte) (q : Nat) : Option (Int × Bool) :=
  if 20 < cs.length then none
  else match splitDecimal cs with
    | none => none
    | some (neg, ip, fp) =>
      let m := roundDiv ((decVal (ip ++ fp)).getD 0 * 2 ^ q) (10 ^ fp.length)
      let v : Int := if neg then -(m : Int) else m
      some (sat32 v, sat32 v != v)

/-- A position field with its hemisphere (R204): n degree digits; none where it is malformed. -/
def parseAngle (n : Nat) (cs hemi : List Byte) (pos neg : Byte) (limit : Nat) : Option Int :=
  let deg := cs.take n
  let min := (cs.drop n).take 2
  let rest := cs.drop (n + 2)
  let frac := rest.drop 1
  let okRest := rest.isEmpty || (rest.head? == some 0x2E#8 && decide (1 ≤ frac.length) && decide (frac.length ≤ 8))
  let sign : Option Bool := if hemi == [pos] then some false else if hemi == [neg] then some true else none
  match decVal deg, decVal min, decVal frac, sign with
  | some d, some m, some f, some s =>
    if deg.length != n || min.length != 2 || !okRest || 60 ≤ m then none
    else
      let k := 10 ^ frac.length
      let v := roundDiv ((d * 60 * k + m * k + f) * 10 ^ 7) (60 * k)
      if limit < v then none else some (if s then -(v : Int) else v)
  | _, _, _, _ => none

/-- hhmmss with a fraction, as seconds of the day and nanoseconds (R205). -/
def parseTime (cs : List Byte) : Option (Nat × Nat) :=
  let rest := cs.drop 6
  let frac := rest.drop 1
  let okRest := rest.isEmpty || (rest.head? == some 0x2E#8 && decide (1 ≤ frac.length) && decide (frac.length ≤ 9))
  match decVal (cs.take 2), decVal ((cs.drop 2).take 2), decVal ((cs.drop 4).take 2), decVal frac with
  | some h, some m, some s, some f =>
    if cs.length < 6 || !okRest || 23 < h || 59 < m || 60 < s then none
    else some (h * 3600 + m * 60 + s, f * 10 ^ (9 - frac.length))
  | _, _, _, _ => none

/-- A leap year of the Gregorian calendar. -/
def leapYear (y : Nat) : Bool := y % 4 == 0 && (y % 100 != 0 || y % 400 == 0)

/-- Days of a month. -/
def monthDays (y m : Nat) : Nat :=
  if m == 2 then (if leapYear y then 29 else 28) else if m == 4 || m == 6 || m == 9 || m == 11 then 30 else 31

/-- Days from 1970-01-01 to a date, where the date exists and its year lies from 1970 to 2099 (R205). -/
def dayNumber (d m y : Nat) : Option Nat :=
  if y < 1970 || 2099 < y || m == 0 || 12 < m || d == 0 || monthDays y m < d then none
  else
    let years := (List.range (y - 1970)).foldl (fun a k => a + (if leapYear (1970 + k) then 366 else 365)) 0
    let months := (List.range (m - 1)).foldl (fun a k => a + monthDays y (k + 1)) 0
    some (years + months + d - 1)

/-- ddmmyy as days since 1970-01-01 (R205). -/
def parseDate6 (cs : List Byte) : Option Nat :=
  match decVal (cs.take 2), decVal ((cs.drop 2).take 2), decVal ((cs.drop 4).take 2) with
  | some d, some m, some y => if cs.length != 6 then none else dayNumber d m (if 70 ≤ y then 1900 + y else 2000 + y)
  | _, _, _ => none

/-- dd, mm and yyyy in three fields as days since 1970-01-01 (R205). -/
def parseDate3 (d m y : List Byte) : Option Nat :=
  match decVal d, decVal m, decVal y with
  | some dv, some mv, some yv => if d.length != 2 || m.length != 2 || y.length != 4 then none else dayNumber dv mv yv
  | _, _, _ => none

/-! ## Fields of an instruction (R190, R191) -/

/-- B: K sign-extended in the immediate form, Wb in the register form. -/
def operandB (w : Word) (wb : Word) : Word := if bit w 17 then ofInt (sext 17 (fld w 16 0)) else wb

/-- U: K zero-extended in the immediate form, Wb in the register form. -/
def operandU (w : Word) (wb : Word) : Word := if bit w 17 then BitVec.ofNat 32 (fld w 16 0) else wb

/-- S: bits [12:0] in both forms. -/
def operandS (w : Word) : Nat := fld w 12 0

end Sys2Proof.Machine
end

