-- ==== Sys2Proof/Machine/Flags.lean ====
section
/-! DEFINITION. The flags of an engine: the flags word of R171, how a result sets it (R194, R206), and the conditions of BRC (R197). -/

namespace Sys2Proof.Machine

/-- Bits of the flags word (R171). -/
def flagZ : Nat := 0
def flagN : Nat := 1
def flagC : Nat := 2
def flagV : Nat := 3
def flagM : Nat := 4
def flagEot : Nat := 5
def flagBad : Nat := 6
def flagOpen : Nat := 7
def flagRef : Nat := 8

/-- A flag. -/
def flagAt (f : BitVec 16) (i : Nat) : Bool := f.getLsbD i

/-- A flag takes a value; the others keep theirs. -/
def flagSet (f : BitVec 16) (i : Nat) (v : Bool) : BitVec 16 :=
  if v then f ||| BitVec.twoPow 16 i else f &&& ~~~ BitVec.twoPow 16 i

/-- Z follows a value. -/
def flagsZ (f : BitVec 16) (v : Word) : BitVec 16 := flagSet f flagZ (v == 0)

/-- Z and N follow a value written (R194). -/
def flagsZN (f : BitVec 16) (v : Word) : BitVec 16 := flagSet (flagsZ f v) flagN v.msb

/-- The flags of A + B (R206): C is the carry out of bit 31, V signed overflow. -/
def flagsAdd (f : BitVec 16) (a b : Word) : BitVec 16 :=
  flagSet (flagSet (flagsZN f (a + b)) flagC (decide (2 ^ 32 ≤ a.toNat + b.toNat))) flagV
    (sat32 (a.toInt + b.toInt) != a.toInt + b.toInt)

/-- The flags of A − B (R206): C is 1 when A is below B as unsigned numbers, V signed overflow. -/
def flagsSub (f : BitVec 16) (a b : Word) : BitVec 16 :=
  flagSet (flagSet (flagsZN f (a - b)) flagC (decide (a.toNat < b.toNat))) flagV
    (sat32 (a.toInt - b.toInt) != a.toInt - b.toInt)

/-- Z, N and V of a result that was limited or lost bits (R206, R207). -/
def flagsZNV (f : BitVec 16) (v : Word) (past : Bool) : BitVec 16 := flagSet (flagsZN f v) flagV past

/-- Z, N and C of a shift (R206). -/
def flagsShift (f : BitVec 16) (v : Word) (out : Bool) : BitVec 16 := flagSet (flagsZN f v) flagC out

/-- Condition D of BRC (R197). -/
def condition (f : BitVec 16) (d : Nat) : Bool :=
  let z := flagAt f flagZ
  let n := flagAt f flagN
  let v := flagAt f flagV
  match d with
  | 0 => z
  | 1 => !z
  | 2 => n != v
  | 3 => n == v
  | 4 => z || n != v
  | 5 => !z && n == v
  | 6 => flagAt f flagC
  | 7 => !flagAt f flagC
  | 8 => n
  | 9 => !n
  | 10 => flagAt f flagM
  | 11 => !flagAt f flagM
  | 12 => flagAt f flagBad
  | 13 => !flagAt f flagBad
  | 14 => flagAt f flagEot
  | _ => flagAt f flagRef

end Sys2Proof.Machine
end

