-- ==== Sys2Proof/Machine/RegTable.lean ====
section
/-! DEFINITION. The register index of the hub (18_register_index.md and the register tables of every chapter):
the BAR0 offset of each register, and for each the bits that a host write sets (RW), that a written 1 clears (W1C),
that a read clears (RC), and the reset value (R5, R7). -/

namespace Sys2Proof.Machine

/-! ## Offsets, one definition per register (R4, R393) -/

def Reg.vidCtrl : Nat := 0x78010
def Reg.vidStatus : Nat := 0x78014
def Reg.hubId : Nat := 0x00000
def Reg.hubRev : Nat := 0x00004
def Reg.hostCtrl : Nat := 0x00010
def Reg.hostStatus : Nat := 0x00014
def Reg.hostErrors : Nat := 0x00018
def Reg.dmaFaultAddrLo : Nat := 0x0001C
def Reg.dmaFaultAddrHi : Nat := 0x00020
def Reg.cmdBuf (i j : Nat) : Nat := 0x01000 + 0x80 * i + 0x4 * j
def Reg.cmdAccept (i : Nat) : Nat := 0x01040 + 0x80 * i
def Reg.timeCtrl : Nat := 0x04000
def Reg.timeLatch : Nat := 0x04004
def Reg.timeSnapSecHi : Nat := 0x04008
def Reg.timeSnapSecLo : Nat := 0x0400C
def Reg.timeSnapNs : Nat := 0x04010
def Reg.timeSnapFrac : Nat := 0x04014
def Reg.rateSet : Nat := 0x04018
def Reg.rate : Nat := 0x0401C
def Reg.timeStatus : Nat := 0x04020
def Reg.cmpSec (i : Nat) : Nat := 0x04100 + 0x20 * i
def Reg.cmpNs (i : Nat) : Nat := 0x04104 + 0x20 * i
def Reg.cmpPeriod (i : Nat) : Nat := 0x04108 + 0x20 * i
def Reg.cmpCtrl (i : Nat) : Nat := 0x0410C + 0x20 * i
def Reg.cmpStatus : Nat := 0x04180
def Reg.calCtrl : Nat := 0x06000
def Reg.calHits : Nat := 0x06004
def Reg.calStatus (i : Nat) : Nat := 0x06100 + 0x20 * i
def Reg.calCount (i : Nat) : Nat := 0x06104 + 0x20 * i
def Reg.calCommitSec (i : Nat) : Nat := 0x06108 + 0x20 * i
def Reg.calCommitNs (i : Nat) : Nat := 0x0610C + 0x20 * i
def Reg.calCond (i : Nat) : Nat := 0x06110 + 0x20 * i
def Reg.calRefused (i : Nat) : Nat := 0x06114 + 0x20 * i
def Reg.tdcSkew (i : Nat) : Nat := 0x06400 + 0x4 * i
def Reg.tdcAdj (i : Nat) : Nat := 0x06800 + 0x4 * i
def Reg.servoStatus : Nat := 0x04200
def Reg.jumpThr : Nat := 0x04204
def Reg.servoGain : Nat := 0x04208
def Reg.servoInteg : Nat := 0x0420C
def Reg.slewMax : Nat := 0x04210
def Reg.holdCtrl : Nat := 0x04214
def Reg.todCtrl : Nat := 0x04218
def Reg.lastOfsNs : Nat := 0x0421C
def Reg.lastOfsFrac : Nat := 0x04220
def Reg.timeCounts : Nat := 0x04224
def Reg.timeDiscards : Nat := 0x04228
def Reg.pairAsym : Nat := 0x0422C
def Reg.ptpCtrl (i : Nat) : Nat := 0x04400 + 0x80 * i
def Reg.ptpMsg (i : Nat) : Nat := 0x04404 + 0x80 * i
def Reg.ptpClockIdHi (i : Nat) : Nat := 0x04408 + 0x80 * i
def Reg.ptpClockIdLo (i : Nat) : Nat := 0x0440C + 0x80 * i
def Reg.ptpPortId (i : Nat) : Nat := 0x04410 + 0x80 * i
def Reg.ptpParentHi (i : Nat) : Nat := 0x04414 + 0x80 * i
def Reg.ptpParentLo (i : Nat) : Nat := 0x04418 + 0x80 * i
def Reg.ptpParentPort (i : Nat) : Nat := 0x0441C + 0x80 * i
def Reg.ptpLat (i : Nat) : Nat := 0x04420 + 0x80 * i
def Reg.ptpAsym (i : Nat) : Nat := 0x04424 + 0x80 * i
def Reg.ptpMeanDelay (i : Nat) : Nat := 0x04428 + 0x80 * i
def Reg.ptpIpv4 (i : Nat) : Nat := 0x0442C + 0x80 * i
def Reg.ptpCounts (i : Nat) : Nat := 0x04430 + 0x80 * i
def Reg.eiCtrl (i : Nat) : Nat := 0x08000 + 0x20 * i
def Reg.eiFilt (i : Nat) : Nat := 0x08004 + 0x20 * i
def Reg.eiHold (i : Nat) : Nat := 0x08008 + 0x20 * i
def Reg.eiStatus (i : Nat) : Nat := 0x0800C + 0x20 * i
def Reg.eiCounts (i : Nat) : Nat := 0x08010 + 0x20 * i
def Reg.eiLost (i : Nat) : Nat := 0x08014 + 0x20 * i
def Reg.eoCtrl (i : Nat) : Nat := 0x08800 + 0x40 * i
def Reg.eoWidth (i : Nat) : Nat := 0x08804 + 0x40 * i
def Reg.eoNextSec (i : Nat) : Nat := 0x08808 + 0x40 * i
def Reg.eoNextNs (i : Nat) : Nat := 0x0880C + 0x40 * i
def Reg.eoNextFrac (i : Nat) : Nat := 0x08810 + 0x40 * i
def Reg.eoPeriod (i : Nat) : Nat := 0x08814 + 0x40 * i
def Reg.eoPulseSec (i : Nat) : Nat := 0x08818 + 0x40 * i
def Reg.eoPulseNs (i : Nat) : Nat := 0x0881C + 0x40 * i
def Reg.eoPulseFrac (i : Nat) : Nat := 0x08820 + 0x40 * i
def Reg.eoStatus (i : Nat) : Nat := 0x08824 + 0x40 * i
def Reg.eoCounts (i : Nat) : Nat := 0x08828 + 0x40 * i
def Reg.eoAdj (i : Nat) : Nat := 0x08830 + 0x40 * i
def Reg.spCtrl (i : Nat) : Nat := 0x10000 + 0x400 * i
def Reg.spFormat (i : Nat) : Nat := 0x10004 + 0x400 * i
def Reg.spDiv (i : Nat) : Nat := 0x10008 + 0x400 * i
def Reg.spFramer (i : Nat) : Nat := 0x1000C + 0x400 * i
def Reg.spHold (i : Nat) : Nat := 0x10010 + 0x400 * i
def Reg.spDe (i : Nat) : Nat := 0x10014 + 0x400 * i
def Reg.spLeash (i : Nat) : Nat := 0x10018 + 0x400 * i
def Reg.spLeashTimeout (i : Nat) : Nat := 0x1001C + 0x400 * i
def Reg.spWatchPatLo (i : Nat) : Nat := 0x10020 + 0x400 * i
def Reg.spWatchPatHi (i : Nat) : Nat := 0x10024 + 0x400 * i
def Reg.spWatchCfg (i : Nat) : Nat := 0x10028 + 0x400 * i
def Reg.spTxAdj (i : Nat) : Nat := 0x1002C + 0x400 * i
def Reg.spStatus (i : Nat) : Nat := 0x10040 + 0x400 * i
def Reg.spData (i : Nat) : Nat := 0x10044 + 0x400 * i
def Reg.spRxCount (i : Nat) : Nat := 0x10048 + 0x400 * i
def Reg.spRxErr (i : Nat) : Nat := 0x1004C + 0x400 * i
def Reg.spRxDiscard (i : Nat) : Nat := 0x10050 + 0x400 * i
def Reg.spTxCount (i : Nat) : Nat := 0x10054 + 0x400 * i
def Reg.spTxErr (i : Nat) : Nat := 0x10058 + 0x400 * i
def Reg.spTxStampSec (i : Nat) : Nat := 0x1005C + 0x400 * i
def Reg.spTxStampNs (i : Nat) : Nat := 0x10060 + 0x400 * i
def Reg.talkerCtrl : Nat := 0x40000
def Reg.talkerDefSent (i : Nat) : Nat := 0x40010 + 0x10 * i
def Reg.talkerDefPly (i : Nat) : Nat := 0x40014 + 0x10 * i
def Reg.talkerDefRes (i : Nat) : Nat := 0x40018 + 0x10 * i
def Reg.talkerDefBudget (i : Nat) : Nat := 0x4001C + 0x10 * i
def Reg.kennelFree : Nat := 0x40100
def Reg.kennelLow : Nat := 0x40104
def Reg.inflight : Nat := 0x40108
def Reg.nextSeq : Nat := 0x4010C
def Reg.admitRefuseA : Nat := 0x40110
def Reg.admitRefuseB : Nat := 0x40114
def Reg.admitRefuseC : Nat := 0x40118
def Reg.admitRefuseD : Nat := 0x4011C
def Reg.ttCount : Nat := 0x40120
def Reg.ttEvents : Nat := 0x40124
def Reg.ttAged : Nat := 0x40128
def Reg.herderStatus : Nat := 0x40130
def Reg.herderDispatch : Nat := 0x40134
def Reg.packBank : Nat := 0x40200
def Reg.bankSize (i : Nat) : Nat := 0x40210 + 0x10 * i
def Reg.bankSrc (i : Nat) : Nat := 0x40214 + 0x10 * i
def Reg.bankSrcLo (i : Nat) : Nat := 0x40218 + 0x10 * i
def Reg.bankSrcHi (i : Nat) : Nat := 0x4021C + 0x10 * i
def Reg.engineOnline : Nat := 0x40240
def Reg.engineBusy : Nat := 0x40244
def Reg.engineWedged : Nat := 0x40248
def Reg.groupState : Nat := 0x4024C
def Reg.packHound : Nat := 0x40250
def Reg.packCounts : Nat := 0x40254
def Reg.packAbandon : Nat := 0x40258
def Reg.packPliesLo : Nat := 0x40260
def Reg.packPliesHi : Nat := 0x40264
def Reg.engineStat (i : Nat) : Nat := 0x40400 + 0x10 * i
def Reg.engineSeq (i : Nat) : Nat := 0x40404 + 0x10 * i
def Reg.enginePc (i : Nat) : Nat := 0x40408 + 0x10 * i
def Reg.enginePlies (i : Nat) : Nat := 0x4040C + 0x10 * i
def Reg.progCount (i : Nat) : Nat := 0x40800 + 0x4 * i
def Reg.progEvtLost : Nat := 0x40900
def Reg.lqPoolFree : Nat := 0x50000
def Reg.lqPoolLow : Nat := 0x50004
def Reg.copierCount : Nat := 0x50008
def Reg.drainClock : Nat := 0x5000C
def Reg.slotCounts : Nat := 0x50010
def Reg.lstEnableSet (i : Nat) : Nat := 0x50080 + 0x4 * i
def Reg.lstEnableClr (i : Nat) : Nat := 0x50100 + 0x4 * i
def Reg.lstEnabled (i : Nat) : Nat := 0x50180 + 0x4 * i
def Reg.lqQuota (i : Nat) : Nat := 0x51000 + 0x20 * i
def Reg.lqUse (i : Nat) : Nat := 0x51004 + 0x20 * i
def Reg.lqSent (i : Nat) : Nat := 0x51008 + 0x20 * i
def Reg.lqLate (i : Nat) : Nat := 0x5100C + 0x20 * i
def Reg.lqRefused (i : Nat) : Nat := 0x51010 + 0x20 * i
def Reg.lqFlushed (i : Nat) : Nat := 0x51014 + 0x20 * i
def Reg.lqDrain (i : Nat) : Nat := 0x51018 + 0x20 * i
def Reg.lqEchoLost (i : Nat) : Nat := 0x5101C + 0x20 * i
def Reg.cnCtrl (i : Nat) : Nat := 0x30000 + 0x1000 * i
def Reg.cnNbt (i : Nat) : Nat := 0x30004 + 0x1000 * i
def Reg.cnDbt (i : Nat) : Nat := 0x30008 + 0x1000 * i
def Reg.cnFpCfg (i : Nat) : Nat := 0x3000C + 0x1000 * i
def Reg.cnAdj (i : Nat) : Nat := 0x30010 + 0x1000 * i
def Reg.cnRecover (i : Nat) : Nat := 0x30014 + 0x1000 * i
def Reg.cnStatus (i : Nat) : Nat := 0x30040 + 0x1000 * i
def Reg.cnRxCounts (i : Nat) : Nat := 0x30044 + 0x1000 * i
def Reg.cnRxLost (i : Nat) : Nat := 0x30048 + 0x1000 * i
def Reg.cnRxFiltered (i : Nat) : Nat := 0x3004C + 0x1000 * i
def Reg.cnFpCounts (i : Nat) : Nat := 0x30050 + 0x1000 * i
def Reg.cnTxCounts (i : Nat) : Nat := 0x30054 + 0x1000 * i
def Reg.cnErrCountsA (i : Nat) : Nat := 0x30058 + 0x1000 * i
def Reg.cnErrCountsB (i : Nat) : Nat := 0x3005C + 0x1000 * i
def Reg.cnFltId (i j : Nat) : Nat := 0x30100 + 0x1000 * i + 0x10 * j
def Reg.cnFltMask (i j : Nat) : Nat := 0x30104 + 0x1000 * i + 0x10 * j
def Reg.cnFltCfg (i j : Nat) : Nat := 0x30108 + 0x1000 * i + 0x10 * j
def Reg.cnFpPgn (i j : Nat) : Nat := 0x30400 + 0x1000 * i + 0x4 * j
def Reg.cnClaimed (i j : Nat) : Nat := 0x307E0 + 0x1000 * i + 0x4 * j
def Reg.cnNameLo (i j : Nat) : Nat := 0x30800 + 0x1000 * i + 0x8 * j
def Reg.cnNameHi (i j : Nat) : Nat := 0x30804 + 0x1000 * i + 0x8 * j
def Reg.ethCtrl (i : Nat) : Nat := 0x38000 + 0x2000 * i
def Reg.ethRxCfg (i : Nat) : Nat := 0x38004 + 0x2000 * i
def Reg.ethTxCfg (i : Nat) : Nat := 0x38008 + 0x2000 * i
def Reg.ethUdpSrc (i : Nat) : Nat := 0x3800C + 0x2000 * i
def Reg.ethDupCfg (i : Nat) : Nat := 0x38010 + 0x2000 * i
def Reg.ethMacHi (i : Nat) : Nat := 0x38020 + 0x2000 * i
def Reg.ethMacLo (i : Nat) : Nat := 0x38024 + 0x2000 * i
def Reg.ethIpv4 (i : Nat) : Nat := 0x38028 + 0x2000 * i
def Reg.ethStatus (i : Nat) : Nat := 0x38040 + 0x2000 * i
def Reg.ethRxFrames (i : Nat) : Nat := 0x38044 + 0x2000 * i
def Reg.ethRxErr (i : Nat) : Nat := 0x38048 + 0x2000 * i
def Reg.ethRxDrop (i : Nat) : Nat := 0x3804C + 0x2000 * i
def Reg.eth450Counts (i : Nat) : Nat := 0x38050 + 0x2000 * i
def Reg.eth450Err (i : Nat) : Nat := 0x38054 + 0x2000 * i
def Reg.ethTxFrames (i : Nat) : Nat := 0x38058 + 0x2000 * i
def Reg.ethTxErr (i : Nat) : Nat := 0x3805C + 0x2000 * i
def Reg.ethGrpAddr (i j : Nat) : Nat := 0x38400 + 0x2000 * i + 0x10 * j
def Reg.ethGrpPort (i j : Nat) : Nat := 0x38404 + 0x2000 * i + 0x10 * j
def Reg.ethGrpName (i j : Nat) : Nat := 0x38408 + 0x2000 * i + 0x10 * j
def Reg.ethDupStatus : Nat := 0x39E00
def Reg.ethMdioCmd : Nat := 0x39F00
def Reg.ethMdioData : Nat := 0x39F04
def Reg.cbCtrl : Nat := 0x60000
def Reg.cbStatus : Nat := 0x60004
def Reg.cbWseq : Nat := 0x60008
def Reg.cbBadAccess : Nat := 0x6000C
def Reg.cbHold : Nat := 0x60010
def Reg.cbRevCounts : Nat := 0x60014
def Reg.cbDropped : Nat := 0x60018
def Reg.cbIrqCtrl : Nat := 0x60020
def Reg.cbIrqAck : Nat := 0x60024
def Reg.cbFwCtrl (i : Nat) : Nat := 0x60100 + 0x20 * i
def Reg.cbFwBar (i : Nat) : Nat := 0x60104 + 0x20 * i
def Reg.cbFwFar (i : Nat) : Nat := 0x60108 + 0x20 * i
def Reg.cbFwPrefDiscard (i : Nat) : Nat := 0x6010C + 0x20 * i
def Reg.cbFwPrefAddr (i : Nat) : Nat := 0x60110 + 0x20 * i
def Reg.cbFwFaults (i : Nat) : Nat := 0x60114 + 0x20 * i
def Reg.cbHwCtrl (i : Nat) : Nat := 0x60200 + 0x10 * i
def Reg.cbHwHostLo (i : Nat) : Nat := 0x60204 + 0x10 * i
def Reg.cbHwHostHi (i : Nat) : Nat := 0x60208 + 0x10 * i
def Reg.cbLog (i j : Nat) : Nat := 0x60800 + 0x20 * i + 0x4 * j
def Reg.cbLogStatus : Nat := 0x60A00
def Reg.cbLogClear : Nat := 0x60A04
def Reg.pnCtrl (i : Nat) : Nat := 0x68000 + 0x1000 * i
def Reg.pnLedgerCfg (i : Nat) : Nat := 0x68004 + 0x1000 * i
def Reg.pnStatus (i : Nat) : Nat := 0x68008 + 0x1000 * i
def Reg.pnRun (i : Nat) : Nat := 0x6800C + 0x1000 * i
def Reg.pnPend (i : Nat) : Nat := 0x68010 + 0x1000 * i
def Reg.pnCounts (i : Nat) : Nat := 0x68014 + 0x1000 * i
def Reg.pnCrc (i : Nat) : Nat := 0x68018 + 0x1000 * i
def Reg.pnRegion (i j : Nat) : Nat := 0x68080 + 0x1000 * i + 0x4 * j
def Reg.pnBindA (i j : Nat) : Nat := 0x68100 + 0x1000 * i + 0x8 * j
def Reg.pnBindB (i j : Nat) : Nat := 0x68104 + 0x1000 * i + 0x8 * j
def Reg.pnWaveLen (i j : Nat) : Nat := 0x68400 + 0x1000 * i + 0x14 * j
def Reg.pnWaveCode (i j k : Nat) : Nat := 0x68404 + 0x1000 * i + 0x14 * j + 0x4 * k
def Reg.pnImage (i j : Nat) : Nat := 0x68600 + 0x1000 * i + 0x4 * j
def Reg.pnLedger (i j : Nat) : Nat := 0x68800 + 0x1000 * i + 0x4 * j
def Reg.detCount (i : Nat) : Nat := 0x70000 + 0x4 * i
def Reg.detEvtMask (i : Nat) : Nat := 0x70200 + 0x4 * i
def Reg.injStatus : Nat := 0x70300
def Reg.injArm (i j : Nat) : Nat := 0x70400 + 0x10 * i + 0x4 * j
def Reg.houndCtrl : Nat := 0x70600
def Reg.wedgeStatus : Nat := 0x70604
def Reg.wedgeLog (i j : Nat) : Nat := 0x70700 + 0x10 * i + 0x4 * j
def Reg.retrCountA : Nat := 0x70800
def Reg.retrCountB : Nat := 0x70804
def Reg.retrCountC : Nat := 0x70808
def Reg.monTemp : Nat := 0x70900
def Reg.monVcore : Nat := 0x70904
def Reg.monRegion (i : Nat) : Nat := 0x70908 + 0x4 * i
def Reg.resetCause : Nat := 0x78000
def Reg.bootStatus : Nat := 0x78004
def Reg.bootTime : Nat := 0x78008
def Reg.pwrWake : Nat := 0x7800C
def Reg.sleepStampSec : Nat := 0x78020
def Reg.sleepStampNs : Nat := 0x78024
def Reg.slept : Nat := 0x78028
def Reg.watchWake : Nat := 0x7802C
def Reg.pairCtrl : Nat := 0x78040
def Reg.pairStatus : Nat := 0x78044
def Reg.pairCounts : Nat := 0x78048
def Reg.pairHome (i : Nat) : Nat := 0x78100 + 0x4 * i
def Reg.pairTake (i : Nat) : Nat := 0x78120 + 0x4 * i
def Reg.pairOwned (i : Nat) : Nat := 0x78140 + 0x4 * i
def Reg.compBaseLo : Nat := 0x01400
def Reg.compBaseHi : Nat := 0x01404
def Reg.compCtrl : Nat := 0x01408
def Reg.compHead : Nat := 0x0140C
def Reg.compTail : Nat := 0x01410
def Reg.compLost : Nat := 0x01414
def Reg.hrBaseLo (i : Nat) : Nat := 0x01800 + 0x20 * i
def Reg.hrBaseHi (i : Nat) : Nat := 0x01804 + 0x20 * i
def Reg.hrCtrl (i : Nat) : Nat := 0x01808 + 0x20 * i
def Reg.hrHead (i : Nat) : Nat := 0x0180C + 0x20 * i
def Reg.hrTail (i : Nat) : Nat := 0x01810 + 0x20 * i
def Reg.hrLost (i : Nat) : Nat := 0x01814 + 0x20 * i
def Reg.evtBaseLo : Nat := 0x02C00
def Reg.evtBaseHi : Nat := 0x02C04
def Reg.evtCtrl : Nat := 0x02C08
def Reg.evtHead : Nat := 0x02C0C
def Reg.evtTail : Nat := 0x02C10
def Reg.evtLost : Nat := 0x02C14
def Reg.msixTable (i j : Nat) : Nat := 0x02000 + 0x10 * i + 0x4 * j
def Reg.msixPba : Nat := 0x02800

/-- One row of the index: base offset, the (stride, count) of each array dimension, outermost first, the RW, W1C and
RC masks of R5, and the value after a full reset. -/
structure RegSpec where
  base : Nat
  dims : List (Nat × Nat)
  rw : BitVec 32
  w1c : BitVec 32
  rc : BitVec 32
  reset : BitVec 32
  deriving DecidableEq, Repr

/-- The register index, part 1. -/
def regTable1 : List RegSpec := [
  ⟨0x78010, [], 0x7F7FFFF1, 0x0, 0x0, 0x3C28E0E0⟩,
  ⟨0x78014, [], 0x0, 0x0, 0x0, 0xE⟩,
  ⟨0x00000, [], 0x0, 0x0, 0x0, 0x81285356⟩,
  ⟨0x00004, [], 0x0, 0x0, 0x0, 0x1⟩,
  ⟨0x00010, [], 0x1, 0x0, 0x0, 0x0⟩,
  ⟨0x00014, [], 0x0, 0x0, 0x0, 0x2⟩,
  ⟨0x00018, [], 0x0, 0x0, 0xFFFFFFFF, 0x0⟩,
  ⟨0x0001C, [], 0x0, 0x0, 0x0, 0x0⟩,
  ⟨0x00020, [], 0x0, 0x0, 0x0, 0x0⟩,
  ⟨0x01000, [(0x80, 8), (0x4, 16)], 0x0, 0x0, 0x0, 0x0⟩,
  ⟨0x01040, [(0x80, 8)], 0x0, 0x0, 0x0, 0x0⟩,
  ⟨0x04000, [], 0x1, 0x0, 0x0, 0x0⟩,
  ⟨0x04004, [], 0x0, 0x0, 0x0, 0x0⟩,
  ⟨0x04008, [], 0x0, 0x0, 0x0, 0x0⟩,
  ⟨0x0400C, [], 0x0, 0x0, 0x0, 0x0⟩,
  ⟨0x04010, [], 0x0, 0x0, 0x0, 0x0⟩,
  ⟨0x04014, [], 0x0, 0x0, 0x0, 0x0⟩,
  ⟨0x04018, [], 0xFFFFFFFF, 0x0, 0x0, 0x0⟩,
  ⟨0x0401C, [], 0x0, 0x0, 0x0, 0x0⟩,
  ⟨0x04020, [], 0x0, 0x0, 0x0, 0x0⟩,
  ⟨0x04100, [(0x20, 4)], 0xFFFFFFFF, 0x0, 0x0, 0x0⟩,
  ⟨0x04104, [(0x20, 4)], 0x3FFFFFFF, 0x0, 0x0, 0x0⟩,
  ⟨0x04108, [(0x20, 4)], 0xFFFFFFFF, 0x0, 0x0, 0x0⟩,
  ⟨0x0410C, [(0x20, 4)], 0x1, 0x0, 0xFFFF0000, 0x0⟩,
  ⟨0x04180, [], 0x0, 0xFF, 0x0, 0x0⟩,
  ⟨0x06000, [], 0xFFFFFFFF, 0x0, 0x0, 0xA0807D0⟩,
  ⟨0x06004, [], 0x1FFFFF, 0x0, 0x0, 0x10000⟩,
  ⟨0x06100, [(0x20, 8)], 0x0, 0x0, 0x0, 0x0⟩,
  ⟨0x06104, [(0x20, 8)], 0x0, 0x0, 0x0, 0x0⟩,
  ⟨0x06108, [(0x20, 8)], 0x0, 0x0, 0x0, 0x0⟩]

/-- The register index, part 2. -/
def regTable2 : List RegSpec := [
  ⟨0x0610C, [(0x20, 8)], 0x0, 0x0, 0x0, 0x0⟩,
  ⟨0x06110, [(0x20, 8)], 0x0, 0x0, 0x0, 0x0⟩,
  ⟨0x06114, [(0x20, 8)], 0x0, 0x0, 0x0, 0x0⟩,
  ⟨0x06400, [(0x4, 164)], 0x0, 0x0, 0x0, 0x0⟩,
  ⟨0x06800, [(0x4, 164)], 0x80FFFFFF, 0x0, 0x0, 0x0⟩,
  ⟨0x04200, [], 0x0, 0x0, 0x0, 0x30⟩,
  ⟨0x04204, [], 0x0, 0x0, 0x0, 0x3E8⟩,
  ⟨0x04208, [], 0x1F1F, 0x0, 0x0, 0x401⟩,
  ⟨0x0420C, [], 0x0, 0x0, 0x0, 0x0⟩,
  ⟨0x04210, [], 0x7FFFFFFF, 0x0, 0x0, 0x10C6F8⟩,
  ⟨0x04214, [], 0xFFFF, 0x0, 0x0, 0xBB8⟩,
  ⟨0x04218, [], 0x83FFFFFF, 0x0, 0x0, 0x3E80025⟩,
  ⟨0x0421C, [], 0x0, 0x0, 0x0, 0x0⟩,
  ⟨0x04220, [], 0x0, 0x0, 0x0, 0x0⟩,
  ⟨0x04224, [], 0x0, 0x0, 0xFFFFFFFF, 0x0⟩,
  ⟨0x04228, [], 0x0, 0x0, 0xFFFFFFFF, 0x0⟩,
  ⟨0x0422C, [], 0xFFFFFFFF, 0x0, 0x0, 0x0⟩,
  ⟨0x04400, [(0x80, 4)], 0xFFFFFFFF, 0x0, 0x0, 0x1010000⟩,
  ⟨0x04404, [(0x80, 4)], 0xFFFFFFFF, 0x0, 0x0, 0xD00⟩,
  ⟨0x04408, [(0x80, 4)], 0xFFFFFFFF, 0x0, 0x0, 0x0⟩,
  ⟨0x0440C, [(0x80, 4)], 0xFFFFFFFF, 0x0, 0x0, 0x0⟩,
  ⟨0x04410, [(0x80, 4)], 0x70FFFFF, 0x0, 0x0, 0x3000001⟩,
  ⟨0x04414, [(0x80, 4)], 0xFFFFFFFF, 0x0, 0x0, 0x0⟩,
  ⟨0x04418, [(0x80, 4)], 0xFFFFFFFF, 0x0, 0x0, 0x0⟩,
  ⟨0x0441C, [(0x80, 4)], 0xFFFF, 0x0, 0x0, 0x0⟩,
  ⟨0x04420, [(0x80, 4)], 0xFFFFFFFF, 0x0, 0x0, 0x0⟩,
  ⟨0x04424, [(0x80, 4)], 0xFFFFFFFF, 0x0, 0x0, 0x0⟩,
  ⟨0x04428, [(0x80, 4)], 0x0, 0x0, 0x0, 0x0⟩,
  ⟨0x0442C, [(0x80, 4)], 0xFFFFFFFF, 0x0, 0x0, 0x0⟩,
  ⟨0x04430, [(0x80, 4)], 0x0, 0x0, 0xFFFFFFFF, 0x0⟩]

/-- The register index, part 3. -/
def regTable3 : List RegSpec := [
  ⟨0x08000, [(0x20, 32)], 0x0, 0x0, 0x0, 0x0⟩,
  ⟨0x08004, [(0x20, 32)], 0x0, 0x0, 0x0, 0x0⟩,
  ⟨0x08008, [(0x20, 32)], 0x0, 0x0, 0x0, 0x3E8⟩,
  ⟨0x0800C, [(0x20, 32)], 0x0, 0x0, 0x0, 0x0⟩,
  ⟨0x08010, [(0x20, 32)], 0x0, 0x0, 0xFFFFFFFF, 0x0⟩,
  ⟨0x08014, [(0x20, 32)], 0x0, 0x0, 0xFFFFFFFF, 0x0⟩,
  ⟨0x08800, [(0x40, 8)], 0x0, 0x0, 0x0, 0x0⟩,
  ⟨0x08804, [(0x40, 8)], 0x0, 0x0, 0x0, 0x8⟩,
  ⟨0x08808, [(0x40, 8)], 0x0, 0x0, 0x0, 0x0⟩,
  ⟨0x0880C, [(0x40, 8)], 0x0, 0x0, 0x0, 0x0⟩,
  ⟨0x08810, [(0x40, 8)], 0x0, 0x0, 0x0, 0x0⟩,
  ⟨0x08814, [(0x40, 8)], 0x0, 0x0, 0x0, 0x0⟩,
  ⟨0x08818, [(0x40, 8)], 0x0, 0x0, 0x0, 0x0⟩,
  ⟨0x0881C, [(0x40, 8)], 0x0, 0x0, 0x0, 0x0⟩,
  ⟨0x08820, [(0x40, 8)], 0x0, 0x0, 0x0, 0x0⟩,
  ⟨0x08824, [(0x40, 8)], 0x0, 0x0, 0x0, 0x0⟩,
  ⟨0x08828, [(0x40, 8)], 0x0, 0x0, 0xFFFFFFFF, 0x0⟩,
  ⟨0x08830, [(0x40, 8)], 0xFFFFFF, 0x0, 0x0, 0x0⟩,
  ⟨0x10000, [(0x400, 128)], 0x0, 0x0, 0x0, 0x400⟩,
  ⟨0x10004, [(0x400, 128)], 0x0, 0x0, 0x0, 0x3⟩,
  ⟨0x10008, [(0x400, 128)], 0x0, 0x0, 0x0, 0x6000⟩,
  ⟨0x1000C, [(0x400, 128)], 0x0, 0x0, 0x0, 0x10⟩,
  ⟨0x10010, [(0x400, 128)], 0x0, 0x0, 0x0, 0x3E8⟩,
  ⟨0x10014, [(0x400, 128)], 0x0, 0x0, 0x0, 0x10001⟩,
  ⟨0x10018, [(0x400, 128)], 0x0, 0x0, 0x0, 0x4B1900⟩,
  ⟨0x1001C, [(0x400, 128)], 0x0, 0x0, 0x0, 0x0⟩,
  ⟨0x10020, [(0x400, 128)], 0x0, 0x0, 0x0, 0x0⟩,
  ⟨0x10024, [(0x400, 128)], 0x0, 0x0, 0x0, 0x0⟩,
  ⟨0x10028, [(0x400, 128)], 0x0, 0x0, 0x0, 0x100⟩,
  ⟨0x1002C, [(0x400, 128)], 0xFFFFFF, 0x0, 0x0, 0x0⟩]

/-- The register index, part 4. -/
def regTable4 : List RegSpec := [
  ⟨0x10040, [(0x400, 128)], 0x0, 0x0, 0x0, 0x0⟩,
  ⟨0x10044, [(0x400, 128)], 0x0, 0x0, 0x7FF, 0x0⟩,
  ⟨0x10048, [(0x400, 128)], 0x0, 0x0, 0xFFFFFFFF, 0x0⟩,
  ⟨0x1004C, [(0x400, 128)], 0x0, 0x0, 0xFFFFFFFF, 0x0⟩,
  ⟨0x10050, [(0x400, 128)], 0x0, 0x0, 0xFFFFFFFF, 0x0⟩,
  ⟨0x10054, [(0x400, 128)], 0x0, 0x0, 0xFFFFFFFF, 0x0⟩,
  ⟨0x10058, [(0x400, 128)], 0x0, 0x0, 0xFFFFFFFF, 0x0⟩,
  ⟨0x1005C, [(0x400, 128)], 0x0, 0x0, 0x0, 0x0⟩,
  ⟨0x10060, [(0x400, 128)], 0x0, 0x0, 0x0, 0x0⟩,
  ⟨0x40000, [], 0xFFFF000F, 0x0, 0x0, 0x3C000F⟩,
  ⟨0x40010, [(0x10, 4)], 0xFFFFFFFF, 0x0, 0x0, 0x0⟩,
  ⟨0x40014, [(0x10, 4)], 0xFFFFFFFF, 0x0, 0x0, 0x0⟩,
  ⟨0x40018, [(0x10, 4)], 0x8001FFFF, 0x0, 0x0, 0x80⟩,
  ⟨0x4001C, [(0x10, 4)], 0xFFFF, 0x0, 0x0, 0x0⟩,
  ⟨0x40100, [], 0x0, 0x0, 0x0, 0x1E534⟩,
  ⟨0x40104, [], 0x0, 0x0, 0x1FFFF, 0x1E534⟩,
  ⟨0x40108, [], 0x0, 0x0, 0xFFF0000, 0x0⟩,
  ⟨0x4010C, [], 0x0, 0x0, 0x0, 0x0⟩,
  ⟨0x40110, [], 0x0, 0x0, 0xFFFFFFFF, 0x0⟩,
  ⟨0x40114, [], 0x0, 0x0, 0xFFFFFFFF, 0x0⟩,
  ⟨0x40118, [], 0x0, 0x0, 0xFFFFFFFF, 0x0⟩,
  ⟨0x4011C, [], 0x0, 0x0, 0xFFFF, 0x0⟩,
  ⟨0x40120, [], 0x0, 0x0, 0x0, 0x0⟩,
  ⟨0x40124, [], 0x0, 0x0, 0xFFFFFFFF, 0x0⟩,
  ⟨0x40128, [], 0x0, 0x0, 0xFFFF, 0x0⟩,
  ⟨0x40130, [], 0x0, 0x0, 0x0, 0x0⟩,
  ⟨0x40134, [], 0x0, 0x0, 0xFFFFFFFF, 0x0⟩,
  ⟨0x40200, [], 0x0, 0x0, 0x0, 0x0⟩,
  ⟨0x40210, [(0x10, 2)], 0x0, 0x0, 0x0, 0x0⟩,
  ⟨0x40214, [(0x10, 2)], 0x0, 0x0, 0x0, 0x0⟩]

/-- The register index, part 5. -/
def regTable5 : List RegSpec := [
  ⟨0x40218, [(0x10, 2)], 0x0, 0x0, 0x0, 0x0⟩,
  ⟨0x4021C, [(0x10, 2)], 0x0, 0x0, 0x0, 0x0⟩,
  ⟨0x40240, [], 0x0, 0x0, 0x0, 0xFFFFFFFF⟩,
  ⟨0x40244, [], 0x0, 0x0, 0x0, 0x0⟩,
  ⟨0x40248, [], 0x0, 0x0, 0x0, 0x0⟩,
  ⟨0x4024C, [], 0x0, 0x0, 0x0, 0xAAAA⟩,
  ⟨0x40250, [], 0xFFFF, 0x0, 0x0, 0x3E8⟩,
  ⟨0x40254, [], 0x0, 0x0, 0xFFFFFFFF, 0x0⟩,
  ⟨0x40258, [], 0x0, 0x0, 0xFFFF, 0x0⟩,
  ⟨0x40260, [], 0x0, 0x0, 0x0, 0x0⟩,
  ⟨0x40264, [], 0x0, 0x0, 0x0, 0x0⟩,
  ⟨0x40400, [(0x10, 32)], 0x0, 0x0, 0x0, 0x0⟩,
  ⟨0x40404, [(0x10, 32)], 0x0, 0x0, 0x0, 0x0⟩,
  ⟨0x40408, [(0x10, 32)], 0x0, 0x0, 0x0, 0x0⟩,
  ⟨0x4040C, [(0x10, 32)], 0x0, 0x0, 0x0, 0x0⟩,
  ⟨0x40800, [(0x4, 64)], 0x0, 0x0, 0xFFFFFFFF, 0x0⟩,
  ⟨0x40900, [], 0x0, 0x0, 0xFFFF, 0x0⟩,
  ⟨0x50000, [], 0x0, 0x0, 0x0, 0x6000⟩,
  ⟨0x50004, [], 0x0, 0x0, 0x7FFF, 0x6000⟩,
  ⟨0x50008, [], 0x0, 0x0, 0xFFFFFFFF, 0x0⟩,
  ⟨0x5000C, [], 0x0, 0x0, 0x0, 0x0⟩,
  ⟨0x50010, [], 0x0, 0x0, 0xFFFFFFFF, 0x0⟩,
  ⟨0x50080, [(0x4, 32)], 0x0, 0x0, 0x0, 0x0⟩,
  ⟨0x50100, [(0x4, 32)], 0x0, 0x0, 0x0, 0x0⟩,
  ⟨0x50180, [(0x4, 32)], 0x0, 0x0, 0x0, 0xFFFFFFFF⟩,
  ⟨0x51000, [(0x20, 1024)], 0x0, 0x0, 0x0, 0x40⟩,
  ⟨0x51004, [(0x20, 1024)], 0x0, 0x0, 0x0, 0x0⟩,
  ⟨0x51008, [(0x20, 1024)], 0x0, 0x0, 0xFFFFFFFF, 0x0⟩,
  ⟨0x5100C, [(0x20, 1024)], 0x0, 0x0, 0xFFFFFFFF, 0x0⟩,
  ⟨0x51010, [(0x20, 1024)], 0x0, 0x0, 0xFFFFFFFF, 0x0⟩]

/-- The register index, part 6. -/
def regTable6 : List RegSpec := [
  ⟨0x51014, [(0x20, 1024)], 0x0, 0x0, 0xFFFFFFFF, 0x0⟩,
  ⟨0x51018, [(0x20, 1024)], 0x0, 0x0, 0xFFFFFFFF, 0x0⟩,
  ⟨0x5101C, [(0x20, 1024)], 0x0, 0x0, 0xFFFF, 0x0⟩,
  ⟨0x30000, [(0x1000, 8)], 0x0, 0x0, 0x0, 0x800000⟩,
  ⟨0x30004, [(0x1000, 8)], 0x0, 0x0, 0x0, 0x1114504⟩,
  ⟨0x30008, [(0x1000, 8)], 0x0, 0x0, 0x0, 0x9D0A4⟩,
  ⟨0x3000C, [(0x1000, 8)], 0x0, 0x0, 0x0, 0x2EE⟩,
  ⟨0x30010, [(0x1000, 8)], 0xFFFFFF, 0x0, 0x0, 0x0⟩,
  ⟨0x30014, [(0x1000, 8)], 0x0, 0x0, 0x0, 0x0⟩,
  ⟨0x30040, [(0x1000, 8)], 0x0, 0x0, 0x0, 0xC000⟩,
  ⟨0x30044, [(0x1000, 8)], 0x0, 0x0, 0xFFFFFFFF, 0x0⟩,
  ⟨0x30048, [(0x1000, 8)], 0x0, 0x0, 0xFFFFFF00, 0x0⟩,
  ⟨0x3004C, [(0x1000, 8)], 0x0, 0x0, 0xFFFFFFFF, 0x0⟩,
  ⟨0x30050, [(0x1000, 8)], 0x0, 0x0, 0xFFFFFFFF, 0x0⟩,
  ⟨0x30054, [(0x1000, 8)], 0x0, 0x0, 0xFFFFFFFF, 0x0⟩,
  ⟨0x30058, [(0x1000, 8)], 0x0, 0x0, 0xFFFFFFFF, 0x0⟩,
  ⟨0x3005C, [(0x1000, 8)], 0x0, 0x0, 0xFFFFFFFF, 0x0⟩,
  ⟨0x30100, [(0x1000, 8), (0x10, 32)], 0x3FFFFFFF, 0x0, 0x0, 0x0⟩,
  ⟨0x30104, [(0x1000, 8), (0x10, 32)], 0x3FFFFFFF, 0x0, 0x0, 0x0⟩,
  ⟨0x30108, [(0x1000, 8), (0x10, 32)], 0xF8000000, 0x0, 0x0, 0x0⟩,
  ⟨0x30400, [(0x1000, 8), (0x4, 64)], 0x8003FFFF, 0x0, 0x0, 0x0⟩,
  ⟨0x307E0, [(0x1000, 8), (0x4, 8)], 0x0, 0x0, 0x0, 0x0⟩,
  ⟨0x30800, [(0x1000, 8), (0x8, 254)], 0x0, 0x0, 0x0, 0x0⟩,
  ⟨0x30804, [(0x1000, 8), (0x8, 254)], 0x0, 0x0, 0x0, 0x0⟩,
  ⟨0x38000, [(0x2000, 4)], 0x0, 0x0, 0x0, 0x20000000⟩,
  ⟨0x38004, [(0x2000, 4)], 0x0, 0x0, 0x0, 0x80000000⟩,
  ⟨0x38008, [(0x2000, 4)], 0x0, 0x0, 0x0, 0x100⟩,
  ⟨0x3800C, [(0x2000, 4)], 0x0, 0x0, 0x0, 0xEA60⟩,
  ⟨0x38010, [(0x2000, 4)], 0x0, 0x0, 0x0, 0x800000C8⟩,
  ⟨0x38020, [(0x2000, 4)], 0xFFFF, 0x0, 0x0, 0x0⟩]

/-- The register index, part 7. -/
def regTable7 : List RegSpec := [
  ⟨0x38024, [(0x2000, 4)], 0xFFFFFFFF, 0x0, 0x0, 0x0⟩,
  ⟨0x38028, [(0x2000, 4)], 0xFFFFFFFF, 0x0, 0x0, 0x0⟩,
  ⟨0x38040, [(0x2000, 4)], 0x0, 0x0, 0x0, 0x0⟩,
  ⟨0x38044, [(0x2000, 4)], 0x0, 0x0, 0xFFFFFFFF, 0x0⟩,
  ⟨0x38048, [(0x2000, 4)], 0x0, 0x0, 0xFFFFFFFF, 0x0⟩,
  ⟨0x3804C, [(0x2000, 4)], 0x0, 0x0, 0xFFFFFFFF, 0x0⟩,
  ⟨0x38050, [(0x2000, 4)], 0x0, 0x0, 0xFFFFFFFF, 0x0⟩,
  ⟨0x38054, [(0x2000, 4)], 0x0, 0x0, 0xFFFFFFFF, 0x0⟩,
  ⟨0x38058, [(0x2000, 4)], 0x0, 0x0, 0xFFFFFFFF, 0x0⟩,
  ⟨0x3805C, [(0x2000, 4)], 0x0, 0x0, 0xFFFFFF00, 0x0⟩,
  ⟨0x38400, [(0x2000, 4), (0x10, 64)], 0xFFFFFFFF, 0x0, 0x0, 0x0⟩,
  ⟨0x38404, [(0x2000, 4), (0x10, 64)], 0x8000FFFF, 0x0, 0x0, 0x0⟩,
  ⟨0x38408, [(0x2000, 4), (0x10, 64)], 0xFFFFFFFF, 0x0, 0x0, 0x0⟩,
  ⟨0x39E00, [], 0x0, 0x0, 0xFFFF, 0x0⟩,
  ⟨0x39F00, [], 0x73FFFFFF, 0x0, 0x0, 0x0⟩,
  ⟨0x39F04, [], 0x0, 0x0, 0x0, 0x0⟩,
  ⟨0x60000, [], 0xFFFF03FF, 0x0, 0x0, 0x1002000A⟩,
  ⟨0x60004, [], 0x0, 0x0, 0x0, 0x0⟩,
  ⟨0x60008, [], 0x0, 0x0, 0x0, 0x1⟩,
  ⟨0x6000C, [], 0x0, 0x0, 0xFFFF, 0x0⟩,
  ⟨0x60010, [], 0xFFFF, 0x0, 0x0, 0x64⟩,
  ⟨0x60014, [], 0x0, 0x0, 0xFFFFFFFF, 0x0⟩,
  ⟨0x60018, [], 0x0, 0x0, 0xFFFF, 0x0⟩,
  ⟨0x60020, [], 0xF, 0x0, 0x0, 0x0⟩,
  ⟨0x60024, [], 0x0, 0x0, 0x0, 0x0⟩,
  ⟨0x60100, [(0x20, 8)], 0xE01F03FF, 0x0, 0x0, 0xC000A⟩,
  ⟨0x60104, [(0x20, 8)], 0xFFF000, 0x0, 0x0, 0x0⟩,
  ⟨0x60108, [(0x20, 8)], 0xFFF000, 0x0, 0x0, 0x0⟩,
  ⟨0x6010C, [(0x20, 8)], 0x0, 0x0, 0xFFFFFFFF, 0x0⟩,
  ⟨0x60110, [(0x20, 8)], 0x0, 0x0, 0x0, 0x0⟩]

/-- The register index, part 8. -/
def regTable8 : List RegSpec := [
  ⟨0x60114, [(0x20, 8)], 0x0, 0x0, 0xFFFFFFFF, 0x0⟩,
  ⟨0x60200, [(0x10, 4)], 0xC000000F, 0x0, 0x0, 0x0⟩,
  ⟨0x60204, [(0x10, 4)], 0xFFFFF000, 0x0, 0x0, 0x0⟩,
  ⟨0x60208, [(0x10, 4)], 0xFFFFFFFF, 0x0, 0x0, 0x0⟩,
  ⟨0x60800, [(0x20, 16), (0x4, 8)], 0x0, 0x0, 0x0, 0x0⟩,
  ⟨0x60A00, [], 0x0, 0x0, 0xFF000000, 0x0⟩,
  ⟨0x60A04, [], 0x0, 0x0, 0x0, 0x0⟩,
  ⟨0x68000, [(0x1000, 8)], 0x0, 0x0, 0x0, 0x140200⟩,
  ⟨0x68004, [(0x1000, 8)], 0x0, 0x0, 0x0, 0x1000020⟩,
  ⟨0x68008, [(0x1000, 8)], 0x0, 0x0, 0x0, 0x0⟩,
  ⟨0x6800C, [(0x1000, 8)], 0x0, 0x0, 0x0, 0x0⟩,
  ⟨0x68010, [(0x1000, 8)], 0x0, 0x0, 0x0, 0x0⟩,
  ⟨0x68014, [(0x1000, 8)], 0x0, 0x0, 0xFFFFFFFF, 0x0⟩,
  ⟨0x68018, [(0x1000, 8)], 0x0, 0x0, 0x0, 0x0⟩,
  ⟨0x68080, [(0x1000, 8), (0x4, 32)], 0xC1FF01FF, 0x0, 0x0, 0x0⟩,
  ⟨0x68100, [(0x1000, 8), (0x8, 64)], 0xFFFFF1FF, 0x0, 0x0, 0x0⟩,
  ⟨0x68104, [(0x1000, 8), (0x8, 64)], 0xFFFE0000, 0x0, 0x0, 0x0⟩,
  ⟨0x68400, [(0x1000, 8), (0x14, 24)], 0x7F, 0x0, 0x0, 0x0⟩,
  ⟨0x68404, [(0x1000, 8), (0x14, 24), (0x4, 4)], 0xFFFFFFFF, 0x0, 0x0, 0x0⟩,
  ⟨0x68600, [(0x1000, 8), (0x4, 16)], 0x0, 0x0, 0x0, 0x0⟩,
  ⟨0x68800, [(0x1000, 8), (0x4, 256)], 0x0, 0x0, 0x0, 0x0⟩,
  ⟨0x70000, [(0x4, 128)], 0x0, 0x0, 0xFFFFFFFF, 0x0⟩,
  ⟨0x70200, [(0x4, 4)], 0xFFFFFFFF, 0x0, 0x0, 0x0⟩,
  ⟨0x70300, [], 0x0, 0x0, 0xFFFF0000, 0x0⟩,
  ⟨0x70400, [(0x10, 16), (0x4, 3)], 0x0, 0x0, 0x0, 0x0⟩,
  ⟨0x70600, [], 0xFFFF, 0x0, 0x0, 0x32⟩,
  ⟨0x70604, [], 0x0, 0x0, 0x0, 0x0⟩,
  ⟨0x70700, [(0x10, 16), (0x4, 4)], 0x0, 0x0, 0x0, 0x0⟩,
  ⟨0x70800, [], 0x0, 0x0, 0xFFFFFFFF, 0x0⟩,
  ⟨0x70804, [], 0x0, 0x0, 0xFFFFFFFF, 0x0⟩]

/-- The register index, part 9. -/
def regTable9 : List RegSpec := [
  ⟨0x70808, [], 0x0, 0x0, 0xFFFFFFFF, 0x0⟩,
  ⟨0x70900, [], 0xFFFFFFFF, 0x0, 0x0, 0x7DFFD8⟩,
  ⟨0x70904, [], 0xFFFFFFFF, 0x0, 0x0, 0x320014⟩,
  ⟨0x70908, [(0x4, 8)], 0x0, 0x0, 0x0, 0x0⟩,
  ⟨0x78000, [], 0x0, 0x0, 0x0, 0x0⟩,
  ⟨0x78004, [], 0x0, 0x0, 0x0, 0x0⟩,
  ⟨0x78008, [], 0x0, 0x0, 0x0, 0x0⟩,
  ⟨0x7800C, [], 0xFFFF00FF, 0x0, 0x0, 0x5⟩,
  ⟨0x78020, [], 0x0, 0x0, 0x0, 0x0⟩,
  ⟨0x78024, [], 0x0, 0x0, 0x0, 0x0⟩,
  ⟨0x78028, [], 0x0, 0x0, 0x0, 0x0⟩,
  ⟨0x7802C, [], 0x0, 0x0, 0xFF000000, 0x0⟩,
  ⟨0x78040, [], 0xFFFFFFFF, 0x0, 0x0, 0x3E80014⟩,
  ⟨0x78044, [], 0x0, 0x0, 0x0, 0x0⟩,
  ⟨0x78048, [], 0x0, 0x0, 0xFFFFFFFF, 0x0⟩,
  ⟨0x78100, [(0x4, 5)], 0xFFFFFFFF, 0x0, 0x0, 0x0⟩,
  ⟨0x78120, [(0x4, 5)], 0xFFFFFFFF, 0x0, 0x0, 0x0⟩,
  ⟨0x78140, [(0x4, 5)], 0x0, 0x0, 0x0, 0x0⟩,
  ⟨0x01400, [], 0xFFFFF000, 0x0, 0x0, 0x0⟩,
  ⟨0x01404, [], 0xFFFFFFFF, 0x0, 0x0, 0x0⟩,
  ⟨0x01408, [], 0x9F1FFFFF, 0x0, 0x0, 0x80000⟩,
  ⟨0x0140C, [], 0xFFFF, 0x0, 0x0, 0x0⟩,
  ⟨0x01410, [], 0x0, 0x0, 0x0, 0x0⟩,
  ⟨0x01414, [], 0x0, 0x0, 0xFFFF, 0x0⟩,
  ⟨0x01800, [(0x20, 16)], 0xFFFFF000, 0x0, 0x0, 0x0⟩,
  ⟨0x01804, [(0x20, 16)], 0xFFFFFFFF, 0x0, 0x0, 0x0⟩,
  ⟨0x01808, [(0x20, 16)], 0x9F1FFFFF, 0x0, 0x0, 0x2080000⟩,
  ⟨0x0180C, [(0x20, 16)], 0xFFFF, 0x0, 0x0, 0x0⟩,
  ⟨0x01810, [(0x20, 16)], 0x0, 0x0, 0x0, 0x0⟩,
  ⟨0x01814, [(0x20, 16)], 0x0, 0x0, 0xFFFF, 0x0⟩]

/-- The register index, part 10. -/
def regTable10 : List RegSpec := [
  ⟨0x02C00, [], 0xFFFFF000, 0x0, 0x0, 0x0⟩,
  ⟨0x02C04, [], 0xFFFFFFFF, 0x0, 0x0, 0x0⟩,
  ⟨0x02C08, [], 0x9F1FFFFF, 0x0, 0x0, 0x1080000⟩,
  ⟨0x02C0C, [], 0xFFFF, 0x0, 0x0, 0x0⟩,
  ⟨0x02C10, [], 0x0, 0x0, 0x0, 0x0⟩,
  ⟨0x02C14, [], 0x0, 0x0, 0xFFFF, 0x0⟩,
  ⟨0x02000, [(0x10, 32), (0x4, 4)], 0xFFFFFFFF, 0x0, 0x0, 0x0⟩,
  ⟨0x02800, [], 0x0, 0x0, 0x0, 0x0⟩]

/-- The whole register index. -/
def regTable : List RegSpec :=
  regTable1 ++ regTable2 ++ regTable3 ++ regTable4 ++ regTable5 ++ regTable6 ++ regTable7 ++ regTable8 ++ regTable9 ++ regTable10

end Sys2Proof.Machine
end

