-- ==== Sys2Proof/Config.lean ====
section
/-! DEFINITION. What an implementation fixes, and the values that the spec leaves open. An opaque constant has no body:
no proof can see its value, so a claim holds whatever it is. -/

namespace Sys2Proof

/-! ## Free values -/

/-- A free bit, one for each count of State.freeCount (log 20): the level change of R107 held for a time between the width
less 4 ns and the width, the RESET_N pulse of R351 between 1 µs and 10 µs, and the other two-way outcomes the spec leaves open. -/
opaque Config.freeBit : Nat → Bool

/-- A free word, one for each count of State.freeCount (log 20): a value the spec does not state. -/
opaque Config.freeWord : Nat → Word

/-- The delay from the ball of TDC t to its line, fused at production, in units of 2^-16 ns (R76). -/
opaque Config.tdcSkew : Nat → BitVec 20

/-- The mean tap width of region g, fused at production, in units of 2^-16 ns (R80). -/
opaque Config.tapWidth : Nat → BitVec 18

/-- The fused identity that seeds the dice of port p (R148). -/
opaque Config.diceSeed : Nat → Word

/-- The dice after a stir with a tap count and a tick count (R148 states that the dice are stirred, not how). -/
opaque Config.diceStir : Word → Nat → Nat → Word

/-- The dice after a roll (R147, R148). -/
opaque Config.diceNext : Word → Word

/-- The TB tick, modulo 25, at which the edges of the CN clock coincide with those of TB (R249). -/
opaque Config.cnPhase : Nat

/-! ## Values the spec leaves to PCI Express -/

/-- The max payload size negotiated for memory writes, in bytes (R60; the reset value of PCI Express, log 7). -/
def Config.maxPayload : Nat := 128

/-- The max read request size, in bytes (R60; the reset value of PCI Express, log 7). -/
def Config.maxReadRequest : Nat := 512

/-! ## Times, in TB ticks of 4 ns (R63) -/

/-- TB ticks in a microsecond. -/
def Config.tickUs : Nat := 250

/-- TB ticks in a millisecond. -/
def Config.tickMs : Nat := 250000

/-- TB ticks in a second. -/
def Config.tickS : Nat := 250000000

/-- The period of the rate limits of detectors, 100 ms. -/
def Config.tickLimit : Nat := 25000000

end Sys2Proof
end

