-- ==== Sys2Proof/Machine/State.lean ====
section
/-! DEFINITION. The state of the hub as plain data, the faults and refusals, and the state after a power-on reset. -/

namespace Sys2Proof.Machine

/-! ## Host interface (02_host_interface.md) -/

/-- A DMA read that a command has outstanding (R60, R62): its address and length, and the bytes still to be read behind it. -/
structure Fetch where
  addr : Nat
  len : Nat
  rest : Nat
  deriving DecidableEq, Repr

/-- Where an accepted command stands (R40): accepted and not begun; begun; or open, so that later commands on its object
no longer wait for it. -/
inductive CmdPhase where
  | accepted
  | running
  | opened
  deriving DecidableEq, Repr

/-- An accepted command and its progress (R40 to R47). -/
structure HostCmd where
  slot : Nat
  gen : Nat
  words : List Word
  phase : CmdPhase
  /-- The DMA read outstanding. -/
  fetch : Option Fetch
  /-- A flash operation is outstanding. -/
  flash : Bool
  /-- Bytes received and not yet consumed. -/
  got : List Byte
  /-- Progress counters of the command, as its meaning uses them. -/
  done : Nat
  aux : Nat
  deriving DecidableEq, Repr

/-- A completion waiting for room in the completion ring (R44). -/
structure Completion where
  slot : Nat
  handle : Nat
  status : Nat
  res0 : Nat
  res1 : Nat
  sec : Nat
  ns : Nat
  noirq : Bool
  vecSel : Bool
  vector : Nat
  deriving DecidableEq, Repr

/-- What a ring holds beside its registers (R50, R53): the base and size taken at its last enable, the phase, the entries not
yet announced, the tick of the first of them, and the ring sequence number of a host ring. -/
structure Ring where
  base : Nat
  size : Nat
  phase : Bool
  unann : Nat
  firstTb : Nat
  seq : Nat
  deriving DecidableEq, Repr

/-- A ring before its first enable. -/
def Ring.init : Ring := ⟨0, 0, false, 0, 0, 0⟩

/-- A capability of configuration space (R28). -/
inductive PciCap where
  | powerManagement
  | pciExpress
  /-- With this many vectors. -/
  | msix (vectors : Nat)
  | advancedErrorReporting
  deriving DecidableEq, Repr

/-- Configuration space as R28 gives it: what the host reads of it, all read-only. -/
structure ConfigSpace where
  vendor : BitVec 16
  device : BitVec 16
  subsystemVendor : BitVec 16
  subsystem : BitVec 16
  /-- Equal to HUB_REV.STEP. -/
  revision : BitVec 8
  classCode : BitVec 24
  /-- Link speeds in units of 0.5 GT/s, and widths, that the link trains at, the fastest and widest first. -/
  linkSpeeds : List Nat
  linkWidths : List Nat
  /-- Max payload size supported, in bytes. -/
  payloadSupported : Nat
  capabilities : List PciCap
  /-- The D states of the power management capability: 0 for D0, 3 for D3hot. -/
  powerStates : List Nat
  functionReset : Bool
  aspmL1 : Bool
  aspmL0s : Bool
  /-- Completion timeout ranges A and B; the default in µs. -/
  timeoutA : Bool
  timeoutB : Bool
  timeoutUs : Nat
  interruptPin : Nat
  deriving DecidableEq, Repr

/-- Configuration space after reset (R28). -/
def ConfigSpace.init : ConfigSpace :=
  { vendor := 0x1EF4#16, device := 0x8128#16, subsystemVendor := 0x1EF4#16, subsystem := 0x0001#16, revision := 0x01#8, classCode := 0x118000#24,
    linkSpeeds := [16, 10, 5], linkWidths := [2, 1], payloadSupported := 512,
    capabilities := [.powerManagement, .pciExpress, .msix 32, .advancedErrorReporting], powerStates := [0, 3],
    functionReset := true, aspmL1 := true, aspmL0s := false, timeoutA := true, timeoutB := true, timeoutUs := 10000, interruptPin := 0 }

/-- The host interface (R28 to R62). -/
structure HostIf where
  /-- Free slots, the one free the longest first (R42). -/
  free : List Nat
  /-- Generation of the last handle of each slot (R41); 0: none since reset. -/
  gens : SMap Nat
  /-- Accepted commands in accept order. -/
  cmds : List HostCmd
  /-- Completions held, in finishing order (R44). -/
  held : List Completion
  /-- CMD_BUF words, keyed 16 × window + word (R38). -/
  cmdBuf : SMap Word
  /-- Windows loaded since their last CMD_ACCEPT read (R38). -/
  loaded : List Nat
  /-- Next event sequence number (R52). -/
  evSeq : Nat
  /-- Events were dropped since the last event entry written (R52). -/
  ovf : Bool
  /-- The function is in D3hot (R30). -/
  d3 : Bool
  /-- MSI-X enabled in configuration space (R58). -/
  msix : Bool
  /-- HOST_ERRORS has counted a DMA fault since it was last read (R62). -/
  faultSeen : Bool
  /-- A DEVICE_RESET is scheduled: the tick of its acceptance (R47). -/
  resetAt : Option Nat
  /-- BAR0 answers (R29, R354). -/
  usable : Bool
  /-- Bytes of the flash device, as the JESD216 table gave them at boot (R354). -/
  flashSize : Option Nat
  /-- Configuration space (R28); of what may change in it, d3 and msix hold the power state and the MSI-X enable. -/
  config : ConfigSpace
  deriving DecidableEq, Repr

/-- The host interface after a full reset (R42, R44, R353). -/
def HostIf.init : HostIf :=
  { free := List.range 256, gens := [], cmds := [], held := [], cmdBuf := [], loaded := [], evSeq := 0, ovf := false,
    d3 := false, msix := true, faultSeen := false, resetAt := none, usable := false, flashSize := none, config := ConfigSpace.init }

/-! ## Time base, servo and calibration (03_time_base.md, 04_network_time.md) -/

/-- A full stamp (R65), as a count of 2^-16 ns since second 0. -/
abbrev Stamp := Nat

/-- A stamp with the epoch of its table and the number of clock steps taken before it (R65, R75, R88). -/
structure Edge where
  stamp : Stamp
  epoch : Nat
  steps : Nat
  deriving DecidableEq, Repr

/-- An accepted PPS edge that a TIMESET may pair with, with the UTC offset in force at its stamp (R94). -/
structure PpsEdge where
  edge : Edge
  utc : Int
  deriving DecidableEq, Repr

/-- A TIMESET that waits: for its edge under PAIR = 1, or for TOD_PAIRING to pair it (R93, R94). -/
structure Tod where
  utc : Nat
  arrival : Edge
  /-- The pairing is due: the edge it pairs with. -/
  pair : Option PpsEdge
  deriving DecidableEq, Repr

/-- What a compare unit holds beside its registers: the held seconds, and the tick at which its target was last set (R68, R71). -/
structure CmpUnit where
  heldSec : Word
  setTb : Nat
  deriving DecidableEq, Repr

/-- A compare unit after reset. -/
def CmpUnit.init : CmpUnit := ⟨0, 0⟩

/-- The time core (R63, R86 to R98). -/
structure TimeCore where
  /-- The clock in units of 2^-38 ns: seconds, nanoseconds, fraction and residue in one count (R63). -/
  clk : Nat
  /-- TB ticks since the PLL first locked (R63). -/
  tb : Nat
  /-- The PLL has locked since the reset, so that TB runs (R63). -/
  locked : Bool
  /-- Phase of the 8 ns symbol grid of the Ethernet lanes against TB, in units of 2^-16 ns (R102, R278). -/
  gridPhase : Nat
  /-- The RATE of the next tick (R91). -/
  rateNext : Word
  /-- Steps taken since reset (R88). -/
  steps : Nat
  /-- The tick of the last sample, or of the entry into WAIT or the reference role (R92, R95). -/
  sampleTb : Nat
  /-- PPS edges accepted, newest first (R94). -/
  pps : List PpsEdge
  /-- The TIMESET that waits (R94). -/
  tod : Option Tod
  /-- Earlier UTC_OFFSET values, newest first, each with the clock at the write that ended it (R94). -/
  utcOld : List (Stamp × Int)
  cmp : SMap CmpUnit
  deriving DecidableEq, Repr

/-- The time core after a full reset (R63, R86). -/
def TimeCore.init : TimeCore :=
  { clk := 0, tb := 0, locked := false, gridPhase := 0, rateNext := 0, steps := 0, sampleTb := 0, pps := [], tod := none, utcOld := [], cmp := [] }

/-- What an accumulation of a region is doing (CAL_STATUS.STATE, R79 to R84). -/
inductive CalMode where
  | collect
  | dither
  | commitWait
  | forced
  | fallback
  deriving DecidableEq, Repr

/-- A calibration table with the histogram that produced it (R80, R85). -/
structure TdcTable where
  epoch : Nat
  /-- pos_0 to pos_255, with check bits (R82, R328). -/
  pos : List MemWord
  hist : SMap Nat
  hits : Nat
  live : Nat
  deriving DecidableEq, Repr

/-- A calibration region (R74, R79 to R85). -/
structure Region where
  hist : SMap Nat
  hits : Nat
  live : Nat
  /-- Tick at which the running interval started. -/
  startTb : Nat
  /-- CAL_CTRL and CAL_HITS as the running interval took them. -/
  ctl : Word
  target : Word
  mode : CalMode
  /-- The running accumulation belongs to this command slot (R84). -/
  run : Option Nat
  /-- A trigger has acted since the last commit (R83). -/
  trigged : Bool
  buf0 : Option TdcTable
  buf1 : Option TdcTable
  /-- The table in force: 0 production, 1 buffer 0, 2 buffer 1. -/
  newest : Nat
  /-- The last epoch that a commit gave since the reset (R81). -/
  epoch : Nat
  waiting : Option TdcTable
  commitTb : Nat
  /-- Tick of the first commit since every TDC of the region used the production table (R82). -/
  firstTb : Nat
  commit : Stamp
  /-- The last sample of die temperature (units of 0.125 °C) and VCORE (mV) (R83). -/
  temp : BitVec 16
  mv : BitVec 16
  /-- DET_TEMP has reported and is not re-armed (R347). -/
  tempHi : Bool
  tempLo : Bool
  /-- Consecutive VCORE samples above the band, or below it as a negative number, and whether the excursion was reported (R348). -/
  vcoreOut : Int
  vcoreSaid : Bool
  /-- What the conversions of the region have stirred into the dice of its ports (R148). -/
  stir : Word
  deriving DecidableEq, Repr

/-- A region after a full reset. -/
def Region.init : Region :=
  { hist := [], hits := 0, live := 0, startTb := 0, ctl := 0x0A0807D0#32, target := 65536#32, mode := .collect, run := none,
    trigged := false, buf0 := none, buf1 := none, newest := 0, epoch := 0, waiting := none, commitTb := 0, firstTb := 0, commit := 0, temp := 0,
    mv := 0,
    tempHi := false, tempLo := false, vcoreOut := 0, vcoreSaid := false, stir := 0 }

/-- Automatic core voltage control (R22 to R26). -/
structure VidCtl where
  /-- Engine time executing and engine time online in the present window, in ticks (R25). -/
  busy : Nat
  online : Nat
  /-- Regions that have committed since the last code change (R24). -/
  committed : List Nat
  /-- A code change has been made since reset. -/
  changed : Bool
  changeTb : Nat
  /-- The window judged last asked for this direction: 0 none, 1 raise, 2 lower (R25). -/
  want : Nat
  /-- Windows judged since reset. -/
  windows : Nat
  deriving DecidableEq, Repr

/-- Core voltage control after a full reset. -/
def VidCtl.init : VidCtl := ⟨0, 0, [], false, 0, 0, 0⟩

/-! ## Event inputs and outputs (05_event_io.md) -/

/-- An event record before the common header (R109): the 8 payload words. -/
structure EvRec where
  words : List Word
  edge : Edge
  last : Edge
  /-- The Kennel, and the host ring, still have to take it (R110). -/
  toKennel : Bool
  toRing : Bool
  /-- SEQ and talker that the Kennel gave it. -/
  taken : Option (Nat × Nat)
  inj : Bool
  deriving DecidableEq, Repr

/-- An open coalesced record (R111): its first stamped edge, the last where there is another, LOST, and when it was opened and last
grew. -/
structure Burst where
  first : Option Edge
  last : Option Edge
  lost : Nat
  openTb : Nat
  openStamp : Stamp
  openSteps : Nat
  lastTb : Nat
  inj : Bool
  deriving DecidableEq, Repr

/-- A pulse of an event output whose edges are fixed (R116, R117): the times of its edges in units of 2^-16 ns of TB time, its level, and
its leading edge on the local clock in units of 50 ps with its width in ns. -/
structure EoPulse where
  leadAt : Int
  trailAt : Int
  high : Bool
  at50ps : Int
  width : Nat
  deriving DecidableEq, Repr

/-- An event input (R106 to R115). -/
structure EvIn where
  /-- The level at the ball, high. -/
  ball : Bool
  /-- The accepted level, high. -/
  level : Bool
  /-- A level change the filter is judging: the time of its edge in units of 2^-16 ns of TB time, and its stamp unless it was lost in
  the dead time (R107, R108). -/
  cand : Option (Int × Option Edge)
  /-- Time of the last conversion in the same units (R108). -/
  convAt : Option Int
  fifo : List EvRec
  burst : Option Burst
  /-- A forced table switch has closed a coalesced record: the next accepted edge opens another (R82, R111). -/
  burstNext : Bool
  /-- The tick from which the hold time runs, the clock at it, and the active edge unless there is none (R112, R113). -/
  activeTb : Option Nat
  activeEdge : Option Edge
  activeStamp : Stamp
  held : Bool
  deriving DecidableEq, Repr

/-- An event input after reset; the level at its ball is low until an EI_EDGE says otherwise (log 12). -/
def EvIn.init : EvIn :=
  { ball := false, level := false, cand := none, convAt := none, fifo := [], burst := none, burstNext := false, activeTb := none, activeEdge := none,
    activeStamp := 0, held := false }

/-- A target of an event output (R117): a short stamp and a fraction. -/
structure EoTarget where
  sec : Word
  ns : Word
  frac : BitVec 16
  setTb : Nat
  deriving DecidableEq, Repr

/-- An event output (R116 to R120). -/
structure EvOut where
  heldSec : Word
  heldNs : Word
  queue : List EoTarget
  /-- The generator of MODE 1 runs; of MODE 2, a hit waits for its pulse. -/
  gen : Option EoTarget
  cmpHits : List EoTarget
  /-- The target of the compare unit for which a pulse is fixed before the hit (R116, R117). -/
  cmpFixed : Option (Word × Word)
  /-- Pulses fixed and not yet ended, in order of time; the first may be at the ball. -/
  active : List EoPulse
  /-- The time of the last trailing edge, in the same units. -/
  trailAt : Option Int
  /-- PORT_DISABLE waits for the end of the pulse: its slot and the targets it discarded (R120). -/
  closing : Option (Nat × Nat)
  /-- The table of region TRm with which its edges are placed: 0 production, 1 buffer 0, 2 buffer 1 (R117). -/
  table : Nat
  deriving DecidableEq, Repr

/-- An event output after reset. -/
def EvOut.init : EvOut := ⟨0, 0, [], none, [], none, [], none, none, 0⟩

/-! ## Serial ports (06_serial_ports.md) -/

/-- Where the framer of a port stands (R136, R137). -/
inductive Framer where
  | hunt
  | tag
  | afterTag
  | sentence
  deriving DecidableEq, Repr

/-- A character of the raw FIFO with its own error bits (R139). -/
structure RawChar where
  ch : Byte
  fe : Bool
  pe : Bool
  deriving DecidableEq, Repr

/-- An item that a serial transmitter has taken (R129, R232): the bytes to be sent, built at the start when a TAG block is
inserted, and what it came from. -/
structure TxItem where
  listener : Nat
  echo : Bool
  echoRing : Nat
  /-- The item as the program built it. -/
  body : List Byte
  /-- Listener word 1 when a TAG block is inserted before the body (R236), and the s: value. -/
  tag : Option (Word × List Byte)
  launch : Option (Word × Word)
  /-- A launched item that had not been staged in time (R130). -/
  late : Bool
  inj : Bool
  deriving DecidableEq, Repr

/-- An item on the wire (R128): the bytes sent, its departure stamp (R131), and its times in units of 2^-16 ns of TB time. -/
structure TxRun where
  item : TxItem
  bytes : List Byte
  start : Edge
  startAt : Int
  /-- Character number sent of the item begins at base, and the later ones follow it without a gap. -/
  base : Int
  sent : Nat
  endAt : Int
  /-- Stopped by XOFF (R143): the number of the character before which it stops, and the time of that boundary. -/
  pause : Option (Nat × Int)
  deriving DecidableEq, Repr

/-- A serial port beside its registers (R121 to R153). -/
structure SerialPort where
  framer : Framer
  /-- Characters of the partial sentence or raw record. -/
  text : List Byte
  first : Option Edge
  last : Option Edge
  /-- Characters of it received with FE or PE. -/
  errs : Nat
  /-- An injected occurrence met its reception (R341). -/
  inj : Bool
  woke : Bool
  /-- The tick from which the line has been idle. -/
  idleTb : Nat
  /-- The newest character, for SP_DATA in the framed modes (R135). -/
  lastChar : Option RawChar
  fifo : List RawChar
  /-- Flags armed by the last SP_STATUS read, FE 4, PE 2, OE 1 (R133). -/
  armed : Nat
  /-- The receiver waits for one character time of idle before it hunts (R142, R147, R149). -/
  needIdle : Bool
  /-- The line is low: the tick of its falling edge, and the start edge that its break record names (R149). -/
  low : Option (Nat × Option Edge)
  /-- Stopped by XOFF: the tick it was received (R143). -/
  xoffTb : Option Nat
  /-- Characters received since the last XOFF sent (R144). -/
  sinceXoff : Nat
  /-- Leash characters that wait for a character boundary of the transmitter, XOFF true, and the time of that boundary (R144, R145). -/
  leash : List Bool
  leashAt : Int
  /-- The item taken and not yet on the wire. -/
  staged : Option TxItem
  run : Option TxRun
  /-- The end of the last stop bit sent, in units of 2^-16 ns of TB time. -/
  freeAt : Int
  /-- Half duplex: failed attempts, the gap in character times, and the tick from which it is counted (R146, R147). -/
  attempts : Nat
  gap : Nat
  gapTb : Nat
  dice : Option Word
  /-- A collision of the present item was injected (R340, R341). -/
  collInj : Bool
  /-- Half duplex: the last attempt succeeded, so that DE stays asserted SP_DE.LAG behind freeAt (R146, R147). -/
  lag : Bool
  /-- A PORT_SET that waits for a character boundary of the transmitter (R141): its slot, the time of the boundary, and the
  characters sent by then. -/
  setTx : Option (Nat × Int × Nat)
  /-- A PORT_SET that waits for the end of the character in the receive shifter (R141): its slot, and the tick of that end. -/
  setRx : Option (Nat × Nat)
  deriving DecidableEq, Repr

/-- A serial port after a full reset. -/
def SerialPort.init : SerialPort :=
  { framer := .hunt, text := [], first := none, last := none, errs := 0, inj := false, woke := false, idleTb := 0,
    lastChar := none, fifo := [], armed := 0, needIdle := false, low := none, xoffTb := none, sinceXoff := 0, leash := [], leashAt := 0,
    staged := none, run := none, freeAt := 0, attempts := 0, gap := 0, gapTb := 0, dice := none, collInj := false, lag := false, setTx := none,
      setRx := none }

/-- A watch receiver of harbour watch (R150 to R153, R363). -/
structure Watch where
  /-- Its number in SLEEP_ENTER, and its port. -/
  num : Nat
  port : Nat
  /-- SP_CTRL, SP_DIV, SP_FORMAT, SP_FRAMER, SP_HOLD, SP_WATCH_PAT_LO, SP_WATCH_PAT_HI, SP_WATCH_CFG as copied to VAON (R361). -/
  ctrl : Word
  div : Word
  format : Word
  framer : Word
  hold : Word
  patLo : Word
  patHi : Word
  cfg : Word
  buf : List RawChar
  /-- A character was discarded because the buffer was full (R152). -/
  full : Bool
  /-- Where the sentence in progress stands. -/
  place : Framer
  /-- A comparison runs: the next position (R151). -/
  pos : Option Nat
  matched : Bool
  /-- A character has been received since entry. -/
  started : Bool
  /-- The line is held or broken: nothing is received, and nothing wakes, before one character time of idle (R149, R151). -/
  needIdle : Bool
  deriving DecidableEq, Repr

/-! ## Records, talkers and engines (07_intake_talkers.md, 08_pack_engines.md, 09_nymsa_reference.md) -/

/-- A record in flight: where it lies in the Kennel and what the Herder knows of it (R155, R163, R167). -/
structure Rec where
  seq : Nat
  gran : Nat
  count : Nat
  talker : Nat
  rxq0 : Bool
  /-- Clock steps taken before its first stamp (R88). -/
  steps : Nat
  deriving DecidableEq, Repr

/-- An output item between OPEN and CLOSE (R213 to R219). -/
structure Item where
  set : Nat
  prio : Nat
  /-- The relative deadline in µs; 0: none (R215). -/
  deadline : Word
  body : List Byte
  launch : Option (Word × Word)
  notag : Bool
  /-- The s: value that a TAG instruction gave it. -/
  src : Option (List Byte)
  /-- PGN or identifier words of OPGN (R217). -/
  can : Option (Word × Word)
  /-- The serial number of listener enables at OPEN (R227). -/
  openSeq : Nat
  deriving DecidableEq, Repr

/-- A rebuild that waits for an engine, or runs (R334). -/
structure Rebuild where
  arrival : Nat
  recd : Rec
  bank : Nat
  ordinal : Nat
  /-- The word of the copy that failed, and whether the failure was injected. -/
  word : Nat
  inj : Bool
  deriving DecidableEq, Repr

/-- An engine (R169). -/
structure Engine where
  recd : Option Rec
  /-- The rebuild that this run makes (R334). -/
  rebuild : Option Rebuild
  w : List Word
  pc : Nat
  cursor : Nat
  flags : BitVec 16
  stack : List Nat
  fields : List MemWord
  plies : Nat
  budget : Nat
  budget0 : Nat
  bank : Nat
  item : Option Item
  closes : Nat
  startTb : Nat
  /-- Ticks spent waiting for re-fetches, and the tick at which the present wait began (R187). -/
  paused : Nat
  waitTb : Option Nat
  /-- An effect of the record has left the engine; the record has been re-parsed (R333). -/
  effect : Bool
  reparsed : Bool
  /-- DET_PLY has been judged for the instruction that waits for a re-fetch (R340). -/
  judged : Bool
  /-- A re-parse waits for its route entry (R333, R336). -/
  reload : Bool
  wedged : Bool
  lastSeq : Nat
  lastTalker : Nat
  deriving DecidableEq, Repr

/-- An engine after a full reset (R169, R170). -/
def Engine.init : Engine :=
  { recd := none, rebuild := none, w := List.replicate 16 0, pc := 0, cursor := 0, flags := 0, stack := [], fields := [],
    plies := 0, budget := 0, budget0 := 0, bank := 0, item := none, closes := 0, startTb := 0, paused := 0, waitTb := none,
    effect := false, reparsed := false, judged := false, reload := false, wedged := false, lastSeq := 0, lastTalker := 0 }

/-- A re-fetch of a bank word (R336): which of the four stores the word lies in (0 program, 1 route, 2 listener, 3 set), where,
and the readers that wait for it. -/
structure Refetch where
  store : Nat
  /-- Word address, both banks in one count. -/
  addr : Nat
  readers : List Nat
  inj : Bool
  /-- Its source (R179): whether that is the flash, and the host address or flash offset of the word. -/
  flash : Bool
  src : Nat
  /-- Its read has gone out: from host memory it waits while no further read may (R30, R60). -/
  sent : Bool
  deriving DecidableEq, Repr

/-- The Pack and its banks (R169 to R188). -/
structure Pack where
  active : Nat
  engines : SMap Engine
  /-- Group state: 0 OFFLINE, 1 POWERING, 2 ONLINE, 3 DRAINING (R183); an unlisted group is ONLINE. -/
  groups : SMap Nat
  /-- Records ended in a draining group (R184). -/
  groupEnded : SMap Nat
  /-- The swap in progress: records ended on the old bank since the swap point (R181). -/
  swapEnded : Option Nat
  /-- Load count of each bank: it changes whenever the bank is written (R334). -/
  loads : SMap Nat
  /-- Table entries that the last LOAD_PROGRAM wrote and no TABLE_WRITE since: key as in the table, value the byte offset in the
  image plus 1 (R336). -/
  marks : SMap Nat
  /-- Re-fetches outstanding, oldest first, and readers that continue with a re-fetched word: (store, address, reader). -/
  refetch : List Refetch
  passes : List (Nat × Nat × Nat)
  plies : Nat
  pliesHi : Option Nat
  deriving DecidableEq, Repr

/-- The Pack after a full reset. -/
def Pack.init : Pack :=
  { active := 0, engines := [], groups := [], groupEnded := [], swapEnded := none, loads := [], marks := [], refetch := [], passes := [],
    plies := 0, pliesHi := none }

/-- The Herder and the talker side of the Kennel (R154 to R168). -/
structure Herder where
  /-- Admitted records not yet dispatched, in commit order. -/
  waiting : List Rec
  nextSeq : Nat
  /-- Tick at which each talker was last heard, plus 1 (R160). -/
  heard : SMap Nat
  /-- Granules held by records in flight, by first granule: (first, count), ascending. -/
  runs : List (Nat × Nat)
  low : Nat
  peak : Nat
  /-- The last millisecond and second at which buckets were refilled and talkers swept. -/
  refillMs : Nat
  sweepS : Nat
  rebuilds : List Rebuild
  deriving DecidableEq, Repr

/-- The Herder after a full reset. -/
def Herder.init : Herder :=
  { waiting := [], nextSeq := 0, heard := [], runs := [], low := 124212, peak := 0, refillMs := 0, sweepS := 0, rebuilds := [] }

/-! ## Listeners (10_listeners_output.md) -/

/-- A copy in a listener queue (R227, R228, R334). -/
structure Copy where
  listener : Nat
  arrival : Nat
  /-- Words 0 and 1 of the listener entry at the copy instant, and the SRC bytes. -/
  w0 : Word
  w1 : Word
  src : List Byte
  prio : Nat
  deadline : Option (Word × Word)
  /-- The tick of the copy: its deadline and launch time are judged at later ticks (R68). -/
  setTb : Nat
  launch : Option (Word × Word)
  /-- Its launch time was reached before a clock step, so that it stays released (R70). -/
  released : Bool
  /-- Length of its bytes, and the bytes themselves while they do not lie in the pool: in a queue they lie in its run, from word 8 on. -/
  len : Nat
  body : List Byte
  notag : Bool
  can : Option (Word × Word)
  stamp : Edge
  stampLost : Bool
  inj : Bool
  /-- First granule of its run in the pool, and the granules held. -/
  gran : Nat
  granules : Nat
  missed : Bool
  /-- Waiting for a rebuild (R334). -/
  rebuilding : Bool
  srcSeq : Nat
  srcGran : Nat
  srcCount : Nat
  srcTalker : Nat
  ordinal : Nat
  bank : Nat
  bankLoads : Nat
  deriving DecidableEq, Repr

/-- A pending drain item of a listener (R242), with word 0 of its entry as it was read last. -/
structure Drain where
  listener : Nat
  w0 : Word
  arrival : Nat
  prio : Nat
  deadline : Word × Word
  deriving DecidableEq, Repr

/-- The listener queues (R226 to R245). -/
structure Listeners where
  copies : List Copy
  drains : List Drain
  arrival : Nat
  low : Nat
  /-- Serial number of enables, and that of each listener's last enable (R227). -/
  enSeq : Nat
  enAt : SMap Nat
  /-- The n: counter of each listener (R238). -/
  line : SMap Nat
  /-- SEQ of the last drain send, plus 1 (R242). -/
  sentSeq : SMap Nat
  /-- The last millisecond at which each drain listener ticked, plus 1. -/
  tickMs : SMap Nat
  deriving DecidableEq, Repr

/-- The listener queues after a full reset. -/
def Listeners.init : Listeners :=
  { copies := [], drains := [], arrival := 0, low := 24576, enSeq := 0, enAt := [], line := [], sentSeq := [], tickMs := [] }
/-! ## CAN ports (11_can_ports.md) -/

/-- A frame in a receive queue (R252), with its SOF stamp. -/
structure RxFrame where
  frame : CanFrame
  stamp : Edge
  inj : Bool
  deriving DecidableEq, Repr

/-- An open fast-packet reassembly (R254, R255): the queue of its first frame, its length, the next frame counter. -/
structure FastPacket where
  ident : BitVec 29
  counter : Nat
  rxq0 : Bool
  length : Nat
  next : Nat
  data : List Byte
  first : Edge
  lastTb : Nat
  frames : Nat
  inj : Bool
  deriving DecidableEq, Repr

/-- A frame of CAN_SEND on a lane (R257, R260). -/
structure SendFrame where
  slot : Nat
  frame : CanFrame
  launch : Option (Word × Word)
  /-- Its launch time was reached before a clock step (R70). -/
  released : Bool
  setTb : Nat
  attempts : Nat
  /-- A cancel was registered at or after a SOF (R262). -/
  lateCancel : Bool
  deriving DecidableEq, Repr

/-- The copy in the listener slot of a lane (R257, R259): its frames still to be sent, and those sent. -/
structure LaneCopy where
  copy : Copy
  frames : List CanFrame
  sent : List CanFrame
  start : Option Edge
  /-- An attempt of it has begun (R261). -/
  begun : Bool
  deriving DecidableEq, Repr

/-- Which frame a lane is attempting (R258). -/
inductive Attempt where
  | none
  | send (slot : Nat)
  | copy
  deriving DecidableEq, Repr

/-- The state of a CAN controller (CN_STATUS.STATE, R263, R264, R266). -/
inductive CanMode where
  | off
  | integrating
  | active
  | busOff
  deriving DecidableEq, Repr

/-- A CAN port (R246 to R266). -/
structure CanPort where
  mode : CanMode
  tec : Nat
  recv : Nat
  recovering : Bool
  /-- Occurrences of 11 recessive bits counted in the present recovery, as far as they have shown (R264). -/
  recov : Nat
  stuck : Bool
  rxq0 : List RxFrame
  rxq1 : List RxFrame
  /-- Open reassemblies, by number (R254). -/
  fps : SMap (Option FastPacket)
  /-- Address map: (address, NAME, tick of entry) (R256). -/
  claims : List (Nat × BitVec 64 × Nat)
  fpSeq : Nat
  slot : Option LaneCopy
  /-- Frames pending on the lane, in accept order; the first 32 are on it (R257). -/
  sends : List SendFrame
  attempt : Attempt
  attemptSof : Edge
  /-- The SOF of the frame on the bus has been counted as a calibration hit (R78, R249). -/
  sofHit : Bool
  /-- A PORT_SET that waits for the end of the frame and integration: its words and slot (R266). -/
  pendSet : Option (List Word × Nat)
  /-- New settings are applied, and their PORT_SET waits for integration: its slot. -/
  pendApplied : Option Nat
  /-- PORT_DISABLE waits for the frame in progress: its slot. -/
  closing : Option Nat
  deriving DecidableEq, Repr

/-- A CAN port after a full reset. -/
def CanPort.init : CanPort :=
  { mode := .off, tec := 0, recv := 0, recovering := false, recov := 0, stuck := false, rxq0 := [], rxq1 := [], fps := [],
    claims := [], fpSeq := 0, slot := none, sends := [], attempt := .none, attemptSof := ⟨0, 0, 0⟩, sofHit := false, pendSet := none,
    pendApplied := none, closing := none }

/-! ## Ethernet ports and PTP (12_ethernet_ports.md, 04_network_time.md) -/

/-- A frame of ETH_LAUNCH (R277, R279). -/
structure LaunchFrame where
  slot : Nat
  queue : Nat
  bytes : List Byte
  launch : Option (Word × Word)
  /-- Its launch time was reached before a clock step (R70). -/
  released : Bool
  setTb : Nat
  echo : Bool
  ring : Nat
  deriving DecidableEq, Repr

/-- An accepted 61162-450 datagram in the receive buffer (R270, R273), with the name of its group entry, ETH_RX_CFG.SUM and ETH_DUP_CFG as
they stood when the MAC accepted it (R272, R283). -/
structure Datagram where
  bytes : List Byte
  stamp : Edge
  group : Nat
  size : Nat
  name : Word
  sum : Nat
  dup : Word
  deriving DecidableEq, Repr

/-- What a frame of the PTP engine is, and what happens at its departure (R101 to R105). -/
inductive PtpKind where
  | sync
  | followUp
  | delayReq
  | delayResp
  | pdelayReq
  | pdelayResp
  | pdelayFollow
  /-- A forwarded message: the receive stamp and the mean path delay to add; a general message adds nothing. -/
  | forward (event : Bool) (rx : Stamp) (extra : Int)
  deriving DecidableEq, Repr

/-- A frame that the PTP engine wants sent (R101). -/
structure PtpFrame where
  kind : PtpKind
  bytes : List Byte
  /-- The receipt of the request that a Pdelay_Resp answers. -/
  ref : Stamp
  /-- The correctionField of that request. -/
  corr : Int
  deriving DecidableEq, Repr

/-- What a transmitted frame is (R277). -/
inductive TxFrame where
  | ptp (f : PtpFrame)
  | launch (f : LaunchFrame)
  | copy (c : Copy)
  deriving DecidableEq, Repr

/-- A two-step Sync waiting for its Follow_Up (R88): the port identity of its sender, its sequence, receive edge and correction. -/
structure SyncWait where
  source : List Byte
  seq : Nat
  rx : Edge
  corr : Int
  deriving DecidableEq, Repr

/-- A PTP port beside its registers (R87, R101). -/
structure PtpPort where
  queue : List PtpFrame
  syncSeq : Nat
  dreqSeq : Nat
  pdreqSeq : Nat
  sync : Option SyncWait
  /-- The last Sync: its receive edge and origin time with correction, for the delay measurement: t1, t2. -/
  last : Option (Edge × Int)
  /-- Departure of the last Delay_Req or Pdelay_Req, with its sequence. -/
  dreq : Option (Nat × Edge)
  pdreq : Option (Nat × Edge)
  /-- A two-step Pdelay_Resp waiting for its Pdelay_Resp_Follow_Up: sequence, receive edge, t2, correction. -/
  presp : Option (Nat × Edge × Int)
  mean : Option Int
  /-- Ticks at which the timers last ran out. -/
  syncTb : Nat
  pdreqTb : Nat
  deriving DecidableEq, Repr

/-- A PTP port after a full reset. -/
def PtpPort.init : PtpPort :=
  { queue := [], syncSeq := 0, dreqSeq := 0, pdreqSeq := 0, sync := none, last := none, dreq := none, pdreq := none, presp := none,
    mean := none, syncTb := 0, pdreqTb := 0 }

/-- An Ethernet port (R268 to R285). -/
structure EthPort where
  link : Bool
  speedFault : Bool
  buffer : List Datagram
  launches : List LaunchFrame
  tx : Option (TxFrame × List Byte × Edge)
  /-- Tick at which the frame in transmission ends. -/
  endTb : Nat
  ident : Nat
  ptp : PtpPort
  /-- PORT_DISABLE waits for the end of the frame in transmission: its slot (R285). -/
  closing : Option Nat
  deriving DecidableEq, Repr

/-- An Ethernet port after a full reset. -/
def EthPort.init : EthPort :=
  { link := false, speedFault := false, buffer := [], launches := [], tx := none, endTb := 0, ident := 0, ptp := PtpPort.init, closing := none }

/-- A source of the duplicate table (R276): SFI, group name, its line counts with the tick each was seen, the tick last seen. -/
structure DupSource where
  sfi : List Byte
  group : Word
  counts : List (Nat × Nat)
  seenTb : Nat
  deriving DecidableEq, Repr

/-! ## Cabinet bus bridge (13_cabinet_bus.md) -/

/-- A posted write cycle (R296). -/
structure WriteCycle where
  seq : Nat
  window : Nat
  addr : Nat
  strobes : Nat
  data : Nat
  timeout : Nat
  /-- The tick of its acceptance (R304). -/
  tb : Nat
  deriving DecidableEq, Repr

/-- A cycle of a host read, or of a prefetch: far word address, strobes, byte order. -/
structure ReadCycle where
  addr : Nat
  strobes : Nat
  deriving DecidableEq, Repr

/-- A BAR4 read in progress (R298). -/
structure FarHostRead where
  window : Nat
  big : Bool
  timeout : Nat
  /-- Bytes of the access: enabled, and the far address of each. -/
  enables : List Bool
  far : Nat
  off : Nat
  cycles : List ReadCycle
  /-- Far bytes read so far. -/
  got : SMap Byte
  startTb : Nat
  /-- Posted writes that must finish first. -/
  after : Nat
  started : Bool
  pref : Bool
  deriving DecidableEq, Repr

/-- A locked read-modify-write in progress (R299). -/
structure FarRmw where
  slot : Nat
  addr : Nat
  andMask : Nat
  orMask : Nat
  after : Nat
  old : Option Nat
  seq : Nat
  /-- The tick at which it began to wait for the bus (R304). -/
  tb : Nat
  deriving DecidableEq, Repr

/-- The master cycle on the bus, by what issued it (R291, R306). -/
inductive CycleOp where
  | posted (w : WriteCycle)
  | read (c : ReadCycle)
  | prefetch (window : Nat) (c : ReadCycle)
  | rmwRead
  | rmwWrite
  deriving DecidableEq, Repr

/-- A prefetch line (R300): far address of its first byte, its words, and the tick it was read. -/
structure PrefLine where
  addr : Nat
  /-- Eight words, each with whether it was delivered. -/
  words : List (Nat × Bool)
  readTb : Nat
  deriving DecidableEq, Repr

/-- A prefetch in progress in a window. -/
structure Prefetch where
  window : Nat
  addr : Nat
  words : List Nat
  /-- Invalidated while being fetched: its words are discarded as they arrive. -/
  dead : Bool
  inj : Bool
  deriving DecidableEq, Repr

/-- A far read waiting for its host completion (R302). -/
structure FarReadWait where
  window : Nat
  addr : Nat
  host : Nat
  len : Nat
  strobes : Nat
  big : Bool
  /-- Answered with retry, or the bridge has been disabled since: its data is dropped on arrival (R304, R308). -/
  dropped : Bool
  /-- Its memory read has gone out: it waits while no further read may (R30, R60). -/
  sent : Bool
  deriving DecidableEq, Repr

/-- The bridge (R289 to R308). -/
structure Bridge where
  posted : List WriteCycle
  nextSeq : Nat
  finished : Nat
  failed : Nat
  /-- Finished and failed write cycles counted by the last completed fence (R305). -/
  fenceDone : Nat
  fenceFailed : Nat
  reads : List FarHostRead
  rmw : Option FarRmw
  cycle : Option CycleOp
  cycleTb : Nat
  retries : Nat
  retryTb : Option Nat
  /-- Prefetches to run: window and line address. -/
  prefWant : List (Nat × Nat)
  pref : Option Prefetch
  lines : SMap (Option PrefLine)
  /-- A far master asks for the bus, and owns it since this tick. -/
  breq : Bool
  grantTb : Option Nat
  hostCycles : Nat
  /-- Host work waits for the bus since this tick. -/
  waitTb : Option Nat
  backoff : Bool
  holdSaid : Bool
  /-- No far master is granted until the host work is done (R304). -/
  hostFirst : Bool
  farReads : List FarReadWait
  /-- Far writes acknowledged and not yet issued to host memory, oldest first: host address and bytes (R302). -/
  reverse : List (Nat × List Byte)
  farAcked : Nat
  /-- The end of the last write cycle (R305). -/
  lastEnd : Stamp
  deriving DecidableEq, Repr

/-- The bridge after a full reset. -/
def Bridge.init : Bridge :=
  { posted := [], nextSeq := 1, finished := 0, failed := 0, fenceDone := 0, fenceFailed := 0, reads := [], rmw := none,
    cycle := none, cycleTb := 0, retries := 0, retryTb := none, prefWant := [], pref := none, lines := [], breq := false,
    grantTb := none, hostCycles := 0, waitTb := none, backoff := false, holdSaid := false, hostFirst := false, farReads := [],
    reverse := [], farAcked := 0, lastEnd := 0 }

/-! ## Panels (14_repeater_panels.md) -/

/-- Where the targets of a panel request come from (R316). -/
inductive PanelSrc where
  | bindings
  | image (bytes : List Byte)
  | payload (bytes : List Byte)
  | recovery
  deriving DecidableEq, Repr

/-- A pending panel request (R317). -/
structure PanelReq where
  region : Nat
  src : PanelSrc
  slot : Option Nat
  deriving DecidableEq, Repr

/-- A running panel update (R319): the drive codes of each segment for each frame, the frame to come, and its compensation. -/
structure PanelRun where
  region : Nat
  slot : Option Nat
  /-- (segment, codes of its frames). -/
  segs : List (Nat × List Nat)
  frames : Nat
  comp : Nat
  next : Nat
  first : Nat
  last : Nat
  deriving DecidableEq, Repr

/-- A panel port beside its registers (R309 to R325). -/
structure PanelPort where
  reqs : List PanelReq
  runs : List PanelRun
  /-- Panel temperature in units of 1/16 °C, when the last sensor read was good. -/
  temp : Option Int
  sensorTb : Nat
  crcTb : Nat
  frameMs : Nat
  /-- PORT_DISABLE, or a loss of ownership, waits for the boundary: the command slot to complete, if any. -/
  closing : Option (Option Nat)
  pendSet : Option (List Word × Nat)
  deriving DecidableEq, Repr

/-- A panel port after a full reset. -/
def PanelPort.init : PanelPort := ⟨[], [], none, 0, 0, 0, none, none⟩

/-! ## Integrity (15_integrity.md) -/

/-- An injection arm (R339). -/
structure Arm where
  det : Nat
  mode : Nat
  n : Nat
  left : Nat
  unit : Nat
  isolate : Bool
  startTb : Nat
  deriving DecidableEq, Repr

/-- A crossing trip in WEDGE_LOG (R343). -/
structure Wedge where
  unit : Nat
  detail : Nat
  sec : Nat
  ns : Nat
  deriving DecidableEq, Repr

/-- Injection, wedges and rate limits (R330, R339 to R346). -/
structure Integrity where
  arms : SMap (Option Arm)
  wedges : List Wedge
  /-- Units wedged, as class × 65536 + number. -/
  wedged : List Nat
  stopped : Bool
  pxWedged : Bool
  /-- Ticks, plus 1, at which limit periods began. -/
  limits : SMap Nat
  /-- Clocks that are absent (R14): as 0–3 for E0–E3, 8 for PX, 11 for JT. -/
  lost : List Nat
  deriving DecidableEq, Repr

/-- Integrity after a full reset. -/
def Integrity.init : Integrity := ⟨[], [], [], false, false, [], []⟩

/-! ## Reset, boot, power and pairing (16_reset_power_pairing.md) -/

/-- The states of the test access port's controller (R388; IEEE 1149.1). -/
inductive TapState where
  | testLogicReset
  | runTestIdle
  | selectDr
  | captureDr
  | shiftDr
  | exit1Dr
  | pauseDr
  | exit2Dr
  | updateDr
  | selectIr
  | captureIr
  | shiftIr
  | exit1Ir
  | pauseIr
  | exit2Ir
  | updateIr
  deriving DecidableEq, Repr

/-- The test access port (R353, R388): its controller, and the cells of the boundary-scan register, shift path and update latches, by
their place. No full reset affects it. -/
structure Tap where
  state : TapState
  shift : List Bool
  latch : List Bool
  deriving DecidableEq, Repr

/-- The port after its own reset, by TRST_N or with VAON. -/
def Tap.init : Tap := ⟨.testLogicReset, [], []⟩

/-- The power state (R360 to R362). Trim is Run with VID_STATUS.TRIM at 1 (R26). -/
inductive Phase where
  /-- VAON is absent. -/
  | off
  /-- VAON is up, the rails rise: power enables raised so far, 0 to 3 (R351). -/
  | rails (step : Nat)
  /-- RESET_N is low and a full reset holds. -/
  | held
  /-- Released: the boot sequencer waits for PLL lock or boots. -/
  | boot
  | run
  /-- SLEEP_ENTER has committed: power-down steps done, 0 to 4 (R361). -/
  | sleeping (step : Nat)
  | watch
  /-- Woken: power enables raised so far, 0 to 3 (R362). -/
  | waking (step : Nat)
  deriving DecidableEq, Repr

/-- What lives on VAON beside the always-on registers, and the straps (R360 to R363, R351, R364). -/
structure Power where
  phase : Phase
  /-- Levels of PWR_EN_IO, PWR_EN_CORE, PWR_EN_SD, and the PWR_EN_SC that are high. -/
  enIo : Bool
  enCore : Bool
  enSd : Bool
  enSc : List Nat
  /-- REFSEL and PAIR_SIDE as last sampled. -/
  ref25 : Bool
  sideB : Bool
  /-- The VDDIO banks sensed at the 3.3 V level at the last release of RESET_N: SC0 to SC7, then MISC (R371). -/
  io33 : BitVec 9
  watches : List Watch
  /-- The watch receivers that a committed SLEEP_ENTER names: number and port. -/
  named : List (Nat × Nat)
  /-- The tick of the message of SLEEP_ENTER (R361), and its slot while its completion is held. -/
  entryTb : Nat
  entrySlot : Option Nat
  /-- A wake has occurred since entry (R362). -/
  woke : Bool
  /-- SL periods asleep, from the end of the entry (R362). -/
  slPeriods : Nat
  /-- The VID balls are driven: they are high-impedance while RESET_N is low (R351). -/
  vidOn : Bool
  deriving DecidableEq, Repr

/-- Power at the moment after a power-on reset, before RESET_N is released (R349, R351). -/
def Power.init : Power :=
  { phase := .held, enIo := true, enCore := true, enSd := true, enSc := [0, 1, 2, 3, 4, 5, 6, 7], ref25 := false, sideB := false,
    io33 := 0, watches := [], named := [], entryTb := 0, entrySlot := none, woke := false, slPeriods := 0,
    vidOn := false }

/-- The pair link (R364 to R368). -/
structure Pair where
  /-- Endpoints owned while PAIR_CTRL.EN is 1, ascending. -/
  owned : List Nat
  /-- Of those, the ones held by takeover. -/
  taken : List Nat
  /-- Released, and still finishing its copy or frame (R367). -/
  releasing : List Nat
  seq : Nat
  /-- Departures kept, newest first, at most four: (sequence, edge) (R366). -/
  departs : List (Nat × Edge)
  /-- Arrivals kept: (partner sequence, edge), newest first. -/
  arrivals : List (Nat × Edge)
  heard : Bool
  /-- The partner has been heard at least once since EN or reset. -/
  heardTb : Nat
  /-- Tick from which the partner has been heard without silence. -/
  sinceTb : Nat
  silent : Bool
  /-- The present silence has been acted on, with this level of PAIR_ALIVE_IN. -/
  acted : Option Bool
  partnerOwn : List Nat
  partnerHome : List Nat
  aliveIn : Bool
  fault : Bool
  mismatch : Bool
  /-- Tick of the last heartbeat started, plus 1. -/
  beatTb : Nat
  /-- A message is being sent, unacknowledged; the tick it started. -/
  sending : Option Nat
  deriving DecidableEq, Repr

/-- The pair link after a full reset. -/
def Pair.init : Pair :=
  { owned := [], taken := [], releasing := [], seq := 0, departs := [], arrivals := [], heard := false, heardTb := 0, sinceTb := 0,
    silent := false, acted := none, partnerOwn := [], partnerHome := [], aliveIn := false, fault := false, mismatch := false,
    beatTb := 0, sending := none }

/-! ## What leaves the hub -/

/-- One thing that the hub drove or answered outside, in the order in which it did (log 6). -/
inductive Out where
  /-- A read of BAR0, BAR2 or BAR4 answered with these bytes. -/
  | readReply (bar off : Nat) (bytes : List Byte)
  | dmaWrite (addr : Nat) (bytes : List Byte)
  | dmaRead (slot addr len : Nat)
  | farDmaRead (addr len : Nat)
  | refetchRead (flash : Bool) (addr len : Nat)
  | msix (vector addr : Nat) (data : Word)
  | flash (op : Nat) (off : Nat) (bytes : List Byte) (len : Nat)
  | serialItem (p : Nat) (bytes : List Byte) (start : Stamp)
  | serialLeash (p : Nat) (xoff : Bool)
  /-- The transmitter stops within a bit, and DE falls (R147). -/
  | serialStop (p : Nat)
  | canFrame (n : Nat) (frame : CanFrame)
  /-- The ACK slot of a received frame is driven dominant (R246, R250). -/
  | canAck (n : Nat)
  /-- An error flag, active or passive (R246, R263). -/
  | canErrorFlag (n : Nat) (active : Bool)
  | ethFrame (n : Nat) (bytes : List Byte)
  | mdio (cmd : Word)
  | pulseLead (m : Nat) (high : Bool) (at50ps : Int)
  | pulseTrail (m : Nat) (high : Bool) (at50ps : Int)
  | cabinet (write locked : Bool) (addr strobes data : Nat)
  | farGrant (on : Bool)
  | farAck (retry berr : Bool) (data : Nat)
  /-- The bits of a frame shift in the order of the link, and the segments that they drive with the codes (R310). -/
  | panelFrame (n : Nat) (bits : List Bool) (codes : List (Nat × Nat))
  /-- A sensor read (R312): the bits sent with STB high, and the number of bits then sampled. -/
  | panelSensor (n : Nat) (command : List Bool) (sampled : Nat)
  | vid (code : Nat)
  /-- The VID balls become high-impedance (R351). -/
  | vidReleased
  | powerEnable (ball : Nat) (on : Bool)
  | heartbeat (words : List Word)
  | pairAliveOut (on : Bool)
  | linkDown
  deriving DecidableEq, Repr

/-! ## Faults and refusals -/

/-- The ways a step can stop with a fault. -/
inductive Fault where
  /-- A BAR2 or BAR4 command names an offset outside its 16 MiB (R31): raised by BAR2_READ, BAR2_WRITE, BAR4_WRITE, BAR4_READ
  and BAR4_UNSERVED_ACCESS. Safe: no such access can reach the hub. -/
  | outsideBar
  deriving DecidableEq, Repr

/-- The ways a step can refuse a command. -/
inductive Refusal where
  /-- The command has no meaning yet: raised by exec alone. Safe. -/
  | notModelled (mnemonic : String)
  deriving DecidableEq, Repr

/-! ## The state of the hub -/

/-- Everything the spec gives the hub, the queue of waiting commands, and the model's own counter of free values. -/
structure State where
  /-- Commands that wait, first in, first out. -/
  pending : List Instr
  power : Power
  time : TimeCore
  vid : VidCtl
  regions : SMap Region
  /-- The table each TDC uses: 0 production, 1 buffer 0, 2 buffer 1 (R82). -/
  tdcUse : SMap Nat
  /-- Registers, keyed by BAR0 offset; an unlisted one holds its reset value (R4, R7). -/
  regs : SMap Word
  /-- Totals of the statistics block, keyed 32 × offset + low bit of the counter field (R36). -/
  totals : SMap Nat
  host : HostIf
  rings : SMap Ring
  /-- Memories with check bits (R18, R328). -/
  kennel : SMap MemWord
  scratch : SMap MemWord
  slots : SMap MemWord
  prog : SMap MemWord
  routes : SMap MemWord
  lsts : SMap MemWord
  sets : SMap MemWord
  talkers : SMap MemWord
  /-- The listener queue pool: 16 words for each granule (R18, R228). -/
  pool : SMap MemWord
  herder : Herder
  pack : Pack
  lq : Listeners
  evIn : SMap EvIn
  evOut : SMap EvOut
  serial : SMap SerialPort
  can : SMap CanPort
  eth : SMap EthPort
  dups : List DupSource
  bridge : Bridge
  panels : SMap PanelPort
  /-- PN_REGION, PN_BIND and PN_WAVE with their check bits, keyed by offset (R338). -/
  panelSet : SMap MemWord
  /-- Ledger words with their check bits, keyed 256 × port + word (R321). -/
  ledgers : SMap MemWord
  integ : Integrity
  pair : Pair
  tap : Tap
  /-- The model's own counter of free values (log 20). -/
  freeCount : Nat
  /-- What the hub drove or answered outside, oldest first. -/
  out : List Out
  deriving DecidableEq, Repr

/-- The hub right after a power-on reset, before RESET_N is released: every field at its reset value (R7, R352, R353). -/
def State.reset : State :=
  { pending := [], power := Power.init, time := TimeCore.init, vid := VidCtl.init, regions := [], tdcUse := [], regs := [],
    totals := [], host := HostIf.init, rings := [], kennel := [], scratch := [], slots := [], prog := [], routes := [], lsts := [],
    sets := [], talkers := [], pool := [], herder := Herder.init, pack := Pack.init, lq := Listeners.init, evIn := [], evOut := [],
    serial := [], can := [], eth := [], dups := [], bridge := Bridge.init, panels := [], panelSet := [], ledgers := [],
    integ := Integrity.init,
    pair := Pair.init, tap := Tap.init, freeCount := 0, out := [] }

end Sys2Proof.Machine
end

