-- ==== Sys2Proof/Machine/Ops.lean ====
section
/-! DEFINITION. The operations that the meanings share: registers and counters, the clock and comparisons of times, rings,
events and messages, completions, detectors and injection, checked memories, ownership. -/

namespace Sys2Proof.Machine

/-! ## Free values (log 20) -/

/-- The next free bit. -/
def takeBit (s : State) : State × Bool :=
  ({ s with freeCount := s.freeCount + 1 }, Config.freeBit s.freeCount)

/-- The next free word. -/
def takeWord (s : State) : State × Word :=
  ({ s with freeCount := s.freeCount + 1 }, Config.freeWord s.freeCount)

/-- One thing leaves the hub. -/
def emit (s : State) (o : Out) : State := { s with out := s.out ++ [o] }

/-! ## Registers (R4 to R7, R393) -/

/-- An offset from a row's base falls on a register of an array of these dimensions. -/
def inDims : List (Nat × Nat) → Nat → Bool
  | [], d => d == 0
  | (stride, count) :: ds, d => decide (d / stride < count) && inDims ds (d % stride)

/-- The row of the register index that an offset belongs to. -/
def specIn : List RegSpec → Nat → Option RegSpec
  | [], _ => none
  | r :: rs, off => if r.base ≤ off && inDims r.dims (off - r.base) then some r else specIn rs off

/-- The row of the register index that an offset belongs to. -/
def regSpec (off : Nat) : Option RegSpec := specIn regTable off

/-- The offset lies in [base, base + len). -/
def within (off base len : Nat) : Bool := decide (base ≤ off) && decide (off < base + len)

/-- The value of a register after a full reset (R7): the Reset column, with the values that depend on the instance: the ring
vectors of R56, URGENT of class 3, the fused skews, the CRC of an all-light image, masked MSI-X vectors (log 8) and the default
NAMEs of R256. -/
def regReset (off : Nat) : Word :=
  if within off 0x06400 656 && off % 4 == 0 then (Config.tdcSkew ((off - 0x06400) / 4)).setWidth 32
  else if within off 0x01800 512 && off % 32 == 8 then BitVec.ofNat 32 (0x00080000 + (2 + (off - 0x01800) / 32) * 0x1000000)
  else if within off 0x02000 512 && off % 16 == 12 then 1#32
  else if off == 0x40018 + 0x30 then 0x80000080#32
  else if within off 0x68000 0x8000 && off % 0x1000 == 0x18 then crc32 (List.replicate 64 0)
  else if within off 0x30000 0x8000 && within (off % 0x1000) 0x800 2032 then
    (if off % 8 == 0 then BitVec.ofNat 32 (0xFFFFFF00 + (off % 0x1000 - 0x800) / 8) else 0xFFFFFFFF#32)
  else match regSpec off with
    | some r => r.reset
    | none => 0#32

/-- The value a register holds. -/
def reg (s : State) (off : Nat) : Word := sget (regReset off) s.regs off

/-- A register takes a value. -/
def setReg (s : State) (off : Nat) (v : Word) : State := { s with regs := sset (regReset off) s.regs off v }

/-- A field of a register. -/
def regF (s : State) (off hi lo : Nat) : Nat := fld (reg s off) hi lo

/-- One bit of a register. -/
def regB (s : State) (off i : Nat) : Bool := bit (reg s off) i

/-- A field of a register takes a value. -/
def setF (s : State) (off hi lo v : Nat) : State := setReg s off (setFld (reg s off) hi lo v)

/-- A counter field counts n events: it saturates, and the total of the statistics block wraps (R36). -/
def count (s : State) (off hi lo n : Nat) : State :=
  let s := setF s off hi lo (satAdd (regF s off hi lo) n (2 ^ (hi + 1 - lo) - 1))
  { s with totals := sset 0 s.totals (32 * off + lo) ((sget 0 s.totals (32 * off + lo) + n) % 2 ^ 32) }

/-- The total of a counter field since the last full reset (R36). -/
def total (s : State) (off lo : Nat) : Nat := sget 0 s.totals (32 * off + lo)

/-- A field with a value in effect: values outside the range act as its ends (R395). -/
def regClamp (s : State) (off hi lo least most : Nat) : Nat := clampNat least most (regF s off hi lo)

/-! ## Where the hub stands -/

/-- The hub is out of reset and powered (R360). -/
def powered (s : State) : Bool :=
  match s.power.phase with
  | .boot => true
  | .run => true
  | .sleeping 0 => true
  | _ => false

/-- The core works: out of reset and not stopped (R345). -/
def alive (s : State) : Bool := powered s && !s.integ.stopped

/-- TB runs as well (R63). -/
def ticking (s : State) : Bool := alive s && s.time.locked

/-- TB runs: while the hub is powered and the PLL has locked, stopped or not (R63, R345). -/
def tbRuns (s : State) : Bool := powered s && s.time.locked

/-- BAR0 answers (R29, R345). -/
def bar0Ok (s : State) : Bool := powered s && s.host.usable && !s.integ.pxWedged && !s.integ.lost.contains 8

/-- The posted queue of the bridge is full, so that every host posted write to the hub waits (R296). -/
def postedFull (s : State) : Bool := decide (128 ≤ s.bridge.posted.length)

/-- A host write of BAR0 acts: BAR0 answers, and posted writes are not held back (R296, log 25). -/
def bar0Writes (s : State) : Bool := bar0Ok s && !postedFull s

/-- The hub may issue memory requests (R14, R30). -/
def hostMem (s : State) : Bool := powered s && !s.host.d3 && !s.integ.pxWedged && !s.integ.lost.contains 8

/-! ## Times (R63 to R69) -/

/-- 2^48 s in units of 2^-16 ns: a stamp is taken modulo this. -/
def stampMod : Nat := 2 ^ 48 * 1000000000 * 65536

/-- The clock as a full stamp (R65). -/
def now (s : State) : Stamp := s.time.clk / 2 ^ 22

/-- Seconds of a stamp. -/
def stSec (t : Stamp) : Nat := t / 65536 / 1000000000

/-- Nanoseconds of a stamp. -/
def stNs (t : Stamp) : Nat := t / 65536 % 1000000000

/-- Fraction of a stamp. -/
def stFrac (t : Stamp) : Nat := t % 65536

/-- A stamp moved by a signed amount, with borrow and carry across ns and seconds (R75). -/
def stMove (t : Stamp) (d : Int) : Stamp := (((t : Int) + d) % (stampMod : Int)).toNat

/-- A TB tick: the clock with fraction 0 (R111, R112). -/
def tickStamp (s : State) : Stamp := now s / 65536 * 65536

/-- A stamp of the present instant, with an epoch. -/
def edgeNow (s : State) (epoch : Nat) : Edge := ⟨now s, epoch, s.time.steps⟩

/-- The short stamp words of a stamp (R66): seconds [31:0] and nanoseconds. -/
def shortSec (t : Stamp) : Word := BitVec.ofNat 32 (stSec t)

/-- Nanoseconds of a stamp as a word. -/
def shortNs (t : Stamp) : Word := BitVec.ofNat 32 (stNs t)

/-- A full stamp as three words (R65): bits [95:64], [63:32] and [31:0]. -/
def stampWords (t : Stamp) : List Word :=
  let n := stSec t * 2 ^ 48 + stNs t * 65536 + stFrac t
  [BitVec.ofNat 32 (n / 2 ^ 64), BitVec.ofNat 32 (n / 2 ^ 32), BitVec.ofNat 32 n]

/-- A full stamp from its three words. -/
def wordsStamp (a b c : Word) : Stamp :=
  let n := a.toNat * 2 ^ 64 + b.toNat * 2 ^ 32 + c.toNat
  (n / 2 ^ 48 * 1000000000 + n / 65536 % 2 ^ 30) * 65536 + n % 65536

/-- D of R68 for two short stamps. -/
def dDiff (aSec aNs bSec bNs : Word) : Int :=
  (aSec - bSec).toInt * 1000000000 + ((aNs.toNat : Int) - (bNs.toNat : Int))

/-- D(clock, target). -/
def dNow (s : State) (sec ns : Word) : Int := dDiff (shortSec (now s)) (shortNs (now s)) sec ns

/-- A target set at a tick is reached: D(clock, t) ≥ 0 at a later tick (R68). -/
def reached (s : State) (sec ns : Word) (setTb : Nat) : Bool := decide (setTb < s.time.tb) && decide (0 ≤ dNow s sec ns)

/-- A launch time, where there is one, that was set at a tick is reached, or was before a clock step (R68, R70). -/
def launched (s : State) (launch : Option (Word × Word)) (setTb : Nat) (released : Bool) : Bool :=
  released || launch.all (fun t => reached s t.1 t.2 setTb)

/-- A short stamp moved later by nanoseconds, carrying into seconds at 10^9 (R71). -/
def shortAdd (sec ns : Word) (d : Nat) : Word × Word :=
  (sec + BitVec.ofNat 32 ((ns.toNat + d) / 1000000000), BitVec.ofNat 32 ((ns.toNat + d) % 1000000000))

/-- Ticks since a tick. -/
def sinceTb (s : State) (tb : Nat) : Nat := s.time.tb - tb

/-- DRAIN_CLOCK (R242). -/
def drainMs (s : State) : Nat := s.time.tb / Config.tickMs

/-! ## Rings (R50 to R57) -/

/-- Register block of a ring: 0 the completion ring, 1 the event ring, 2 + n host ring n. -/
def ringOff (r : Nat) : Nat := if r == 0 then 0x01400 else if r == 1 then 0x02C00 else 0x01800 + 0x20 * (r - 2)

/-- Bytes of a ring's unit. -/
def ringUnit (r : Nat) : Nat := if r == 0 then 16 else if r == 1 then 32 else 64

/-- Log2 of units that a SIZE field asks of a ring (R50). -/
def ringLog (r size : Nat) : Nat := clampNat (if r == 0 then 8 else 6) 16 size

/-- What a ring holds beside its registers. -/
def ring (s : State) (r : Nat) : Ring := sget Ring.init s.rings r

/-- A ring changes. -/
def setRing (s : State) (r : Nat) (v : Ring) : State := { s with rings := sset Ring.init s.rings r v }

/-- Units in a ring of the size in force. -/
def ringUnits (s : State) (r : Nat) : Nat := 2 ^ (ring s r).size

/-- CTRL.EN of a ring. -/
def ringEn (s : State) (r : Nat) : Bool := regB s (ringOff r + 8) 31

/-- HEAD of a ring. -/
def ringHead (s : State) (r : Nat) : Nat := regF s (ringOff r + 12) 15 0

/-- TAIL of a ring. -/
def ringTail (s : State) (r : Nat) : Nat := regF s (ringOff r + 16) 15 0

/-- Units that may be written before the ring is full: one unit stays unused. -/
def ringFree (s : State) (r : Nat) : Nat :=
  (ringHead s r + 2 * ringUnits s r - ringTail s r - 1) % ringUnits s r

/-- The ring takes n more units: it is enabled, the hub may write to host memory (R30), and there is room. -/
def ringRoom (s : State) (r n : Nat) : Bool := ringEn s r && hostMem s && decide (n ≤ ringFree s r)

/-- Memory writes of bytes, no longer than the payload size and not across 4 KiB (R60). -/
def dmaChunks : Nat → Nat → List Byte → List Out
  | 0, _, _ => []
  | _, _, [] => []
  | fuel + 1, addr, bs =>
    let n := min (min bs.length Config.maxPayload) (4096 - addr % 4096)
    Out.dmaWrite addr (bs.take n) :: dmaChunks fuel (addr + n) (bs.drop n)

/-- The hub writes bytes to host memory. -/
def dmaWrite (s : State) (addr : Nat) (bs : List Byte) : State := { s with out := s.out ++ dmaChunks (bs.length + 1) addr bs }

/-- The hub writes an entry of whole units at TAIL: all bytes but the PHASE word, then that word, then TAIL advances (R57). -/
def ringWrite (s : State) (r units : Nat) (words : List Word) : State :=
  let g := ring s r
  let addr := g.base + ringTail s r * ringUnit r
  let w0 := setFld (words.headD 0) 31 31 (b2n g.phase)
  let s := dmaWrite s (addr + 4) (wordsBytes (words.drop 1))
  let s := dmaWrite s addr (wordBytes w0)
  let t := ringTail s r + units
  let s := setRing s r { g with phase := if ringUnits s r ≤ t then !g.phase else g.phase }
  setF s (ringOff r + 16) 15 0 (t % ringUnits s r)

/-- An MSI-X message of a vector: issued, or kept as its pending bit while it is masked or the function is in D3hot (R58, R30). -/
def message (s : State) (v : Nat) : State :=
  if !s.host.msix then s
  else if regB s (Reg.msixTable v 3) 0 || !hostMem s then setReg s Reg.msixPba (reg s Reg.msixPba ||| BitVec.ofNat 32 (2 ^ v))
  else emit s (.msix v ((reg s (Reg.msixTable v 1)).toNat * 2 ^ 32 + (reg s (Reg.msixTable v 0)).toNat) (reg s (Reg.msixTable v 2)))

/-- The ring's message is issued, and its unannounced entries are announced (R50, R58). -/
def ringMessage (s : State) (r : Nat) : State :=
  message (setRing s r { ring s r with unann := 0, firstTb := 0 }) (regF s (ringOff r + 8) 28 24)

/-- An entry has been written: it counts towards the ring's message (R50). -/
def ringAnnounce (s : State) (r : Nat) : State :=
  let g := ring s r
  let s := setRing s r { g with unann := g.unann + 1, firstTb := if g.unann == 0 then s.time.tb else g.firstTb }
  if max 1 (regF s (ringOff r + 8) 15 8) ≤ g.unann + 1 then ringMessage s r else s

/-- The stamp field of a host ring entry (R53). -/
def stampField (t : Stamp) (epoch : Nat) (lost : Bool) : List Word :=
  [BitVec.ofNat 32 (stSec t),
   BitVec.ofNat 32 (stSec t / 2 ^ 32 % 65536 + epoch % 16 * 65536 + b2n lost * 2 ^ 31),
   BitVec.ofNat 32 (stNs t), BitVec.ofNat 32 (stFrac t)]

/-- Units of a host ring entry with a payload of n bytes behind its 16-byte header (R53). -/
def hrUnits (n : Nat) : Nat := ceilDiv (16 + n) 64

/-- Units that an entry takes with the pad it may need before the end of the ring (R53). -/
def hrNeed (s : State) (r n : Nat) : Nat :=
  let left := ringUnits s r - ringTail s r
  if left < hrUnits n then left + hrUnits n else hrUnits n

/-- Host ring n has room for an entry with this payload length. -/
def hrRoom (s : State) (n len : Nat) : Bool := ringRoom s (n + 2) (hrNeed s (n + 2) len)

/-- The header of a host ring entry. -/
def hrHeader (kind units listener len seq : Nat) (inj : Bool) : List Word :=
  [BitVec.ofNat 32 (b2n inj * 2 ^ 30 + kind * 2 ^ 24 + units * 65536), BitVec.ofNat 32 (listener * 65536 + len),
   BitVec.ofNat 32 seq, 0]

/-- Bytes padded with zeros to whole words. -/
def padWords (bs : List Byte) : List Word := bytesWords (ceilDiv bs.length 4) bs

/-- The hub writes an entry to host ring n, behind a pad entry where it would wrap (R53). -/
def hrWrite (s : State) (n kind listener : Nat) (inj : Bool) (payload : List Byte) : State :=
  let r := n + 2
  let units := hrUnits payload.length
  let left := ringUnits s r - ringTail s r
  let s := if left < units then ringWrite s r left (hrHeader 0 left 0 0 0 false) else s
  let g := ring s r
  let s := ringWrite s r units (hrHeader kind units listener payload.length g.seq inj ++ padWords payload)
  ringAnnounce (setRing s r { ring s r with seq := (g.seq + 1) % 2 ^ 32 }) r

/-! ## Events (R52, R54) -/

/-- An event: it takes the next number, and its entry is written or dropped. -/
def event (s : State) (kind det unit : Nat) (d2 d3 : Nat) (inj : Bool) (at_ : Stamp) : State :=
  let seq := s.host.evSeq
  let s := { s with host := { s.host with evSeq := (seq + 1) % 65536 } }
  if ringRoom s 1 1 then
    let w0 := BitVec.ofNat 32 (b2n inj * 2 ^ 30 + b2n s.host.ovf * 2 ^ 29 + kind * 65536 + det)
    let s := { s with host := { s.host with ovf := false } }
    ringAnnounce (ringWrite s 1 1 [w0, BitVec.ofNat 32 unit, BitVec.ofNat 32 d2, BitVec.ofNat 32 d3,
      BitVec.ofNat 32 (stSec at_ / 2 ^ 32), BitVec.ofNat 32 (stSec at_), BitVec.ofNat 32 (stNs at_),
      BitVec.ofNat 32 (seq * 65536 + stFrac at_)]) 1
  else
    setF { s with host := { s.host with ovf := true } } (ringOff 1 + 20) 15 0 (satAdd (regF s (ringOff 1 + 20) 15 0) 1 65535)

/-- A unit as class and number (R52). -/
def unitOf (cls num : Nat) : Nat := cls * 65536 + num

/-- The key of a limit period: detector, unit, and what else the rule limits by. -/
def limitKey (det unit extra : Nat) : Nat := (det * 2 ^ 24 + unit) * 1024 + extra

/-- A limit period of a detector is running. -/
def limited (s : State) (key : Nat) : Bool :=
  let t := sget 0 s.integ.limits key
  decide (0 < t) && decide (s.time.tb < t - 1 + Config.tickLimit)

/-- A detector fires (R330): it is counted; an event entry is written unless masked or held back by a running limit period of
the rule; an entry that a limit governs starts a period when it is written, an injected one does not, nor does one that the event ring
drops (R54). -/
def fireAt (s : State) (det unit : Nat) (d2 d3 : Nat) (inj : Bool) (limit : Option Nat) (at_ : Stamp) : State :=
  let s := setReg s (Reg.detCount det) (BitVec.ofNat 32 (satAdd (reg s (Reg.detCount det)).toNat 1 0xFFFFFFFF))
  let s := { s with totals := sset 0 s.totals (32 * Reg.detCount det) ((sget 0 s.totals (32 * Reg.detCount det) + 1) % 2 ^ 32) }
  if regB s (Reg.detEvtMask (det / 32)) (det % 32) then s
  else match limit with
    | none => event s 0 det unit d2 d3 inj at_
    | some key =>
      if inj then event s 0 det unit d2 d3 inj at_
      else if limited s key then s
      else
        let t := event s 0 det unit d2 d3 inj at_
        if ringRoom s 1 1 then { t with integ := { t.integ with limits := sset 0 t.integ.limits key (t.time.tb + 1) } } else t

/-- A detector fires at the present instant. -/
def fire (s : State) (det unit : Nat) (d2 d3 : Nat) (inj : Bool) (limit : Option Nat) : State :=
  fireAt s det unit d2 d3 inj limit (now s)

/-! ## Injection (R339, R340) -/

/-- The arm of a detector: its place and its fields. -/
def armOf (s : State) (det : Nat) : Option (Nat × Arm) :=
  (List.range 16).findSome? fun a =>
    match sget none s.integ.arms a with
    | some arm => if arm.det == det then some (a, arm) else none
    | none => none

/-- An arm changes or clears. -/
def setArm (s : State) (a : Nat) (v : Option Arm) : State :=
  { s with integ := { s.integ with arms := sset none s.integ.arms a v } }

/-- A unit in the encoding of W3 of INJECT_ARM: class in [15:12], number in [11:0]. -/
def injUnit (unit : Nat) : Nat := unit / 65536 * 4096 + unit % 4096

/-- An occurrence of a detector's check on a unit, which may be named in several ways; true when it is injected. -/
def injected (s : State) (det : Nat) (units : List Nat) : State × Bool :=
  match armOf s det with
  | none => (s, false)
  | some (a, arm) =>
    if arm.unit == 0xFFFF || units.any (fun u => injUnit u == arm.unit) then
      if arm.mode == 2 && 1 < arm.left then (setArm s a (some { arm with left := arm.left - 1 }), false)
      else
        let s := count s Reg.injStatus 31 16 1
        if arm.mode == 1 then (setArm s a none, true)
        else if arm.mode == 2 then (setArm s a (some { arm with left := arm.n }), true)
        else (s, true)
    else (s, false)

/-! ## Checked memories (R18, R328) -/

/-- The memories with check bits. -/
inductive Mem where
  | kennel
  | scratch
  | slots
  | prog
  | routes
  | lsts
  | sets
  | talkers
  | pool
  deriving DecidableEq, Repr

/-- Words of a memory in each bank (R18, R173, R223, R225); one bank where the memory is not banked. -/
def memBank : Mem → Nat
  | .prog => 32768
  | .routes => 512
  | .lsts => 8192
  | .sets => 16384
  | _ => 0

/-- What an unwritten word reads as: 0, or all ones in the program store and the route table (R174, R177). -/
def memDefault : Mem → MemWord
  | .prog => memFresh 0xFFFFFFFF#32
  | .routes => memFresh 0xFFFFFFFF#32
  | _ => 0

/-- The contents of a memory. -/
def memOf (s : State) : Mem → SMap MemWord
  | .kennel => s.kennel
  | .scratch => s.scratch
  | .slots => s.slots
  | .prog => s.prog
  | .routes => s.routes
  | .lsts => s.lsts
  | .sets => s.sets
  | .talkers => s.talkers
  | .pool => s.pool

/-- A memory's contents change. -/
def setMem (s : State) (m : Mem) (v : SMap MemWord) : State :=
  match m with
  | .kennel => { s with kennel := v }
  | .scratch => { s with scratch := v }
  | .slots => { s with slots := v }
  | .prog => { s with prog := v }
  | .routes => { s with routes := v }
  | .lsts => { s with lsts := v }
  | .sets => { s with sets := v }
  | .talkers => { s with talkers := v }
  | .pool => { s with pool := v }

/-- A stored word with its check bits. -/
def memGet (s : State) (m : Mem) (a : Nat) : MemWord := sget (memDefault m) (memOf s m) a

/-- The data of a stored word. -/
def memWord (s : State) (m : Mem) (a : Nat) : Word := memData (memGet s m a)

/-- A write stores fresh check bits with the data (R328). -/
def memPut (s : State) (m : Mem) (a : Nat) (w : Word) : State :=
  setMem s m (sset (memDefault m) (memOf s m) a (memFresh w))

/-- Words written in ascending addresses. -/
def memPuts (s : State) (m : Mem) : Nat → List Word → State
  | _, [] => s
  | a, w :: ws => memPuts (memPut s m a w) m (a + 1) ws

/-- n words read without a check, from an address. -/
def memWords (s : State) (m : Mem) (a n : Nat) : List Word := (List.range n).map fun i => memWord s m (a + i)

/-- The detector of a memory (R329). -/
def memDet : Mem → Nat
  | .kennel => 0
  | .scratch => 1
  | .slots => 2
  | .prog => 4
  | .routes => 4
  | .lsts => 4
  | .sets => 4
  | .talkers => 5
  | .pool => 3

/-- The unit of a memory word (R328): class 10 and the memory's number. -/
def memUnit (m : Mem) (a : Nat) : Nat :=
  match m with
  | .kennel => unitOf 10 0
  | .scratch => unitOf 10 1
  | .slots => unitOf 10 2
  | .prog => unitOf 10 (4 + a / 32768 % 2)
  | .routes => unitOf 10 (6 + a / 512 % 2)
  | .lsts => unitOf 10 (6 + a / 8192 % 2)
  | .sets => unitOf 10 (6 + a / 16384 % 2)
  | .talkers => unitOf 10 8
  | .pool => unitOf 10 3

/-- What a read of a word gave. -/
structure MemRead where
  s : State
  word : Word
  failed : Bool
  inj : Bool

/-- A checked read by a reader of these units: an injected occurrence inverts data bit 0 as read and fails (R340). -/
def memRead (s : State) (m : Mem) (a : Nat) (readers : List Nat) : MemRead :=
  let w := memGet s m a
  let (s, inj) := injected s (memDet m) (memUnit m a :: readers)
  if inj then ⟨s, memData w ^^^ 1#32, true, true⟩ else ⟨s, memData w, !memGood w, false⟩

/-- n words of a memory from an address on take values that the spec does not state (log 20). -/
def memFreeWords (s : State) (m : Mem) (a : Nat) : Nat → State
  | 0 => s
  | n + 1 =>
    let (s, w) := takeWord s
    memFreeWords (memPut s m a w) m (a + 1) n

/-- Readers of R331. -/
def readerIntake : Nat := 0x20
def readerCopier : Nat := 0x21
def readerEndpoint : Nat := 0x22
def readerHost : Nat := 0x23
def readerHerder : Nat := 0x24
def readerPanel : Nat := 0x25
def readerDrain : Nat := 0x26

/-- The report of a failed memory word (R331). -/
def memReport (s : State) (m : Mem) (a outcome reader index : Nat) (inj : Bool) : State :=
  fire s (memDet m) (memUnit m a) a (outcome * 2 ^ 28 + reader * 65536 + index % 65536) inj none

/-- A memory address within its bank, as the report gives it. -/
def memReportB (s : State) (m : Mem) (bank a outcome reader index : Nat) (inj : Bool) : State :=
  fire s (memDet m) (memUnit m (bank * memBank m + a)) a (outcome * 2 ^ 28 + reader * 65536 + index % 65536) inj none

/-! ## Units, endpoints and ownership (R344, R365 to R367) -/

/-- A unit is wedged. -/
def isWedged (s : State) (unit : Nat) : Bool := s.integ.wedged.contains unit

/-- The unit of an endpoint number of R365. -/
def endpointUnit (e : Nat) : Nat :=
  if e < 128 then unitOf 0 e else if e < 136 then unitOf 1 (e - 128) else if e < 140 then unitOf 2 (e - 136)
  else if e < 148 then unitOf 4 (e - 140) else unitOf 5 (e - 148)

/-- PAIR_CTRL.EN. -/
def pairEn (s : State) : Bool := regB s Reg.pairCtrl 31

/-- This hub owns endpoint e: it is out of reset and not stopped, the unit is not wedged, and either the pair link is off or the
endpoint is owned (R345, R344, R367). -/
def owns (s : State) (e : Nat) : Bool :=
  alive s && !isWedged s (endpointUnit e) && (!pairEn s || s.pair.owned.contains e)

/-- A field that shows what is outside the registers: an endpoint owned, a level at a ball, a free engine. After a full reset it reads 0, as
its Reset column says, until the PLL locks. DESIGN CHOICE (log 155): R7 gives the value at the reset and R183, R367 what it shows later. -/
def shown (s : State) (b : Bool) : Bool := b && s.time.locked

/-- An endpoint is no longer owned (R367). -/
def disown (s : State) (e : Nat) : State :=
  let p := s.pair
  { s with pair := { p with owned := p.owned.erase e, taken := p.taken.erase e, releasing := p.releasing.erase e } }

/-- Endpoint numbers of each class. -/
def epSerial (p : Nat) : Nat := p
def epCan (n : Nat) : Nat := 128 + n
def epEth (n : Nat) : Nat := 136 + n
def epOut (m : Nat) : Nat := 140 + m
def epPanel (n : Nat) : Nat := 148 + n

/-- The control register whose bit 31 enables a port: classes 0 serial to 5 panel (R45). -/
def portCtrl (cls num : Nat) : Nat :=
  if cls == 0 then Reg.spCtrl num else if cls == 1 then Reg.cnCtrl num else if cls == 2 then Reg.ethCtrl num
  else if cls == 3 then Reg.eiCtrl num else if cls == 4 then Reg.eoCtrl num else Reg.pnCtrl num

/-- Ports of each class (names table of 00_scope.md). -/
def portCount (cls : Nat) : Nat :=
  if cls == 0 then 128 else if cls == 1 then 8 else if cls == 2 then 4 else if cls == 3 then 32 else if cls == 4 then 8
  else if cls == 5 then 8 else 0

/-- A port is enabled. -/
def portEn (s : State) (cls num : Nat) : Bool := regB s (portCtrl cls num) 31

/-! ## Commands of the host (R40 to R46) -/

/-- The status codes of R46. -/
def stDone : Nat := 0
def stBadParam : Nat := 1
def stDmaFault : Nat := 2
def stFlashFault : Nat := 3
def stWrongState : Nat := 4
def stCancelled : Nat := 5
def stCancelledAfter : Nat := 6
def stSentCancelLate : Nat := 7
def stApplied : Nat := 8
def stLate : Nat := 9
def stNoSuchHandle : Nat := 10
def stSuperseded : Nat := 11
def stLinkFailed : Nat := 12
def stDiscarded : Nat := 13
def stFarFault : Nat := 14
def stWedged : Nat := 15

/-- Word k of a command. -/
def cmdW (c : HostCmd) (k : Nat) : Word := c.words.getD k 0

/-- The opcode of a command (R45). -/
def cmdOp (c : HostCmd) : Nat := fld (cmdW c 0) 7 0

/-- The command in a slot. -/
def cmdAt (s : State) (slot : Nat) : Option HostCmd := s.host.cmds.find? (fun c => c.slot == slot)

/-- The command in a slot changes. -/
def setCmd (s : State) (slot : Nat) (f : HostCmd → HostCmd) : State :=
  { s with host := { s.host with cmds := s.host.cmds.map (fun c => if c.slot == slot then f c else c) } }

/-- A completion entry is written and its slot freed (R44, R51, R57, R58). -/
def writeCompletion (s : State) (c : Completion) : State :=
  let s := ringWrite s 0 1 [BitVec.ofNat 32 (c.status * 65536 + c.handle), BitVec.ofNat 32 (c.res1 * 65536 + c.res0),
    BitVec.ofNat 32 c.sec, BitVec.ofNat 32 c.ns]
  let s := { s with host := { s.host with free := s.host.free ++ [c.slot] } }
  if c.noirq then s else if c.vecSel then message s c.vector else ringAnnounce s 0

/-- A finished command's completion is written, or held behind those already held (R44). -/
def deliver (s : State) (c : Completion) : State :=
  if s.host.held.isEmpty && ringRoom s 0 1 then writeCompletion s c
  else { s with host := { s.host with held := s.host.held ++ [c] } }

/-- The command in a slot finishes with a status and results, at a given instant (R44, R51); counts saturate at 65 535 (R47).
Where the slot holds no command (a setting record of the boot image, R356) nothing happens. -/
def finishAt (s : State) (slot status res0 res1 : Nat) (at_ : Stamp) : State :=
  match cmdAt s slot with
  | none => s
  | some c =>
    let s := { s with host := { s.host with cmds := s.host.cmds.filter (fun c => c.slot != slot) } }
    let w0 := cmdW c 0
    deliver s ⟨slot, c.gen * 256 + slot, status, min res0 65535, min res1 65535, stSec at_ % 2 ^ 32, stNs at_, bit w0 14, bit w0 13,
      fld w0 12 8⟩

/-- The command in a slot finishes now. -/
def finish (s : State) (slot status res0 res1 : Nat) : State := finishAt s slot status res0 res1 (now s)

/-- The largest read request that starts at an address (R60). -/
def readChunk (addr len : Nat) : Nat := min (min len Config.maxReadRequest) (4096 - addr % 4096)

/-- Reads of host memory outstanding for commands, for re-fetches of bank words and for far masters (R60). -/
def readsOut (s : State) : Nat :=
  (s.host.cmds.filter (fun c => !c.flash && (c.fetch.map (fun f => decide (0 < f.len))).getD false)).length
    + (s.pack.refetch.filter (fun f => f.sent && !f.flash)).length + (s.bridge.farReads.filter (·.sent)).length

/-- A further read request may go out: memory requests are allowed (R30), and fewer than 32 reads are outstanding (R60). -/
def dmaFree (s : State) : Bool := hostMem s && decide (readsOut s < 32)

/-- The command in a slot starts to read host memory: its first request goes out. -/
def startFetch (s : State) (slot addr len : Nat) : State :=
  let n := readChunk addr len
  emit (setCmd s slot (fun c => { c with phase := .running, fetch := some ⟨addr, n, len - n⟩, got := [] })) (.dmaRead slot addr n)

/-- The next request of a running read goes out; while no further read may go out it waits, as a request of length 0 (R30, R60). -/
def sendFetch (s : State) (slot addr rest : Nat) : State :=
  let s := setCmd s slot (fun c => { c with fetch := some ⟨addr, 0, rest⟩ })
  if dmaFree s then
    let n := readChunk addr rest
    emit (setCmd s slot (fun c => { c with fetch := some ⟨addr, n, rest - n⟩ })) (.dmaRead slot addr n)
  else s

/-- The next request of a running read, where bytes are left. -/
def nextFetch (s : State) (slot : Nat) (f : Fetch) : State :=
  if f.rest == 0 then setCmd s slot (fun c => { c with fetch := none }) else sendFetch s slot (f.addr + f.len) f.rest

/-- A host address in two words, low word first (R45). -/
def addr64 (lo hi : Word) : Nat := hi.toNat * 2 ^ 32 + lo.toNat

/-- A DMA read of the hub faulted: it is counted, and the first since the last read of HOST_ERRORS is logged (R62). -/
def dmaFault (s : State) (addr : Nat) : State :=
  let s := count s Reg.hostErrors 31 16 1
  if s.host.faultSeen then s
  else
    let s := { s with host := { s.host with faultSeen := true } }
    setReg (setReg s Reg.dmaFaultAddrLo (BitVec.ofNat 32 addr)) Reg.dmaFaultAddrHi (BitVec.ofNat 32 (addr / 2 ^ 32))

/-- The read of a command that waits to go out goes out where it may. -/
def pumpFetch (s : State) (c : HostCmd) : State :=
  match c.fetch with
  | some f => if !c.flash && f.len == 0 then sendFetch s c.slot f.addr f.rest else s
  | none => s

/-- The read of a re-fetch that waits to go out goes out where it may (R336). -/
def pumpRefetch (s : State) (f : Refetch) : State :=
  if f.sent || !dmaFree s then s
  else
    let mark (g : Refetch) : Refetch := if g.store == f.store && g.addr == f.addr then { g with sent := true } else g
    emit { s with pack := { s.pack with refetch := s.pack.refetch.map mark } } (.refetchRead f.flash f.src 4)

/-- The first far read that waits to go out counts as sent. -/
def farSent : List FarReadWait → List FarReadWait
  | [] => []
  | x :: xs => if x.sent then x :: farSent xs else { x with sent := true } :: xs

/-- The oldest far read that waits to go out goes out where it may (R302). -/
def pumpFar (s : State) : State :=
  match s.bridge.farReads.find? (fun r => !r.sent) with
  | none => s
  | some r =>
    if !dmaFree s then s
    else emit { s with bridge := { s.bridge with farReads := farSent s.bridge.farReads } } (.farDmaRead r.host r.len)

/-- Reads that wait go out as far as R30 and R60 let them: those of commands in accept order, re-fetches, then the oldest far read
(log 9). -/
def readPump (s : State) : State :=
  pumpFar (s.pack.refetch.foldl pumpRefetch (s.host.cmds.foldl pumpFetch s))

/-- BOOT_BUSY (R354). -/
def bootBusy (s : State) : Bool := regB s Reg.hostStatus 1

end Sys2Proof.Machine
end

