-- ==== Sys2Proof/Machine/Commands.lean ====
section
/-! DEFINITION. Which accepted command may take effect next (R40, R358). -/

namespace Sys2Proof.Machine

/-- The command whose handle is given, where that handle is in use (R41, R44). -/
def cmdOfHandle (s : State) (h : Nat) : Option HostCmd := (cmdAt s (h % 256)).filter fun c => c.gen == h / 256

/-- The port that a port selector names: class in [15:12], number in [6:0] (R45). -/
def selPort (w : Word) : Nat := unitOf (fld w 15 12) (fld w 6 0)

/-- The objects on which a command acts (R40): ports and engine groups by their unit, then the program banks with their tables,
the talker table, the slot store, the time core with calibration, each panel region, the flash, the bridge, the injection unit. -/
def cmdObjects (s : State) (c : HostCmd) : List Nat :=
  let op := cmdOp c
  let w := cmdW c
  if op == 0x20 || op == 0x21 || op == 0x22 then [selPort (w 1)]
  else if op == 0x23 || op == 0x24 then [unitOf 7 (fld (w 1) 2 0)]
  else if op == 0x10 then (if bit (w 1) 0 then [unitOf 100 0, unitOf 105 0] else [unitOf 100 0])
  else if op == 0x11 then [unitOf 100 0]
  else if op == 0x12 || op == 0x13 then
    (if fld (w 1) 7 0 == 3 then [unitOf 101 0] else if fld (w 1) 7 0 == 4 then [unitOf 102 0] else [unitOf 100 0])
  else if op == 0x25 then (if fld (w 1) 1 0 == 3 then [] else [unitOf 101 0])
  else if 0x30 ≤ op && op ≤ 0x34 then [unitOf 103 0]
  else if op == 0x40 then [unitOf 104 (32 * fld (w 1) 2 0 + fld (w 1) 12 8)]
  else if op == 0x50 || op == 0x51 then [unitOf 106 0]
  else if op == 0x60 then [unitOf 1 (fld (w 1) 2 0)]
  else if op == 0x61 then
    (match cmdOfHandle s (fld (w 1) 15 0) with
     | some d => if cmdOp d == 0x60 then [unitOf 1 (fld (cmdW d 1) 2 0)] else []
     | none => [])
  else if op == 0x70 then [unitOf 2 (fld (w 1) 1 0)]
  else if 0x80 ≤ op && op ≤ 0x82 then [unitOf 105 0]
  else if op == 0x03 then [unitOf 107 0]
  else []

/-- No earlier command keeps this one waiting: each earlier one on an object of it is open (R40). -/
def cmdFree (s : State) (c : HostCmd) : List HostCmd → Bool
  | [] => true
  | d :: ds =>
    if d.slot == c.slot then true
    else (d.phase == .opened || !(cmdObjects s d).any (fun o => (cmdObjects s c).contains o)) && cmdFree s c ds

/-- The accepted command of an opcode in a slot, when it may take effect: the core works, the boot sequencer has finished (R358),
and no earlier command on its objects is unfinished (R40). -/
def cmdReady (s : State) (slot op : Nat) : Option HostCmd :=
  if !alive s || bootBusy s then none
  else match cmdAt s slot with
    | none => none
    | some c => if cmdOp c == op && c.phase == .accepted && cmdFree s c s.host.cmds then some c else none

/-- A command stays open: later commands on its object no longer wait for it (R40). -/
def cmdOpen (s : State) (slot : Nat) : State := setCmd s slot (fun c => { c with phase := .opened })

/-- Commands of an opcode that are open, in accept order. -/
def openCmds (s : State) (op : Nat) : List HostCmd := s.host.cmds.filter fun c => cmdOp c == op && c.phase == .opened

/-- 64-byte blocks of bytes, up to a length (R36, R85). -/
def wholeBlocks (bytes len : Nat) : Nat := min (bytes / 64) (len / 64)

/-- NOP (R47): completes at once. -/
def execNopCommand (slot : Fin 256) (s : State) : Host.Outcome State Fault Refusal :=
  match cmdReady s slot.val 0x00 with
  | none => .next s
  | some _ => .next (finish s slot.val stDone 0 0)

end Sys2Proof.Machine
end

