-- ==== Sys2Proof/Machine/Calibration.lean ====
section
/-! DEFINITION. Time-to-digital converters and calibration (03_time_base.md R73 to R85). -/

namespace Sys2Proof.Machine

/-- A calibration region. -/
def region (s : State) (g : Nat) : Region := sget Region.init s.regions g

/-- A calibration region changes. -/
def setRegion (s : State) (g : Nat) (r : Region) : State := { s with regions := sset Region.init s.regions g r }

/-- The region of a TDC (R73, R74). -/
def tdcRegion (t : Nat) : Nat := if t < 128 then t / 16 else if t < 160 then (t - 128) / 4 else t - 160

/-- The TDCs of a region. -/
def regionTdcs (g : Nat) : List Nat := (List.range 164).filter fun t => tdcRegion t == g

/-- The table that a TDC uses: 0 production, 1 and 2 the buffers. -/
def tdcUse (s : State) (t : Nat) : Nat := sget 0 s.tdcUse t

/-- The buffer of a region by number. -/
def bufOf (r : Region) (b : Nat) : Option TdcTable := if b == 1 then r.buf0 else if b == 2 then r.buf1 else none

/-- The epoch of a buffer; the production table carries 0 (R81). -/
def bufEpoch (r : Region) (b : Nat) : Nat := match bufOf r b with
  | some t => t.epoch
  | none => 0

/-- pos_k of the production table: equal bins of the region's fused mean tap width (R80). -/
def prodPos (g k : Nat) : Nat := k * (Config.tapWidth g).toNat + (Config.tapWidth g).toNat / 2

/-- The event input that TIME_ROLE names as PPS source, where there is one (R78, R86). -/
def ppsInput (s : State) : Option Nat :=
  if regB s Reg.servoStatus 0 || regF s Reg.servoStatus 5 4 == 1 then some (regF s Reg.servoStatus 20 16) else none

/-- A TDC is excluded from the histograms (R78). -/
def tdcExcluded (s : State) (t : Nat) : Bool := regB s (Reg.tdcAdj t) 31 || ppsInput s == some (t - 128) && decide (128 ≤ t) && decide (t < 160)

/-- Hits on one tap are counted into a region's running histogram (R78). -/
def hitRegion (s : State) (g k n : Nat) (live : Bool) : State :=
  let r := region s g
  setRegion s g
    { r with hist := sset 0 r.hist k (sget 0 r.hist k + n), hits := r.hits + n, live := if live then r.live + n else r.live }

/-- A region's interval starts afresh with the settings then in force (R79, R80). -/
def newInterval (s : State) (g : Nat) (keep : Bool) (m : CalMode) : State :=
  let r := region s g
  let r := { r with startTb := s.time.tb, ctl := reg s Reg.calCtrl, target := reg s Reg.calHits, mode := m }
  setRegion s g (if keep then r else { r with hist := [], hits := 0, live := 0 })

/-- The state in which an interval starts: dither at once under DITHER_ALWAYS (R79). -/
def freshMode (s : State) : CalMode := if regB s Reg.calCtrl 31 then .dither else .collect

/-- INTERVAL of a running interval, in ticks. -/
def calInterval (r : Region) : Nat := clampNat 250 60000 (fld r.ctl 15 0) * Config.tickMs

/-- CAL_HITS of a running interval. -/
def calTarget (r : Region) : Nat := clampNat 16384 1048576 (fld r.target 20 0)

/-- The epochs of four regions as a result word of CAL_RUN (R47). -/
def epochs4 (s : State) (g : Nat) : Nat :=
  bufEpoch (region s g) (region s g).newest + 16 * bufEpoch (region s (g + 1)) (region s (g + 1)).newest
    + 256 * bufEpoch (region s (g + 2)) (region s (g + 2)).newest + 4096 * bufEpoch (region s (g + 3)) (region s (g + 3)).newest

/-- A region's forced accumulation has ended: the CAL_RUN it belongs to completes when no other region runs for it (R84). -/
def calRunEnd (s : State) (g : Nat) : State :=
  match (region s g).run with
  | none => s
  | some slot =>
    let s := setRegion s g { region s g with run := none }
    if (List.range 8).any (fun h => (region s h).run == some slot) then s
    else finish s slot stDone (epochs4 s 0) (epochs4 s 4)

/-- A table is committed into a buffer that no TDC of the region uses, and the interval timer restarts (R81). -/
def commitTable (s : State) (g : Nat) (t : TdcTable) (keep : Bool) : State :=
  let r := region s g
  let b := if r.newest == 1 then 2 else 1
  let e := if r.epoch == 15 then 1 else r.epoch + 1
  let t := { t with epoch := e }
  let r := { r with newest := b, epoch := e, waiting := none, commitTb := s.time.tb, commit := now s, trigged := false,
                     firstTb := if r.newest == 0 then s.time.tb else r.firstTb }
  let s := setRegion s g (if b == 1 then { r with buf0 := some t } else { r with buf1 := some t })
  let s := setReg (setReg s (Reg.calCommitSec g) (shortSec (now s))) (Reg.calCommitNs g) (shortNs (now s))
  let s := setReg s (Reg.calCond g) (BitVec.ofNat 32 (r.mv.toNat * 65536 + r.temp.toNat))
  let s := newInterval s g keep (freshMode s)
  let v := s.vid
  let s := { s with vid := { v with committed := if v.committed.contains g then v.committed else v.committed ++ [g] } }
  calRunEnd s g

/-- Some TDC of the region uses the buffer that the next commit would write (R81). -/
def bufHeld (s : State) (g : Nat) : Bool :=
  (region s g).newest != 0 && (regionTdcs g).any fun t => tdcUse s t == 3 - (region s g).newest

/-- A computed table is refused (R82). -/
def refuseTable (s : State) (g detail : Nat) (inj : Bool) : State :=
  let s := count s (Reg.calRefused g) 15 0 1
  let s := fire s 0x32 (unitOf 8 g) g detail inj none
  let s := newInterval s g false (if (region s g).mode == .fallback then .fallback else freshMode s)
  calRunEnd s g

/-- The first width below the last struck tap outside 8 ps to 60 ps, of a histogram with N hits (R82). -/
def badWidth (hist : SMap Nat) (n : Nat) : Option Nat :=
  let last := hist.foldl (fun a e => if e.2 != 0 then max a e.1 else a) 0
  (List.range last).find? fun j => decide (500 * sget 0 hist j < n) || decide (3 * n < 200 * sget 0 hist j)

/-- pos_0, pos_1, … from the counts (R80): the exact value rounded to the nearest unit. A value half-way between two units, and one
that 18 bits do not hold, is not stated by the spec: it is a free value (log 20). -/
def calPos (free cum n : Nat) (hist : SMap Nat) : Nat → Nat → List MemWord
  | _, 0 => []
  | k, m + 1 =>
    let num := 262144 * (2 * cum + sget 0 hist k)
    let d := 2 * n
    let q := num / d
    let v := if 2 * (num % d) < d then q else if d < 2 * (num % d) then q + 1 else q + b2n (Config.freeBit (free + k))
    let w := if v < 262144 then BitVec.ofNat 32 v else BitVec.ofNat 32 ((Config.freeWord (free + k)).toNat % 262144)
    memFresh w :: calPos free (cum + sget 0 hist k) n hist (k + 1) m

/-- The table of an interval is computed, checked under R82 and committed under R81. -/
def calJudge (s : State) (g : Nat) : State :=
  let (s, inj) := injected s 0x32 [unitOf 8 g]
  let r := region s g
  if inj then refuseTable s g 0x200 true
  else if sget 0 r.hist 255 != 0 then refuseTable s g 255 false
  else match badWidth r.hist r.hits with
    | some j => refuseTable s g j false
    | none =>
      let pos := calPos s.freeCount 0 r.hits r.hist 0 256
      let s := { s with freeCount := s.freeCount + 256 }
      let t : TdcTable := { epoch := 0, pos := pos, hist := r.hist, hits := r.hits, live := r.live }
      if bufHeld s g then
        setRegion s g { r with waiting := some t, mode := .commitWait, hist := [], hits := 0, live := 0 }
      else commitTable s g t false

/-- A TDC uses the newest table from here on; the last switch from the older buffer releases a waiting commit (R81, R82). -/
def tdcSwitch (s : State) (t : Nat) : State :=
  let g := tdcRegion t
  let s := { s with tdcUse := sset 0 s.tdcUse t (region s g).newest }
  match (region s g).waiting with
  | some tab => if bufHeld s g then s else commitTable s g tab true
  | none => s

/-- A TDC has not switched 12 s after a commit, so that it switches at its next conversion (R82). One on the production table has not
switched since the first commit after the region was on that table. -/
def tdcOverdue (s : State) (t : Nat) : Bool :=
  let r := region s (tdcRegion t)
  tdcUse s t != r.newest && decide (12000 * Config.tickMs ≤ sinceTb s (if tdcUse s t == 0 then r.firstTb else r.commitTb))

/-- A word of a table buffer failed its check bits: the region falls back to the production table (R82). -/
def calFallback (s : State) (g : Nat) : State :=
  let s := (regionTdcs g).foldl (fun s t => { s with tdcUse := sset 0 s.tdcUse t 0 }) s
  let s := setRegion s g { region s g with newest := 0, waiting := none }
  fire (newInterval s g false .fallback) 0x32 (unitOf 8 g) g 0x100 false none

/-- The epoch of the table that a TDC uses. -/
def tdcEpoch (s : State) (t : Nat) : Nat := bufEpoch (region s (tdcRegion t)) (tdcUse s t)

/-- Position and epoch of a conversion that struck tap k (R75, R82). -/
def tdcPos (s : State) (t k : Nat) : State × Nat × Nat :=
  let g := tdcRegion t
  match bufOf (region s g) (tdcUse s t) with
  | none => (s, prodPos g k, 0)
  | some tab =>
    let w := tab.pos.getD k 0
    if memGood w then (s, (memData w).toNat % 262144, tab.epoch) else (calFallback s g, prodPos g k, 0)

/-- A conversion of TDC t that passed k taps: its stamp, taken against the clock at this tick, the count of its hit, and its stir of the
dice (R75, R148). A TDC that is overdue switches first (R82). -/
def convert (s : State) (t k : Nat) : State × Edge :=
  let s := if tdcOverdue s t then tdcSwitch s t else s
  let (s, pos, epoch) := tdcPos s t k
  let skew := sext 20 (regF s (Reg.tdcSkew t) 19 0)
  let adj := sext 24 (regF s (Reg.tdcAdj t) 23 0)
  let e : Edge := ⟨stMove (now s) (adj - skew - (pos : Int)), epoch, s.time.steps⟩
  let r := region s (tdcRegion t)
  let s := setRegion s (tdcRegion t) { r with stir := Config.diceStir r.stir k s.time.tb }
  (if tdcExcluded s t then s else hitRegion s (tdcRegion t) k 1 true, e)

/-- Dither hits, given as counts per tap, go into the histogram until it holds CAL_HITS hits (R79). -/
def addDither (s : State) (g : Nat) : Nat → List Nat → State
  | _, [] => s
  | k, n :: ns =>
    let r := region s g
    addDither (hitRegion s g k (min n (calTarget r - r.hits)) false) g (k + 1) ns

/-- CAL_MIDPOINT (R79): dither starts where the histogram holds fewer than half of CAL_HITS at the midpoint. -/
def execCalMidpoint (g : Fin 8) (s : State) : Host.Outcome State Fault Refusal :=
  let r := region s g.val
  if ticking s && r.mode == .collect && decide (calInterval r ≤ 2 * sinceTb s r.startTb) && decide (2 * r.hits < calTarget r) then
    .next (setRegion s g.val { r with mode := .dither })
  else .next s

/-- CAL_INTERVAL_END (R80): with the dither hits since the last step; a histogram still short of CAL_HITS goes on with dither. -/
def execCalIntervalEnd (g : Fin 8) (dither : List Nat) (s : State) : Host.Outcome State Fault Refusal :=
  let r := region s g.val
  if ticking s && (r.mode == .collect || r.mode == .dither) && decide (calInterval r ≤ sinceTb s r.startTb) then
    let s := if r.mode == .dither then addDither s g.val 0 (dither.take 256) else s
    let r := region s g.val
    .next (if calTarget r ≤ r.hits then calJudge s g.val else setRegion s g.val { r with mode := .dither })
  else .next s

/-- CAL_HITS_REACHED (R79, R84): the dither hits since the last step enter the histogram; one that commits as soon as it holds CAL_HITS
does so, and one whose interval has not ended keeps them. -/
def execCalHitsReached (g : Fin 8) (dither : List Nat) (s : State) : Host.Outcome State Fault Refusal :=
  let r := region s g.val
  let due := r.mode == .forced || r.mode == .fallback || decide (calInterval r ≤ sinceTb s r.startTb)
  if ticking s && (due || r.mode == .dither) && r.mode != .collect && r.mode != .commitWait then
    let s := addDither s g.val 0 (dither.take 256)
    let r := region s g.val
    .next (if due && calTarget r ≤ r.hits then calJudge s g.val else s)
  else .next s

/-- CAL_TRIGGER (R83): a sample of die temperature (units of 0.125 °C) and VCORE (mV) that has moved from its value at the last
commit by a threshold or more restarts the interval, once until the next commit. The thresholds are those of the running interval. -/
def execCalTrigger (g : Fin 8) (temp mv : BitVec 16) (s : State) : Host.Outcome State Fault Refusal :=
  if !ticking s then .next s
  else
    let r := { region s g.val with temp := temp, mv := mv }
    let s := setReg (setRegion s g.val r) (Reg.monRegion g.val) (BitVec.ofNat 32 (mv.toNat * 65536 + temp.toNat))
    let cond := reg s (Reg.calCond g.val)
    let ctl := r.ctl
    let dt := (temp.toInt - sext 16 (fld cond 15 0)).natAbs
    let dv := ((mv.toNat : Int) - (fld cond 31 16 : Nat)).natAbs
    let hit := decide (2 * max 1 (fld ctl 23 16) ≤ dt) || decide (max 5 (fld ctl 30 24) ≤ dv)
    if r.epoch != 0 && !r.trigged && hit && r.mode != .forced && r.mode != .fallback then
      let s := setRegion s g.val { r with trigged := true }
      if r.mode == .commitWait then .next (setRegion s g.val { region s g.val with hist := [], hits := 0, live := 0 })
      else .next (newInterval s g.val false (freshMode s))
    else .next s

/-- A stamped edge of an event input is still judged by the filter. -/
def candStamped (v : EvIn) : Bool := match v.cand with
  | some (_, some _) => true
  | _ => false

/-- A TDC is idle (R82). DEDUCED (log 156): the conversion of an event input lasts until the filter has judged its edge, so that a record
opened by that edge holds stamps of one table. -/
def tdcIdle (s : State) (t : Nat) : Bool :=
  let v := sget EvIn.init s.evIn (t - 128)
  if t < 128 then !portEn s 0 t || ((sget SerialPort.init s.serial t).text.isEmpty && decide ((sget SerialPort.init s.serial t).idleTb ≤ s.time.tb))
  else if t < 160 then !portEn s 3 (t - 128) || (v.burst.isNone && !candStamped v)
  else true

/-- TDC_TABLE_SWITCH (R82): an idle TDC switches to the newest table. -/
def execTdcTableSwitch (t : Fin 164) (s : State) : Host.Outcome State Fault Refusal :=
  if ticking s && tdcIdle s t.val && tdcUse s t.val != (region s (tdcRegion t.val)).newest then .next (tdcSwitch s t.val)
  else .next s

/-- A region starts a forced accumulation for a CAL_RUN (R84). -/
def calForce (s : State) (slot g : Nat) : State :=
  let s := newInterval s g false .forced
  setRegion s g { region s g with waiting := none, run := some slot }

/-- CAL_RUN (R84): every region of the mask starts a forced accumulation; an empty mask completes at once. -/
def execCalRun (slot : Fin 256) (s : State) : Host.Outcome State Fault Refusal :=
  match cmdReady s slot.val 0x33 with
  | none => .next s
  | some c =>
    let gs := (List.range 8).filter fun g => bit (cmdW c 1) g
    if gs.isEmpty then .next (finish s slot.val stDone (epochs4 s 0) (epochs4 s 4))
    else
      let s := setCmd s slot.val (fun c => { c with phase := .running })
      .next (gs.foldl (fun s g => calForce s slot.val g) s)

/-- The number of CAL_STATUS.STATE. -/
def calModeNum : CalMode → Nat
  | .collect => 0
  | .dither => 1
  | .commitWait => 2
  | .forced => 3
  | .fallback => 4

/-- The 2 112 bytes of a snapshot (R85). DESIGN CHOICE (log 157): with the production table in force after a fallback, the commit stamp,
temperature and VCORE are those of the last commit. -/
def calSnapBytes (s : State) (g : Nat) : List Byte :=
  let r := region s g
  let tab := bufOf r r.newest
  let e := bufEpoch r r.newest
  let cond := reg s (Reg.calCond g)
  let head := [BitVec.ofNat 32 (g + 256 * e + 65536 * calModeNum r.mode)] ++ stampWords r.commit
    ++ [BitVec.ofNat 32 (match tab with | some t => t.hits | none => 0), BitVec.ofNat 32 (match tab with | some t => t.live | none => 0),
        BitVec.ofNat 32 (fld cond 15 0 + 65536 * fld cond 31 16)] ++ List.replicate 9 0
  let pos := (List.range 256).map fun k => match tab with
    | some t => memData (t.pos.getD k 0)
    | none => BitVec.ofNat 32 (prodPos g k)
  let ns := (List.range 256).map fun k => match tab with
    | some t => BitVec.ofNat 32 (sget 0 t.hist k)
    | none => 0
  wordsBytes (head ++ pos ++ ns)

/-- CAL_SNAPSHOT (R85): the present table of a region and its histogram go to host memory, in whole blocks up to the length. -/
def execCalSnapshot (slot : Fin 256) (s : State) : Host.Outcome State Fault Refusal :=
  match cmdReady s slot.val 0x34 with
  | none => .next s
  | some c =>
    if !hostMem s then .next s
    else
      let g := fld (cmdW c 1) 2 0
      let n := wholeBlocks 2112 (cmdW c 4).toNat
      let s' := dmaWrite s (addr64 (cmdW c 2) (cmdW c 3)) ((calSnapBytes s g).take (64 * n))
      .next (finish s' slot.val stDone n (bufEpoch (region s g) (region s g).newest))

end Sys2Proof.Machine
end

