-- ==== Sys2Proof/Machine/EventOut.lean ====
section
/-! DEFINITION. Event outputs (05_event_io.md R116 to R120). -/

namespace Sys2Proof.Machine

/-- An event output beside its registers. -/
def evOut (s : State) (m : Nat) : EvOut := sget EvOut.init s.evOut m

/-- An event output changes. -/
def setEvOut (s : State) (m : Nat) (o : EvOut) : State := { s with evOut := sset EvOut.init s.evOut m o }

/-- WIDTH in effect, in ns. -/
def eoWidth (s : State) (m : Nat) : Nat := max 8 (regF s (Reg.eoWidth m) 29 0)

/-- PERIOD in effect, in ns; 0 is a single pulse (R116). -/
def eoPeriod (s : State) (m : Nat) : Nat :=
  let p := (reg s (Reg.eoPeriod m)).toNat
  if p == 0 then 0 else max p (eoWidth s m + 8)

/-- How far a target lies ahead of the clock, in units of 2^-16 ns (R68). -/
def eoAhead (s : State) (t : EoTarget) : Int :=
  -(dNow s t.sec t.ns) * 65536 + ((t.frac.toNat : Int) - (stFrac (now s) : Int))

/-- A target lies at or before another. -/
def eoLe (a b : EoTarget) : Bool :=
  let d := dDiff a.sec a.ns b.sec b.ns
  decide (d < 0) || (decide (d = 0) && decide (a.frac.toNat ≤ b.frac.toNat))

/-- ADJ (R117). -/
def eoAdj (s : State) (m : Nat) : Int := sext 24 (regF s (Reg.eoAdj m) 23 0)

/-- The leading edge of a target is to be fixed: at the last tick that lies at least 16 ns before the edge, or later (R117). -/
def eoNear (s : State) (m : Nat) (t : EoTarget) : Bool := decide (eoAhead s t + eoAdj s m < 20 * 65536)

/-- A target falls due (R68, R117): it was set at an earlier tick, and its edge is to be fixed. -/
def eoDue (s : State) (m : Nat) (t : EoTarget) : Bool := decide (t.setTb < s.time.tb) && eoNear s m t

/-- The generator's next target, shown in EO_NEXT (R116). -/
def setGen (s : State) (m : Nat) (g : Option EoTarget) : State :=
  let s := setEvOut s m { evOut s m with gen := g }
  match g with
  | none => s
  | some t => setReg (setReg (setReg s (Reg.eoNextSec m) t.sec) (Reg.eoNextNs m) t.ns) (Reg.eoNextFrac m) (t.frac.setWidth 32)

/-- A target moved by k periods, counted as set at this tick. -/
def eoAdvance (s : State) (m k : Nat) (t : EoTarget) : EoTarget :=
  let (sec, ns) := shortAdd t.sec t.ns (k * eoPeriod s m)
  { t with sec := sec, ns := ns, setTb := s.time.tb }

/-- Whole periods until a reached target is no longer reached (R71, R118). -/
def skipPeriods (d : Int) (period : Nat) : Nat := d.toNat / period + 1

/-- A generator whose target has passed skips to the first target ahead; each skipped pulse is LATE (R118, R120). -/
def eoSkip (s : State) (m : Nat) (t : EoTarget) : State :=
  let d := dNow s t.sec t.ns
  if d < 0 then setGen s m (some t)
  else if eoPeriod s m == 0 then count (setGen s m none) (Reg.eoCounts m) 31 24 1
  else
    let k := skipPeriods d (eoPeriod s m)
    count (setGen s m (some (eoAdvance s m k t))) (Reg.eoCounts m) 31 24 k

/-- A target is queued (R116, R118): 0 queued, 1 discarded as late, 2 refused because 16 are pending. -/
def eoQueue (s : State) (m : Nat) (sec ns : Word) (frac : BitVec 16) : State × Nat :=
  let t : EoTarget := ⟨sec, ns, frac, s.time.tb⟩
  if eoAhead s t < 16 * 65536 then (count s (Reg.eoCounts m) 31 24 1, 1)
  else if 16 ≤ (evOut s m).queue.length then (count s (Reg.eoCounts m) 15 8 1, 2)
  else (setEvOut s m { evOut s m with queue := insertBy eoLe t (evOut s m).queue }, 0)

/-- A target of LAUNCH (R218): with 16 pending it is refused; an accepted one that lies behind or too near is discarded as late. -/
def eoLaunch (s : State) (m : Nat) (sec ns : Word) (frac : BitVec 16) : State × Bool :=
  if 16 ≤ (evOut s m).queue.length then (count s (Reg.eoCounts m) 15 8 1, true) else ((eoQueue s m sec ns frac).1, false)

/-- EO_PULSE_QUEUE (R116): a write of EO_PULSE_FRAC queues the held target. -/
def eoPulseQueue (s : State) (m : Nat) (frac : Word) : State :=
  (eoQueue s m (evOut s m).heldSec (evOut s m).heldNs (frac.setWidth 16)).1

/-- EO_PULSE_QUEUE (R116). -/
def execEoPulseQueue (m : Fin 8) (frac : Word) (s : State) : Host.Outcome State Fault Refusal :=
  .next (if bar0Writes s then eoPulseQueue s m.val frac else s)

/-- A forward step has carried the clock past targets that were pending before it, at D before of each (R118). -/
def eoStepped (before : State) (s : State) : Nat → State
  | 0 => s
  | k + 1 =>
    let s := eoStepped before s k
    let o := evOut s k
    let passed := o.queue.filter fun t => decide (dNow before t.sec t.ns < 0) && decide (0 ≤ dNow s t.sec t.ns)
    let s := setEvOut s k { o with queue := o.queue.filter (fun t => !passed.contains t) }
    let s := count s (Reg.eoCounts k) 31 24 passed.length
    match o.gen with
    | none => s
    | some t => if dNow before t.sec t.ns < 0 && 0 ≤ dNow s t.sec t.ns then eoSkip s k t else s

/-- A hit of compare unit n triggers the outputs of MODE 2 that name it (R116), unless the pulse of this target has been fixed already. -/
def eoCompare (s : State) (n : Nat) (sec ns : Word) : Nat → State
  | 0 => s
  | k + 1 =>
    let s := eoCompare s n sec ns k
    let o := evOut s k
    if regF s (Reg.eoCtrl k) 29 28 == 2 && regF s (Reg.eoCtrl k) 25 24 == n then
      if o.cmpFixed == some (sec, ns) then setEvOut s k { o with cmpFixed := none }
      else setEvOut s k { o with cmpHits := o.cmpHits ++ [⟨sec, ns, 0, s.time.tb⟩], cmpFixed := none }
    else s

/-- The target of the compare unit that an output of MODE 2 names, while the unit is armed and no pulse is fixed for that target (R116). -/
def eoCmpTarget (s : State) (m : Nat) : Option EoTarget :=
  let n := regF s (Reg.eoCtrl m) 25 24
  let t : EoTarget := ⟨reg s (Reg.cmpSec n), reg s (Reg.cmpNs n), 0, (sget CmpUnit.init s.time.cmp n).setTb⟩
  if regF s (Reg.eoCtrl m) 29 28 == 2 && regB s (Reg.cmpCtrl n) 0 && (evOut s m).cmpFixed != some (t.sec, t.ns) then some t else none

/-- The first pulse ends at its trailing edge, placed exactly the width behind its leading edge; with the last of them a waiting
PORT_DISABLE completes, and a release that waited for its end takes place (R116, R120, R367). -/
def eoTrail (s : State) (m : Nat) (p : EoPulse) (rest : List EoPulse) : State :=
  let o := evOut s m
  let s := emit (setEvOut s m { o with active := rest, trailAt := some p.trailAt }) (.pulseTrail m (!p.high) (p.at50ps + 20 * (p.width : Int)))
  if !rest.isEmpty then s
  else
    let s := if s.pair.releasing.contains (epOut m) then disown s (epOut m) else s
    match o.closing with
    | none => s
    | some (slot, n) => finish (setF (setEvOut s m { evOut s m with closing := none }) (Reg.eoCtrl m) 31 31 0) slot stDone n 0

/-- TB time in units of 2^-16 ns. -/
def tbTime (s : State) : Int := (s.time.tb * 262144 : Nat)

/-- The time of an edge rounded to the nearest 50 ps, counted in 50 ps; a tie is free (R117, log 20). -/
def round50ps (s : State) (v : Int) : State × Int :=
  let r := (v * 10) % 32768
  let q := (v * 10) / 32768
  if r < 16384 then (s, q) else if 16384 < r then (s, q + 1)
  else
    let (s, b) := takeBit s
    (s, q + (b2n b : Nat))

/-- A pulse falls due at an output (R117, R118): its edges are fixed, or it is discarded and counted. -/
def eoPlace (s : State) (m : Nat) (t : EoTarget) : State :=
  let o := evOut s m
  let adj := eoAdj s m
  let lead := tbTime s + eoAhead s t + adj
  let clear := (o.active.getLast?.map EoPulse.trailAt).all (fun e => decide (e + 524288 ≤ lead))
    && o.trailAt.all (fun e => decide (e + 524288 ≤ lead))
  if !portEn s 4 m || o.closing.isSome then s
  else if !owns s (epOut m) then count s (Reg.eoCounts m) 7 0 1
  else if !clear then count s (Reg.eoCounts m) 23 16 1
  else
    let (s, at_) := round50ps s (((t.sec.toNat * 1000000000 + t.ns.toNat : Nat) : Int) * 65536 + (t.frac.toNat : Int) + adj)
    let p : EoPulse := ⟨lead, lead + (eoWidth s m * 65536 : Nat), !regB s (Reg.eoCtrl m) 30, at_, eoWidth s m⟩
    emit (setEvOut s m { o with active := o.active ++ [p] }) (.pulseLead m p.high at_)

/-- The generator leaves a target behind it: the next one follows by PERIOD, or it stops (R116). -/
def eoGenNext (s : State) (m : Nat) (t : EoTarget) : State :=
  setGen s m (if eoPeriod s m == 0 then none else some (eoAdvance s m 1 t))

/-- The earlier of two targets, each with what the output is to do about it; the first where they are equal. -/
def eoEarlier (a b : Option (EoTarget × State)) : Option (EoTarget × State) :=
  match a, b with
  | some x, some y => if eoLe x.1 y.1 then some x else some y
  | some x, none => some x
  | none, y => y

/-- The target that falls due first, from the queue, the generator or the compare unit, with the output behind it (R116, R117). -/
def eoNext (s : State) (m : Nat) : Option (EoTarget × State) :=
  let o := evOut s m
  let queue := (o.queue.head?.filter (eoDue s m)).map fun t => (t, setEvOut s m { o with queue := o.queue.drop 1 })
  let gen := (o.gen.filter (eoDue s m)).map fun t => (t, eoGenNext s m t)
  let hit := match o.cmpHits with
    | t :: ts => some (t, setEvOut s m { o with cmpHits := ts })
    | [] => ((eoCmpTarget s m).filter (eoDue s m)).map fun t => (t, setEvOut s m { o with cmpFixed := some (t.sec, t.ns) })
  eoEarlier hit (eoEarlier queue gen)

/-- EO_PULSE (R117): the edges of the earliest target that has fallen due are fixed. -/
def execEoPulse (m : Fin 8) (s : State) : Host.Outcome State Fault Refusal :=
  if !ticking s || isWedged s (unitOf 4 m) then .next s
  else match eoNext s m with
    | some (t, s) => .next (eoPlace s m t)
    | none => .next s

/-- EO_PULSE_END (R116): the width of the pulse at the ball has run out. -/
def execEoPulseEnd (m : Fin 8) (s : State) : Host.Outcome State Fault Refusal :=
  match (evOut s m).active with
  | p :: rest => if ticking s && decide (p.trailAt ≤ tbTime s) then .next (eoTrail s m p rest) else .next s
  | [] => .next s

/-- Some target of an output is due within the next 16 ns (R117). -/
def eoSoon (s : State) (m : Nat) : Bool :=
  let o := evOut s m
  !o.cmpHits.isEmpty || o.active.any (fun p => decide (tbTime s ≤ p.leadAt))
    || (o.queue.head?.any (eoNear s m)) || o.gen.any (eoNear s m) || (eoCmpTarget s m).any (eoNear s m)

/-- An output takes the newest table of its region where no edge of it is due (R117). -/
def eoTable (s : State) (m : Nat) : State :=
  let b := (region s m).newest
  if eoSoon s m || (evOut s m).table == b then s else setEvOut s m { evOut s m with table := b }

/-- PORT_SET of an event output (R120). -/
def eoPortSet (s : State) (m slot : Nat) (w : Nat → Word) : State :=
  if fld (w 2) 29 28 == 3 then finish s slot stBadParam 0 0
  else
    let en := reg s (Reg.eoCtrl m) &&& 0x80000000#32
    let s := setReg s (Reg.eoCtrl m) ((w 2 &&& 0x73000000#32) ||| en)
    let s := setReg s (Reg.eoWidth m) (w 3 &&& 0x3FFFFFFF#32)
    let s := setReg s (Reg.eoPeriod m) (w 7)
    let s := setEvOut s m { evOut s m with cmpHits := [], cmpFixed := none }
    let s := if fld (w 2) 29 28 == 1 then eoSkip s m ⟨w 4, w 5 &&& 0x3FFFFFFF#32, (w 6).setWidth 16, s.time.tb⟩ else setGen s m none
    finish s slot stDone 0 0

/-- PORT_DISABLE of an event output (R120): the queue is discarded, and the output stops at the end of its pulse. -/
def eoPortDisable (s : State) (m slot : Nat) : State :=
  let o := evOut s m
  let n := o.queue.length
  let s := setEvOut s m { o with queue := [] }
  if !o.active.isEmpty then setCmd (setEvOut s m { evOut s m with closing := some (slot, n) }) slot (fun c => { c with phase := .running })
  else finish (setF s (Reg.eoCtrl m) 31 31 0) slot stDone n 0

end Sys2Proof.Machine
end

