-- ==== Sys2Proof/Machine/Retriever.lean ====
section
/-! DEFINITION. Reads of the slot store, of the banked memories and of the talker table, with what the Retriever does when a
word fails (R335 to R337). -/

namespace Sys2Proof.Machine

/-! ## The slot store (R240, R335) -/

/-- The Retriever marks a slot empty: SEQ becomes 0, the other words stay (R240, R335). -/
def slotEmpty (s : State) (slot : Nat) : State :=
  memPut (count s Reg.slotCounts 31 16 1) .slots (16 * slot + 15) (setFld (memWord s .slots (16 * slot + 15)) 31 16 0)

/-- Words of a slot read and checked in order; the slot is emptied at the first that fails (R335). -/
def slotCheck (s : State) (slot reader : Nat) (readers : List Nat) : List Nat → State × Bool
  | [] => (s, true)
  | w :: ws =>
    let r := memRead s .slots (16 * slot + w) readers
    if r.failed then (slotEmpty (memReport r.s .slots (16 * slot + w) 6 reader slot r.inj) slot, false)
    else slotCheck r.s slot reader readers ws

/-- The words asked for of a slot that is not empty; none for an empty slot and for one that a failed word emptied. -/
def slotTake (s : State) (slot : Nat) (idx : List Nat) (reader : Nat) (readers : List Nat) : State × Option (List Word) :=
  let (s, ok) := slotCheck s slot reader readers (15 :: idx.filter (· != 15))
  if ok && fld (memWord s .slots (16 * slot + 15)) 31 16 != 0 then (s, some (idx.map fun w => memWord s .slots (16 * slot + w)))
  else (s, none)

/-! ## Banked memories (R336) -/

/-- The store number of a banked memory. -/
def storeOf : Mem → Nat
  | .prog => 0
  | .routes => 1
  | .lsts => 2
  | _ => 3

/-- The banked memory of a store number. -/
def memOfStore (n : Nat) : Mem := if n == 0 then .prog else if n == 1 then .routes else if n == 2 then .lsts else .sets

/-- Words of one entry of a banked table (R174, R223, R225). -/
def entryWords : Mem → Nat
  | .lsts => 8
  | .sets => 32
  | _ => 1

/-- The key of the mark of a table entry (R336): the entry that holds a word. -/
def markKey (m : Mem) (a : Nat) : Nat := storeOf m * 65536 + a / entryWords m

/-- A source is recorded for a bank, and its last load did not fault. -/
def bankSourced (s : State) (bank : Nat) : Bool := regB s (Reg.bankSrc bank) 31 && !regB s (Reg.bankSrc bank) 0

/-- The byte offset of a bank word in the image it was loaded from, where it has such a source (R336). -/
def sourceOff (s : State) (m : Mem) (a : Nat) : Option Nat :=
  let bank := a / memBank m
  if !bankSourced s bank then none
  else match m with
    | .prog =>
      if a % 32768 < regF s (Reg.bankSize bank) 15 0 + regF s (Reg.bankSize bank) 31 16 then some (64 + 4 * (a % 32768)) else none
    | _ =>
      let k := sget 0 s.pack.marks (markKey m a)
      if k == 0 then none else some (k - 1 + 4 * (a % entryWords m))

/-- The substitute of a failed bank word (R336). -/
def substitute (m : Mem) : Word :=
  match m with
  | .prog => 0xFFFFFFFF#32
  | .routes => 0xFFFFFFFF#32
  | _ => 0#32

/-- The substitute is written: over a program word, a route entry or a listener-set word, and over the whole of a listener entry, which
is all 0 then (R336). -/
def substPut (s : State) (m : Mem) (a : Nat) : State :=
  match m with
  | .lsts => memPuts s .lsts (a / 8 * 8) (List.replicate 8 0)
  | _ => memPut s m a (substitute m)

/-- A flash command is programming or erasing, so that no re-fetch from flash is made (R336). -/
def flashBusy (s : State) : Bool :=
  s.host.cmds.any fun c => c.phase == .running && (cmdOp c == 0x81 || cmdOp c == 0x82)

/-- The flash master is wedged (R344): unit class 14, number 0. -/
def unitFlash : Nat := unitOf 14 0

/-- The report of a bank word names its bank's memory (R331). -/
def bankReport (s : State) (m : Mem) (a outcome reader : Nat) (inj : Bool) : State :=
  memReportB s m (a / memBank m) (a % memBank m) outcome reader 0 inj

/-- A word has no source left: the substitute is written, counted and reported (R336). -/
def substWord (s : State) (m : Mem) (a reader : Nat) (inj : Bool) : State :=
  bankReport (count (substPut s m a) Reg.retrCountC 15 0 1) m a 3 reader inj

/-- A re-fetch is made of a word at a place behind the recorded source of its bank: its read goes out, or waits (R336, R30, R60). -/
def refetchWord (s : State) (m : Mem) (a reader off : Nat) (flash inj : Bool) : State :=
  let bank := a / memBank m
  let src := addr64 (reg s (Reg.bankSrcLo bank)) (reg s (Reg.bankSrcHi bank)) + off
  let sent := flash || dmaFree s
  let f : Refetch := ⟨storeOf m, a, [reader], inj, flash, src, sent⟩
  let s := { s with pack := { s.pack with refetch := s.pack.refetch ++ [f] } }
  if sent then emit s (.refetchRead flash src 4) else s

/-- An engine. -/
def engine (s : State) (e : Nat) : Engine := sget Engine.init s.pack.engines e

/-- An engine changes. -/
def setEngine (s : State) (e : Nat) (v : Engine) : State :=
  { s with pack := { s.pack with engines := sset Engine.init s.pack.engines e v } }

/-- A reader goes on with the word it waited for: the wait of an engine ends as it executes the word (R187, R336). -/
def readerResume (s : State) (r : Nat) : State :=
  if r < 32 then
    let g := engine s r
    match g.waitTb with
    | none => s
    | some t => setEngine s r { g with waitTb := none, paused := g.paused + sinceTb s t }
  else s

/-- A checked read of a bank word by a reader. None: the reader waits for a re-fetch (R336). -/
def bankRead (s : State) (m : Mem) (a reader : Nat) (readers : List Nat) : State × Option Word :=
  let pass := (storeOf m, a, reader)
  if s.pack.passes.contains pass then
    (readerResume { s with pack := { s.pack with passes := s.pack.passes.erase pass } } reader, some (memWord s m a))
  else if s.pack.refetch.any (fun f => f.store == storeOf m && f.addr == a) then
    let join (f : Refetch) : Refetch :=
      if f.store == storeOf m && f.addr == a && !f.readers.contains reader then { f with readers := f.readers ++ [reader] } else f
    ({ s with pack := { s.pack with refetch := s.pack.refetch.map join } }, none)
  else
    let r := memRead s m a readers
    if !r.failed then (r.s, some r.word)
    else
      let s := r.s
      let bank := a / memBank m
      let fromFlash := regB s (Reg.bankSrc bank) 30
      match sourceOff s m a with
      | none => (substWord s m a reader r.inj, some (substitute m))
      | some off =>
        if fromFlash && (flashBusy s || isWedged s unitFlash) then (substWord s m a reader r.inj, some (substitute m))
        else (refetchWord s m a reader off fromFlash r.inj, none)

/-- PROGRAM_REFETCH_DONE (R336): the oldest re-fetch whose read has gone out returns its word, or fails and the substitute is written; a
failed read of host memory is a DMA fault (R62). The readers that waited continue with the word. -/
def execProgramRefetchDone (data : Option (List Word)) (s : State) : Host.Outcome State Fault Refusal :=
  match s.pack.refetch.find? (·.sent) with
  | none => .next s
  | some f =>
    let m := memOfStore f.store
    let reader := f.readers.headD 0
    let ps := s.pack.passes ++ f.readers.map (fun r => (f.store, f.addr, r))
    let s := { s with pack := { s.pack with refetch := s.pack.refetch.erase f, passes := ps } }
    let s := match data with
      | some (w :: _) => bankReport (count (memPut s m f.addr w) Reg.retrCountC 31 16 1) m f.addr 2 reader f.inj
      | _ => substWord (if f.flash then s else dmaFault s f.src) m f.addr reader f.inj
    .next (readPump s)

/-! ## The talker table (R161, R337) -/

/-- A word of talker entry i, unchecked. -/
def talkW (s : State) (i w : Nat) : Word := memWord s .talkers (16 * i + w)

/-- A word of talker entry i is written. -/
def setTalkW (s : State) (i w : Nat) (v : Word) : State := memPut s .talkers (16 * i + w) v

/-- The records in flight that are charged to talkers: those waiting and those in engines. -/
def recsInFlight (s : State) : List Rec :=
  s.herder.waiting ++ s.pack.engines.filterMap (fun e => if e.2.rebuild == none then e.2.recd else none)

/-- Records in flight, rebuild runs included (R16, R334). -/
def inFlight (s : State) : Nat :=
  s.herder.waiting.length + (s.pack.engines.filter (fun e => e.2.recd != none)).length

/-- The granules held by records charged to entry i. -/
def useOf (s : State) (i : Nat) : Nat :=
  ((recsInFlight s).filter (fun r => r.talker == i)).foldl (fun a r => a + r.count) 0

/-- A talker is heard at this instant (R160): LAST_HEARD, and the tick for its silence. -/
def hear (s : State) (i : Nat) : State :=
  let s := setTalkW (setTalkW s i 11 (shortSec (now s))) i 12 (shortNs (now s))
  { s with herder := { s.herder with heard := sset 0 s.herder.heard i (s.time.tb + 1) } }

/-- The Retriever treats a failed word of a talker entry (R337). -/
def talkerRepair (s : State) (i w reader : Nat) (inj : Bool) : State :=
  if w < 8 then memReport (setTalkW s i 3 (setFld (talkW s i 3) 31 31 0)) .talkers (16 * i + w) 8 reader i inj
  else if w == 8 then memReport (setTalkW s i 8 (BitVec.ofNat 32 (useOf s i))) .talkers (16 * i + w) 10 reader i inj
  else if w < 11 then memReport (setTalkW (setTalkW s i 9 0) i 10 0) .talkers (16 * i + w) 10 reader i inj
  else
    let s := hear (setTalkW (setTalkW (setTalkW s i 13 0) i 14 0) i 15 0) i
    memReport s .talkers (16 * i + w) 10 reader i inj

/-- Words of a talker entry are read and checked in order; a failed word is treated under R337. True when an injected occurrence was met. -/
def talkerRead (s : State) (i reader : Nat) (readers : List Nat) : List Nat → State × Bool
  | [] => (s, false)
  | w :: ws =>
    let r := memRead s .talkers (16 * i + w) readers
    let (s, inj) := talkerRead (if r.failed then talkerRepair r.s i w reader r.inj else r.s) i reader readers ws
    (s, r.inj || inj)

/-- Words of a talker entry are read and checked. -/
def talkerCheck (s : State) (i reader : Nat) (readers ws : List Nat) : State := (talkerRead s i reader readers ws).1

/-- The same of several entries. -/
def talkersRead (s : State) (ws : List Nat) (reader : Nat) : List Nat → State × Bool
  | [] => (s, false)
  | i :: is =>
    let (s, a) := talkerRead s i reader [] ws
    let (s, b) := talkersRead s ws reader is
    (s, a || b)

/-- An entry is valid (R161). -/
def talkerValid (s : State) (i : Nat) : Bool := bit (talkW s i 3) 31

/-- The valid entries, ascending. -/
def validTalkers (s : State) : List Nat :=
  s.talkers.filterMap fun e => if e.1 % 16 == 3 && bit (memData e.2) 31 then some (e.1 / 16) else none

end Sys2Proof.Machine
end

