-- ==== Sys2Proof/Machine/SerialBase.lean ====
section
/-! DEFINITION. Serial ports: character times, and the Leash (06_serial_ports.md R124, R125, R143 to R145). -/

namespace Sys2Proof.Machine

/-- A serial port beside its registers. -/
def serial (s : State) (p : Nat) : SerialPort := sget SerialPort.init s.serial p

/-- A serial port changes. -/
def setSerial (s : State) (p : Nat) (v : SerialPort) : State := { s with serial := sset SerialPort.init s.serial p v }

/-- The unit of a serial port. -/
def unitSerial (p : Nat) : Nat := unitOf 0 p

/-- MODE: 0 full duplex, 1 half duplex, 2 raw (R121). -/
def spMode (s : State) (p : Nat) : Nat := regF s (Reg.spCtrl p) 30 29

/-- Bits of a character: start, data, parity and stop (R124). -/
def charBits (s : State) (p : Nat) : Nat :=
  1 + (5 + regF s (Reg.spFormat p) 1 0) + (if regF s (Reg.spFormat p) 4 2 == 0 then 0 else 1) + (1 + regF s (Reg.spFormat p) 5 5)

/-- n bit times of a port in units of 2^-16 ns: DIV periods of 117.964 8 MHz each (R125). -/
def bitsTime (s : State) (p n : Nat) : Nat := n * regF s (Reg.spDiv p) 18 0 * 5000000 / 9

/-- n character times in units of 2^-16 ns (R124). -/
def charsTime (s : State) (p n : Nat) : Nat := bitsTime s p (n * charBits s p)

/-- n character times in TB ticks, rounded up. -/
def charsTicks (s : State) (p n : Nat) : Nat := ceilDiv (charsTime s p n) 262144

/-- The next character boundary of an item on the wire: its number and its time. -/
def charBoundary (s : State) (p : Nat) (r : TxRun) : Nat × Int :=
  let ct := max 1 (charsTime s p 1)
  let k := min r.bytes.length (r.sent + ceilDiv (tbTime s - r.base).toNat ct)
  (k, r.base + (charsTime s p (k - r.sent) : Nat))

/-- Where the character before a boundary stands: at the head of a line, where a TAG block may open; in the text of a line; in a TAG
block; behind its closing backslash. -/
inductive LinePlace where
  | head
  | text
  | tag
  | afterTag
  deriving DecidableEq, Repr

/-- The place behind one more character. -/
def LinePlace.next (c : Byte) : LinePlace → LinePlace
  | .tag => if c == 0x5C#8 then .afterTag else .tag
  | .text => if c == 0x0A#8 then .head else .text
  | .head => if c == 0x5C#8 then .tag else if c == 0x0A#8 then .head else .text
  | .afterTag => if c == 0x5C#8 then .tag else .text

/-- The first boundary from number k on that does not lie between the start of a TAG block and the first character of the sentence
proper (R145); i is the number of the boundary before the rest of the bytes. -/
def leashBoundary (k : Nat) : List Byte → Nat → LinePlace → Nat
  | [], i, _ => i
  | c :: cs, i, place =>
    if k ≤ i && place != .tag && place != .afterTag then i else leashBoundary k cs (i + 1) (place.next c)

/-- The next boundary of an item on the wire at which it may stop or take in a Leash character: its number and its time (R143, R145). Raw
bytes have no TAG blocks. -/
def nextBoundary (s : State) (p : Nat) (r : TxRun) : Nat × Int :=
  let (k, _) := charBoundary s p r
  let b := if spMode s p == 2 then k else leashBoundary k r.bytes 0 .head
  (b, r.base + (charsTime s p (b - r.sent) : Nat))

/-- The boundary at which the transmitter can next send a Leash character (R144, R145). -/
def leashBound (s : State) (p : Nat) : Int :=
  let v := serial s p
  match v.run with
  | some r => match r.pause with
    | some (_, at_) => max at_ (tbTime s)
    | none => (nextBoundary s p r).2
  | none => max v.freeAt (tbTime s)

/-- A Leash character leaves at a boundary; what is left of an item in progress follows it (R144). -/
def leashDepart (s : State) (p : Nat) (xoff : Bool) (at_ : Int) : State :=
  let s := emit (setF s (Reg.spStatus p) 12 12 (b2n xoff)) (.serialLeash p xoff)
  let behind : Int := at_ + (charsTime s p 1 : Nat)
  let v := { serial s p with sinceXoff := 0, leashAt := behind }
  match v.run with
  | some r =>
    if r.pause.isSome then setSerial s p { v with run := some { r with pause := r.pause.map fun b => (b.1, behind) } }
    else if at_ < r.endAt then
      let ct := max 1 (charsTime s p 1)
      let k := r.sent + ((at_ - r.base).toNat + ct / 2) / ct
      setSerial s p { v with run := some { r with base := behind, sent := k, endAt := behind + (charsTime s p (r.bytes.length - k) : Nat) } }
    else setSerial s p { v with freeAt := behind }
  | none => setSerial s p { v with freeAt := behind }

/-- GEN acts: it is set, the port is enabled, not in half duplex, and owns its transmitter (R143, R144). -/
def leashGen (s : State) (p : Nat) : Bool :=
  regB s (Reg.spLeash p) 30 && spMode s p != 1 && portEn s 0 p && owns s (epSerial p)

/-- The Leash characters that wait leave as their boundaries are reached; a port that may send none forgets them (R144). -/
def leashRun (s : State) (p : Nat) : List Bool → State
  | [] => setSerial s p { serial s p with leash := [] }
  | x :: xs =>
    if !leashGen s p then setSerial s p { serial s p with leash := [] }
    else if tbTime s < (serial s p).leashAt then setSerial s p { serial s p with leash := x :: xs }
    else leashRun (leashDepart s p x (serial s p).leashAt) p xs

/-- A Leash character is due: it leaves at the next boundary, ahead of queued items (R144). -/
def leashSend (s : State) (p : Nat) (xoff : Bool) : State :=
  let v := serial s p
  let at_ := if v.leash.isEmpty then leashBound s p else v.leashAt
  leashRun (setSerial s p { v with leashAt := at_, sinceXoff := 0 }) p (v.leash ++ [xoff])

/-- The valid talkers keyed on a serial port (R158). -/
def portTalkers (s : State) (p : Nat) : List Nat :=
  (validTalkers s).filter fun i => fld (talkW s i 0) 31 28 == 0 && fld (talkW s i 0) 22 16 == p

/-- A talker's use reaches a percentage of its reservation (R144). -/
def useAtLeast (s : State) (i pct : Nat) : Bool :=
  let use := fld (talkW s i 8) 16 0
  let res := fld (talkW s i 7) 16 0
  if res == 0 then decide (0 < use) else decide (pct * res ≤ 100 * use)

/-- A talker's use is at or below a percentage of its reservation (R144). -/
def useAtMost (s : State) (i pct : Nat) : Bool :=
  let use := fld (talkW s i 8) 16 0
  let res := fld (talkW s i 7) 16 0
  if res == 0 then use == 0 else decide (100 * use ≤ pct * res)

/-- The port sends XOFF or XON as its talkers' use asks (R144). -/
def leashUpdate (s : State) (p : Nat) : State :=
  if !leashGen s p then s
  else
    let sent := (serial s p).leash.getLast?.getD (regB s (Reg.spStatus p) 12)
    let hi := min 100 (regF s (Reg.spLeash p) 22 16)
    let lo := regF s (Reg.spLeash p) 14 8
    if !sent && (portTalkers s p).any (fun i => useAtLeast s i hi) then leashSend s p true
    else if sent && (portTalkers s p).all (fun i => useAtMost s i lo) then leashSend s p false
    else s

/-- The Leash of the port that a talker is keyed on, after a change of its use or reservation. -/
def leashTalker (s : State) (i : Nat) : State :=
  if fld (talkW s i 0) 31 28 == 0 then leashUpdate s (fld (talkW s i 0) 22 16) else s

/-! ## Receive status and data (R132 to R135) -/

/-- A sticky flag of SP_STATUS is set anew: 31 FE, 30 PE, 29 OE; an armed clear of it is disarmed (R132, R133). -/
def spFlag (s : State) (p b : Nat) : State :=
  let v := serial s p
  let m := 2 ^ (b - 29)
  setF (setSerial s p { v with armed := if v.armed / m % 2 == 1 then v.armed - m else v.armed }) (Reg.spStatus p) b b 1

/-- A character as SP_DATA shows it. -/
def rawWord (c : RawChar) : Word := BitVec.ofNat 32 (b2n c.fe * 1024 + b2n c.pe * 512 + 256 + c.ch.toNat)

/-- A read takes a character (R135). -/
def spTake (s : State) (p : Nat) : State × Word :=
  let v := serial s p
  if spMode s p == 2 then
    match v.fifo with
    | c :: cs => (setSerial s p { v with fifo := cs }, rawWord c)
    | [] => (s, 0)
  else match v.lastChar with
    | some c => (setSerial s p { v with lastChar := none }, rawWord c)
    | none => (s, 0)

/-- SP_STATUS as read: the flags, and the state of the port. -/
def spStatus (s : State) (p : Nat) : Word :=
  let v := serial s p
  let w := reg s (Reg.spStatus p)
  let w := setFld w 11 11 (b2n (v.staged.isSome || v.run.isSome || v.attempts != 0))
  let w := setFld w 10 10 (b2n (shown s (owns s (epSerial p))))
  let w := setFld w 9 9 (b2n (if spMode s p == 2 then !v.fifo.isEmpty else v.lastChar.isSome))
  let w := setFld w 8 8 (b2n (!v.text.isEmpty || v.low.isSome))
  let w := setFld w 7 7 (b2n (v.setTx.isSome || v.setRx.isSome))
  setFld w 6 0 v.fifo.length

/-- A read of SP_STATUS arms a clear of the flags that it returns as 1 (R133). -/
def spStatusRead (s : State) (p : Nat) : State × Word :=
  let w := spStatus s p
  (setSerial s p { serial s p with armed := fld w 31 29 }, w)

/-- A read of SP_DATA returns and removes a character, and clears the armed flags (R133, R135). -/
def spDataRead (s : State) (p : Nat) : State × Word :=
  let armed := (serial s p).armed
  let s := setF s (Reg.spStatus p) 31 29 (regF s (Reg.spStatus p) 31 29 - (regF s (Reg.spStatus p) 31 29 &&& armed))
  spTake (setSerial s p { serial s p with armed := 0 }) p

/-- ACKSTAT (R134): the sequence at one instant; a set that the host has armed stays in place. -/
def ackstat (s : State) (p : Nat) : State × Word :=
  let flags := regF s (Reg.spStatus p) 31 29
  let (s, w) := spTake (setF s (Reg.spStatus p) 31 29 0) p
  (s, setFld w 31 29 flags)

end Sys2Proof.Machine
end

