-- ==== Sys2Proof/Machine/Time.lean ====
section
/-! DEFINITION. The local clock, its comparisons, its servo and its time-of-day pairing (03_time_base.md, 04_network_time.md). -/

namespace Sys2Proof.Machine

/-- The time core changes. -/
def setTime (s : State) (t : TimeCore) : State := { s with time := t }

/-! ## The tick and the step (R63, R64) -/

/-- The clock in units of 2^-38 ns wraps here: 2^48 s. -/
def clkMod : Nat := 2 ^ 48 * 1000000000 * 2 ^ 38

/-- The RATE that the next tick adds: RATE_SET while RATE_SRC is 1 (R64). -/
def tickRate (s : State) : Word := if regB s Reg.timeCtrl 0 then reg s Reg.rateSet else s.time.rateNext

/-- Engines that execute a record, and engines online and not wedged (R25, R183). DESIGN CHOICE (log 154): an engine of a DRAINING group
counts as online until its group goes OFFLINE. -/
def engineUse (s : State) : Nat × Nat :=
  let on := (List.range 32).filter fun e => sget 2 s.pack.groups (e / 4) != 0 && sget 2 s.pack.groups (e / 4) != 1
    && !(sget Engine.init s.pack.engines e).wedged
  ((on.filter fun e => (sget Engine.init s.pack.engines e).recd.isSome).length, on.length)

/-- One TB tick: the clock gains 4 ns and RATE × 2^-38 ns (R63), and the occupancy window counts engine time (R25). -/
def tick (s : State) : State :=
  let r := tickRate s
  let t := s.time
  let (busy, online) := engineUse s
  let s := { s with vid := { s.vid with busy := s.vid.busy + busy, online := s.vid.online + online } }
  let clk := (((t.clk : Int) + (2 ^ 40 : Nat) + r.toInt) % (clkMod : Int)).toNat
  setReg (setTime s { t with clk := clk, tb := t.tb + 1, rateNext := r }) Reg.rate r

/-- What has reached its launch time stays released when the clock steps (R70): queued copies, frames of CAN_SEND and of ETH_LAUNCH. -/
def keepReleased (s : State) : State :=
  let copy (c : Copy) : Copy := { c with released := c.launch.isSome && launched s c.launch c.setTb c.released }
  let send (x : SendFrame) : SendFrame := { x with released := x.launch.isSome && launched s x.launch x.setTb x.released }
  let frame (x : LaunchFrame) : LaunchFrame := { x with released := x.launch.isSome && launched s x.launch x.setTb x.released }
  { s with lq := { s.lq with copies := s.lq.copies.map copy },
           can := s.can.map fun e => (e.1, { e.2 with sends := e.2.sends.map send }),
           eth := s.eth.map fun e => (e.1, { e.2 with launches := e.2.launches.map frame }) }

/-- The clock is stepped by a signed amount in units of 2^-16 ns (R64, R70): samples begun before it are void (R88), and event
outputs lose the targets that it passes (R118). -/
def stepClock (s : State) (d : Int) : State :=
  let s := keepReleased s
  let t := s.time
  let clk := (((t.clk : Int) + d * (2 ^ 22 : Nat)) % (clkMod : Int)).toNat
  eoStepped s (setTime s { t with clk := clk, steps := t.steps + 1, utcOld := [] }) 8

/-! ## The servo (R86 to R98) -/

/-- SERVO_STATUS.STATE: 0 IDLE, 1 WAIT, 2 ACQUIRE, 3 TRACK, 4 HOLD_SILENT, 5 HOLD_REFUSED, 6 REACQUIRE. -/
def servoState (s : State) : Nat := regF s Reg.servoStatus 26 24

/-- The servo enters a state. -/
def setServo (s : State) (v : Nat) : State := setF s Reg.servoStatus 26 24 v

/-- The hub is in the reference role. -/
def isReference (s : State) : Bool := regB s Reg.servoStatus 0

/-- The follower's source: 0 PTP port, 1 PPS, 2 pair link, 3 none. -/
def servoSource (s : State) : Nat := regF s Reg.servoStatus 5 4

/-- The source named in a report of silence (R92, R95). -/
def holdSource (s : State) : Nat := if isReference s then 1 else servoSource s

/-- The unit of the time detectors (R329). -/
def unitTime : Nat := unitOf 8 0

/-- The servo or slew runs on an accepted sample (R91, R96); it is suspended while RATE_SRC is 1 (R98). -/
def runServo (s : State) (e : Int) : State :=
  if regB s Reg.timeCtrl 0 then s
  else
    let x := e / 64
    let kp := min 24 (regF s Reg.servoGain 4 0)
    let ki := min 24 (regF s Reg.servoGain 12 8)
    let i := sat32 ((reg s Reg.servoInteg).toInt - x / (2 ^ ki : Nat))
    let p := -(x / (2 ^ kp : Nat))
    let lim : Int := (max 1 (regF s Reg.slewMax 30 0) : Nat)
    let p := if isReference s then (if p < -lim then -lim else if lim < p then lim else p) else p
    let s := setReg s Reg.servoInteg (ofInt i)
    setTime s { s.time with rateNext := ofInt (sat32 (i + p)) }

/-- An offset in whole nanoseconds, saturated (R90). -/
def ofsNs (e : Int) : Int :=
  let n := e / 65536
  if n < -2147483647 then -2147483647 else if 2147483647 < n then 2147483647 else n

/-- LAST_OFS takes a sample. -/
def lastOfs (s : State) (e : Int) (refused : Bool) : State :=
  setReg (setReg s Reg.lastOfsNs (ofInt (ofsNs e))) Reg.lastOfsFrac
    (BitVec.ofNat 32 ((e % 65536).toNat + b2n refused * 2 ^ 31))

/-- A sample of the active source is judged (R89, R90): source 0 PTP, 1 PPS, 2 pair link, 3 time of day. An accepted one runs the
servo where it may. -/
def judge (s : State) (src : Nat) (e : Int) (servo : Bool) : State :=
  let (s, silent) := injected s 0x31 [unitTime]
  if silent then fire (setServo s 4) 0x31 unitTime 1 (holdSource s) true none else
  let (s, inj) := injected s 0x30 [unitTime]
  let s := if isReference s then s else setTime s { s.time with sampleTb := s.time.tb }
  if inj || regF s Reg.jumpThr 29 0 * 65536 < e.natAbs then
    let was := servoState s
    let s := setServo (lastOfs (count s Reg.timeCounts 31 16 1) e true) 5
    if was == 5 && !inj then s
    else fire s 0x30 unitTime src ((ofsNs e) % 2 ^ 32).toNat inj none
  else
    let s := setServo (lastOfs (count s Reg.timeCounts 15 0 1) e false) 3
    if servo then runServo s e else s

/-- A sample begun before a clock step is discarded (R88). -/
def discardStep (s : State) : State := count s Reg.timeDiscards 15 0 1

/-- An offset sample of a follower's source, formed from stamps taken after these counts of steps. -/
def followerSample (s : State) (src : Nat) (e : Int) (steps : List Nat) : State :=
  if isReference s || servoSource s != src then s
  else if steps.any (· != s.time.steps) then discardStep s
  else judge s src e true

/-- Every pending TIME_REACQUIRE completes with a status. -/
def endReacquire (s : State) (status : Nat) : State :=
  (openCmds s 0x32).foldl (fun s c => finish s c.slot status 0 0) s

/-! ## Time of day (R93 to R95) -/

/-- PAIR_WINDOW in units of 2^-16 ns. -/
def pairWindow (s : State) : Nat := clampNat 1 1000 (regF s Reg.todCtrl 25 16) * 1000000 * 65536

/-- The filter width of an event input in TB ticks (R107). -/
def eiWidth (s : State) (i : Nat) : Nat :=
  regF s (Reg.eiFilt i) 15 0 * (if regB s (Reg.eiFilt i) 31 then Config.tickUs else 1)

/-- UTC_OFFSET. -/
def utcOffset (s : State) : Int := sext 16 (regF s Reg.todCtrl 15 0)

/-- UTC_OFFSET in force at a stamp: a write applies to edges stamped after it (R94). -/
def utcAt : List (Stamp × Int) → Stamp → Int → Int
  | [], _, v => v
  | (w, old) :: rest, t, v => if w < t then v else utcAt rest t old

/-- The time-of-day offset of a pairing (R87). -/
def todOffset (t : Tod) (p : PpsEdge) : Int :=
  (p.edge.stamp : Int) - ((t.utc : Int) + p.utc) * (1000000000 * 65536 : Nat)

/-- A pairing (R94, R95): in ACQUIRE and REACQUIRE it steps the clock, else it is judged. DESIGN CHOICE (log 159): an injected DET_TIME_JUMP
does not meet a pairing that steps the clock; it waits for the first sample that is judged. -/
def pairTod (s : State) (t : Tod) (p : PpsEdge) (servo : Bool) : State :=
  if t.arrival.steps != s.time.steps || p.edge.steps != s.time.steps then discardStep s
  else if !isReference s then s
  else
    let o := todOffset t p
    if servoState s == 2 || servoState s == 6 then
      let s := lastOfs s o false
      if regB s Reg.timeCtrl 0 then s else endReacquire (setServo (stepClock s (-o)) 3) stDone
    else judge s 3 o servo

/-- The TIMESET in wait is dropped and counted (R94). -/
def todDrop (s : State) : State := count (setTime s { s.time with tod := none }) Reg.timeDiscards 31 16 1

/-- TOD_PAIRING (R94): a TIMESET whose edge is known is paired; the edge has given its PPS sample already. -/
def todPair (s : State) : State :=
  match s.time.tod with
  | none => s
  | some t => match t.pair with
    | none => s
    | some p => pairTod (setTime s { s.time with tod := none }) t p false

/-- TOD_PAIRING (R94). -/
def execTodPairing (s : State) : Host.Outcome State Fault Refusal := .next (if ticking s then todPair s else s)

/-- A TIMESET reaches the time core with UTC seconds and the arrival stamp of its record (R93, R94, R212). The previous edge may have been
stamped before a clock step, and the pairing is discarded then (R88). -/
def timeset (s : State) (utc : Nat) (arrival : Edge) : State :=
  let s := todPair s
  if !isReference s then s
  else if arrival.steps != s.time.steps then discardStep s
  else
    if regB s Reg.todCtrl 31 then
      let s := if s.time.tod.isSome then todDrop s else s
      let later := s.time.pps.filter fun p => p.edge.steps == arrival.steps && decide (arrival.stamp < p.edge.stamp)
      let hit := (later.getLast?).filter fun p => decide (p.edge.stamp ≤ arrival.stamp + pairWindow s)
      setTime s { s.time with tod := some ⟨utc, arrival, hit⟩ }
    else
      match (s.time.pps.find? (fun p => decide (p.edge.stamp ≤ arrival.stamp))).filter
          (fun p => decide (arrival.stamp ≤ p.edge.stamp + pairWindow s)) with
      | some p =>
        let s := if s.time.tod.isSome then todDrop s else s
        setTime s { s.time with tod := some ⟨utc, arrival, some p⟩ }
      | none => count s Reg.timeDiscards 31 16 1

/-- PAIR_WINDOW_CLOSE (R94): the window of a waiting TIMESET has closed. -/
def execPairWindowClose (s : State) : Host.Outcome State Fault Refusal :=
  match s.time.tod with
  | none => .next s
  | some t =>
    let width := eiWidth s (regF s Reg.servoStatus 20 16) * 4 * 65536
    if ticking s && t.pair.isNone && decide (t.arrival.stamp + pairWindow s + width ≤ now s) then
      (if t.arrival.steps == s.time.steps then .next (todDrop s)
       else .next (discardStep (setTime s { s.time with tod := none })))
    else .next s

/-- The nanoseconds and fraction of an edge as an offset in [−0.5 s, +0.5 s) (R87). -/
def ppsOffset (t : Stamp) : Int :=
  let v := t % (1000000000 * 65536)
  if 500000000 * 65536 ≤ v then (v : Int) - (1000000000 * 65536 : Nat) else v

/-- An accepted active edge of the PPS input (R87, R94, R95, R114). -/
def ppsEdge (s : State) (e : Edge) : State :=
  let p : PpsEdge := ⟨e, utcAt s.time.utcOld e.stamp (utcOffset s)⟩
  let s := setTime s { s.time with pps := p :: s.time.pps }
  if !isReference s then followerSample s 1 (ppsOffset e.stamp) [e.steps]
  else
    let s := setTime s { s.time with sampleTb := s.time.tb }
    let waits := (s.time.tod).filter fun t => t.pair.isNone && decide (t.arrival.stamp < e.stamp)
      && decide (e.stamp ≤ t.arrival.stamp + pairWindow s)
    match waits with
    | some t => pairTod (setTime s { s.time with tod := none }) t p true
    | none =>
      if servoState s == 2 || servoState s == 6 then s
      else if e.steps != s.time.steps then discardStep s
      else judge s 1 (ppsOffset e.stamp) true

/-- HOLD_TIMEOUT in ticks. -/
def holdTicks (s : State) : Nat := max 10 (regF s Reg.holdCtrl 15 0) * Config.tickMs

/-- HOLD_TIMEOUT (R92, R95): the source has been silent for HOLD_TIMEOUT. -/
def execHoldTimeout (s : State) : Host.Outcome State Fault Refusal :=
  let st := servoState s
  if ticking s && (st == 3 || st == 5 || (st == 1 && !isReference s)) && decide (holdTicks s ≤ sinceTb s s.time.sampleTb) then
    .next (fire (setServo s 4) 0x31 unitTime 1 (holdSource s) false none)
  else .next s

/-! ## The time commands (R97) -/

/-- TIME_STEP: the clock is stepped in the follower role. -/
def execTimeStep (slot : Fin 256) (s : State) : Host.Outcome State Fault Refusal :=
  match cmdReady s slot.val 0x30 with
  | none => .next s
  | some c =>
    if isReference s then .next (finish s slot.val stWrongState 0 0)
    else
      let d := ((cmdW c 1).toInt * 1000000000 + (cmdW c 2).toInt) * 65536 + (fld (cmdW c 3) 15 0 : Nat)
      let s := stepClock s d
      let s := if servoState s == 0 then s else setTime (setServo s 1) { s.time with sampleTb := s.time.tb }
      .next (finish s slot.val stDone 0 0)

/-- TIME_ROLE takes effect from its words: the same role and source set JUMP_THR only; others start afresh. DESIGN CHOICE: in the reference
role SOURCE keeps its value and PTP_PORT shows W1[9:8] (log 160); edges that an input accepted before TIME_ROLE named it are not known to
a pairing, and those known are kept while the input stays the same (log 161). -/
def timeRole (s : State) (slot : Nat) (w1 w2 : Word) : State :=
  let ref := bit w1 0
  let src := fld w1 5 4
  let s := setReg s Reg.jumpThr (w2 &&& 0x3FFFFFFF#32)
  let sameInput := regF s Reg.servoStatus 20 16 == fld w1 20 16
  let same := if ref then isReference s && sameInput
    else !isReference s && src == servoSource s && (src != 0 || regF s Reg.servoStatus 9 8 == fld w1 9 8) && (src != 1 || sameInput)
  if same then finish s slot stDone 0 0
  else
    let s := setF (setF (setF s Reg.servoStatus 20 16 (fld w1 20 16)) Reg.servoStatus 9 8 (fld w1 9 8)) Reg.servoStatus 0 0 (b2n ref)
    let s := if ref then s else setF s Reg.servoStatus 5 4 src
    let s := setServo s (if ref then 2 else if src == 3 then 0 else 1)
    let s := setTime s { s.time with sampleTb := s.time.tb, tod := none, pps := if sameInput then s.time.pps else [] }
    let s := if ref then s else endReacquire s stWrongState
    finish s slot stDone 0 0

/-- TIME_ROLE (R97). -/
def execTimeRole (slot : Fin 256) (s : State) : Host.Outcome State Fault Refusal :=
  match cmdReady s slot.val 0x31 with
  | none => .next s
  | some c => .next (timeRole s slot.val (cmdW c 1) (cmdW c 2))

/-- TIME_REACQUIRE: the next pairing steps the clock. -/
def execTimeReacquire (slot : Fin 256) (s : State) : Host.Outcome State Fault Refusal :=
  match cmdReady s slot.val 0x32 with
  | none => .next s
  | some _ =>
    if !isReference s then .next (finish s slot.val stWrongState 0 0)
    else .next (cmdOpen (if servoState s == 2 then s else setServo s 6) slot.val)

/-! ## Snapshots, compare units, the reference clock (R67, R71, R72) -/

/-- TIME_LATCH_CAPTURE (R67). -/
def timeCapture (s : State) : State :=
  let t := now s
  let s := setReg (setReg s Reg.timeSnapSecHi (BitVec.ofNat 32 (stSec t / 2 ^ 32))) Reg.timeSnapSecLo (BitVec.ofNat 32 (stSec t))
  setReg (setReg s Reg.timeSnapNs (BitVec.ofNat 32 (stNs t))) Reg.timeSnapFrac
    (BitVec.ofNat 32 (stFrac t + (regF s Reg.timeSnapFrac 31 24 + 1) % 256 * 2 ^ 24))

/-- TIME_LATCH_CAPTURE (R67). -/
def execTimeLatchCapture (s : State) : Host.Outcome State Fault Refusal := .next (if bar0Writes s then timeCapture s else s)

/-- What a compare unit holds beside its registers. -/
def cmpUnit (s : State) (n : Nat) : CmpUnit := sget CmpUnit.init s.time.cmp n

/-- A compare unit changes. -/
def setCmp (s : State) (n : Nat) (u : CmpUnit) : State := setTime s { s.time with cmp := sset CmpUnit.init s.time.cmp n u }

/-- CMP_TARGET_LOAD (R71): the held seconds and the nanoseconds become the target. -/
def cmpLoad (s : State) (n : Nat) (ns : Word) : State :=
  let s := setReg (setReg s (Reg.cmpSec n) (cmpUnit s n).heldSec) (Reg.cmpNs n) (ns &&& 0x3FFFFFFF#32)
  setCmp s n { cmpUnit s n with setTb := s.time.tb }

/-- CMP_TARGET_LOAD (R71). -/
def execCmpTargetLoad (n : Fin 4) (ns : Word) (s : State) : Host.Outcome State Fault Refusal :=
  .next (if bar0Writes s then cmpLoad s n.val ns else s)

/-- A write of CMPn_CTRL.EN: a change from 0 to 1 arms the unit, and its target is judged at later ticks (R68, R71). -/
def cmpCtrl (s : State) (n : Nat) (en : Bool) : State :=
  let was := regB s (Reg.cmpCtrl n) 0
  let s := setF s (Reg.cmpCtrl n) 0 0 (b2n en)
  if en && !was then setCmp s n { cmpUnit s n with setTb := s.time.tb } else s

/-- CMP_ENABLE (R71). -/
def execCmpEnable (n : Fin 4) (s : State) : Host.Outcome State Fault Refusal :=
  .next (if bar0Writes s then cmpCtrl s n.val true else s)

/-- COMPARE_HIT (R71): HIT, the outputs triggered (R116), then the next target, or EN cleared. -/
def execCompareHit (n : Fin 4) (s : State) : Host.Outcome State Fault Refusal :=
  let n := n.val
  let sec := reg s (Reg.cmpSec n)
  let ns := reg s (Reg.cmpNs n)
  if !(ticking s && regB s (Reg.cmpCtrl n) 0 && reached s sec ns (cmpUnit s n).setTb) then .next s
  else
    let s := eoCompare (setF s Reg.cmpStatus n n 1) n sec ns 8
    let p := (reg s (Reg.cmpPeriod n)).toNat
    if p == 0 then .next (setF s (Reg.cmpCtrl n) 0 0 0)
    else
      let p := max 1000 p
      let next := shortAdd sec ns p
      let d := dNow s next.1 next.2
      let (t, s) :=
        if d < 0 then (next, s)
        else
          let k := skipPeriods d p
          (shortAdd next.1 next.2 (k * p), count (setF s Reg.cmpStatus (4 + n) (4 + n) 1) (Reg.cmpCtrl n) 31 16 k)
      let s := setReg (setReg s (Reg.cmpSec n) t.1) (Reg.cmpNs n) t.2
      .next (setCmp s n { cmpUnit s n with setTb := s.time.tb })

/-- REFCLK_LOSS (R72): the PLL holds its control value, and TB keeps running. -/
def execRefclkLoss (s : State) : Host.Outcome State Fault Refusal :=
  if powered s && regB s Reg.timeStatus 0 then
    let s := count (setF s Reg.timeStatus 0 0 0) Reg.timeStatus 31 16 1
    .next (fire s 0x31 unitTime 3 0 false none)
  else .next s

/-- Every region starts an interval, with the settings in force at this tick (R80). -/
def firstIntervals (s : State) : State := (List.range 8).foldl (fun s g => newInterval s g false (freshMode s)) s

/-- The SerDes PLL is taken to lock with the REFCLK PLL, and the phase of its symbol grid is measured (R102): a free value (log 158). -/
def gridMeasure (s : State) : State :=
  let (s, w) := takeWord s
  setTime s { s.time with gridPhase := w.toNat % 524288 }

/-- PLL_LOCK (R63, R72, R80): the first lock after a reset starts TB and with it the first interval of each region; a later one relocks
without a step. -/
def execPllLock (s : State) : Host.Outcome State Fault Refusal :=
  if !powered s then .next s
  else
    let s := gridMeasure (setF s Reg.timeStatus 0 0 1)
    if s.time.locked then .next s
    else .next (firstIntervals (setTime s { s.time with locked := true }))

end Sys2Proof.Machine
end

