-- ==== Sys2Proof/Machine/Intake.lean ====
section
/-! DEFINITION. The Kennel, records, talkers and admission (07_intake_talkers.md). -/

namespace Sys2Proof.Machine

/-- A completed record that comes to admission (R156, R157): its type, source unit, key, and header fields. -/
structure Arrived where
  typ : Nat
  src : Nat
  /-- The 96-bit talker key (R158). -/
  key : Nat
  /-- First granule of its staging run, where it has one (R154). -/
  stage : Option Nat
  epoch : Nat
  lost : Bool
  inj : Bool
  charErr : Bool
  woke : Bool
  sum : Nat
  rxq0 : Bool
  first : Stamp
  last : Stamp
  aux0 : Nat
  aux1 : Nat
  aux2 : Nat
  payload : List Byte
  /-- Clock steps taken before its first stamp. -/
  steps : Nat
  deriving DecidableEq, Repr

/-! ## Granules (R154, R155) -/

/-- Granules of the pool. -/
def poolSize : Nat := 124212

/-- Granules of a record with a payload of n bytes. -/
def recGranules (n : Nat) : Nat := 3 + ceilDiv n 16

/-- The first run of n free granules, searching upward past the runs held. -/
def freeRun (n : Nat) : List (Nat × Nat) → Nat → Option Nat
  | [], cur => if cur + n ≤ poolSize then some cur else none
  | (f, c) :: rs, cur => if cur + n ≤ f then some cur else freeRun n rs (f + c)

/-- Free pool granules. A run that several hold, a record in flight and the rebuild of its item, counts once. -/
def kennelFree (s : State) : Nat := poolSize - s.herder.runs.eraseDups.foldl (fun a r => a + r.2) 0

/-- A run of granules is held. -/
def holdRun (s : State) (g n : Nat) : State :=
  { s with herder := { s.herder with runs := insertBy (fun a b => decide (a.1 ≤ b.1)) (g, n) s.herder.runs } }

/-- A holder of a run of granules lets it go; with its last holder it is free, and its contents stay (R155, R334). -/
def dropRun (s : State) (g : Nat) : State :=
  { s with herder := { s.herder with runs := s.herder.runs.eraseP (fun r => r.1 == g) } }

/-- KENNEL_LOW and INFLIGHT.PEAK follow a commit. -/
def lowPeak (s : State) : State :=
  { s with herder := { s.herder with low := min s.herder.low (kennelFree s), peak := max s.herder.peak (inFlight s) } }

/-! ## Lookup and learning (R158 to R160) -/

/-- The three words of a key. -/
def keyWord (key k : Nat) : Word := BitVec.ofNat 32 (key / 2 ^ (32 * (2 - k)))

/-- An entry holds a key. -/
def keyIs (s : State) (i key : Nat) : Bool :=
  talkW s i 0 == keyWord key 0 && talkW s i 1 == keyWord key 1 && talkW s i 2 == keyWord key 2

/-- The valid entry that matches a key: the lowest index; a class of 4 to 15 never matches (R159). -/
def lookup (s : State) (key : Nat) : Option Nat :=
  if 4 ≤ key / 2 ^ 92 then none else (validTalkers s).find? fun i => keyIs s i key

/-- The lowest-indexed invalid entry. -/
def freeTalker : List Nat → Nat → Option Nat
  | [], i => if i < 4096 then some i else none
  | v :: vs, i => if v == i then freeTalker vs (i + 1) else some i

/-- The entry that learning may evict: unpinned, with USE 0, heard least recently, the lowest of equals (R160). -/
def evictable (s : State) : Option Nat :=
  minBy (fun i => sget 0 s.herder.heard i) ((validTalkers s).filter fun i => !bit (talkW s i 3) 30 && fld (talkW s i 8) 16 0 == 0)

/-- Both buckets of an entry are full to their depths. -/
def fillBuckets (s : State) (i : Nat) : State :=
  setTalkW (setTalkW s i 9 (BitVec.ofNat 32 (fld (talkW s i 4) 15 0 * 256))) i 10 (BitVec.ofNat 32 (fld (talkW s i 5) 15 0 * 16))

/-- The tokens of an entry are clipped to its depths; at a depth of 0 they are 0 (R162, R164, R166). -/
def clipBuckets (s : State) (i : Nat) : State :=
  let s := setTalkW s i 9 (BitVec.ofNat 32 (min (fld (talkW s i 9) 23 0) (fld (talkW s i 4) 15 0 * 256)))
  let full := fld (talkW s i 5) 15 0 * 16
  if full == 0 || decide ((full : Int) < (talkW s i 10).toInt) then setTalkW s i 10 (BitVec.ofNat 32 full) else s

/-- A key is learned into an entry with the defaults of its class; USE is kept (R160). -/
def learnInto (s : State) (i key : Nat) : State :=
  let c := key / 2 ^ 92
  let s := setTalkW (setTalkW (setTalkW s i 0 (keyWord key 0)) i 1 (keyWord key 1)) i 2 (keyWord key 2)
  let s := setTalkW s i 3 (BitVec.ofNat 32 (2 ^ 31 + 2 ^ 28 + regF s (Reg.talkerDefRes c) 31 31 * 2 ^ 29))
  let s := setTalkW (setTalkW s i 4 (reg s (Reg.talkerDefSent c))) i 5 (reg s (Reg.talkerDefPly c))
  let s := setTalkW (setTalkW s i 6 (reg s (Reg.talkerDefBudget c) &&& 0xFFFF#32)) i 7
    (BitVec.ofNat 32 (min poolSize (regF s (Reg.talkerDefRes c) 16 0)))
  hear (setTalkW (setTalkW (fillBuckets s i) i 13 0) i 14 0) i

/-- A key that matches no entry is learned, into the lowest free entry or one that is evicted, or its record is refused (R160): the
talker's index, or the reason 0 table full, 1 unknown; and whether an injected occurrence was met. -/
def learnTalker (s : State) (key : Nat) : State × (Nat ⊕ Nat) × Bool :=
  if 4 ≤ key / 2 ^ 92 || !regB s Reg.talkerCtrl (key / 2 ^ 92) then (s, .inr 1, false)
  else match freeTalker (validTalkers s) 0 with
    | some i => (count (learnInto s i key) Reg.ttEvents 31 16 1, .inl i, false)
    | none =>
      let (s, inj) := talkersRead s [3, 8] readerHerder (validTalkers s)
      match freeTalker (validTalkers s) 0 with
      | some i => (count (learnInto s i key) Reg.ttEvents 31 16 1, .inl i, inj)
      | none => match evictable s with
        | some i => (count (count (learnInto s i key) Reg.ttEvents 15 0 1) Reg.ttEvents 31 16 1, .inl i, inj)
        | none => (s, .inr 0, inj)

/-- Lookup or learning (R159, R160): the key of every valid entry is read and compared, and then the rest of the entry that matches. -/
def findTalker (s : State) (key : Nat) : State × (Nat ⊕ Nat) × Bool :=
  let (s, a) := talkersRead s [0, 1, 2] readerHerder (validTalkers s)
  match lookup s key with
  | none =>
    let (s, t, b) := learnTalker s key
    (s, t, a || b)
  | some i =>
    let (s, b) := talkerRead s i readerHerder [] [3, 4, 5, 6, 7, 8, 9, 10]
    if talkerValid s i then (hear s i, .inl i, a || b)
    else
      let (s, t, c) := learnTalker s key
      (s, t, a || b || c)

/-! ## Admission (R163 to R165) -/

/-- The counter of a refusal by reason (R165). -/
def countRefusal (s : State) (reason : Nat) : State :=
  if reason == 0 then count s Reg.admitRefuseA 31 16 1
  else if reason == 1 then count s Reg.admitRefuseA 15 0 1
  else if reason == 2 then count s Reg.admitRefuseB 31 16 1
  else if reason == 3 then count s Reg.admitRefuseB 15 0 1
  else if reason == 4 then count s Reg.admitRefuseC 31 16 1
  else if reason == 5 then count s Reg.admitRefuseC 15 0 1
  else if reason == 6 then count s Reg.admitRefuseD 15 0 1
  else s

/-- A record is refused (R165). -/
def refuse (s : State) (src reason : Nat) (idx : Option Nat) (inj : Bool) : State :=
  let s := countRefusal s reason
  let s := match idx with
    | some i => setTalkW s i 14 (talkW s i 14 + 1)
    | none => s
  fire s 0x41 src (idx.getD 0xFFFF) reason inj (some (limitKey 0x41 src reason))

/-- The reason that refuses a record of n granules of talker i, where one does (R163 steps 2 to 6); else the run it gets. -/
def admitTest (s : State) (i n : Nat) : Nat ⊕ Nat :=
  if 2048 ≤ inFlight s then .inr 2
  else if fld (talkW s i 4) 15 0 != 0 && decide (fld (talkW s i 9) 23 0 < 256) then .inr 3
  else if fld (talkW s i 5) 15 0 != 0 && decide ((talkW s i 10).toInt ≤ 0) then .inr 4
  else if fld (talkW s i 7) 16 0 < fld (talkW s i 8) 16 0 + n then .inr 5
  else match freeRun n s.herder.runs 0 with
    | some g => .inl g
    | none => .inr 6

/-- The header and payload words of a record (R156). -/
def recWords (a : Arrived) (seq talker : Nat) : List Word :=
  let w0 := a.typ * 2 ^ 28 + a.epoch % 16 * 2 ^ 24 + b2n a.lost * 2 ^ 23 + b2n a.inj * 2 ^ 22 + b2n a.charErr * 2 ^ 21
    + b2n a.woke * 2 ^ 20 + a.sum * 2 ^ 18 + b2n a.rxq0 * 2 ^ 17 + a.payload.length
  let w2 := a.src / 65536 * 2 ^ 28 + a.src % 128 * 65536 + talker
  [BitVec.ofNat 32 w0, BitVec.ofNat 32 seq, BitVec.ofNat 32 w2] ++ stampWords a.first ++ stampWords a.last
    ++ [BitVec.ofNat 32 a.aux0, BitVec.ofNat 32 a.aux1, BitVec.ofNat 32 a.aux2] ++ padWords a.payload

/-- Words of a staging run read and checked by the intake, each with its address in the run; none when one fails (R332). -/
def stageRead (s : State) (src : Nat) : Nat → Nat → State × Option (List Word)
  | _, 0 => (s, some [])
  | a, n + 1 =>
    let r := memRead s .kennel a [src]
    if r.failed then (count (memReport r.s .kennel a 1 readerIntake 0 r.inj) Reg.retrCountA 15 0 1, none)
    else match stageRead r.s src (a + 1) n with
      | (s, some ws) => (s, some (r.word :: ws))
      | (s, none) => (s, none)

/-- Bytes join the partial record that builds up in a staging run: old before them, new with them (R154). Its header is not stated while
it is partial, and its words are free (log 54). -/
def stagePut (s : State) (g : Nat) (old new : List Byte) : State :=
  let s := if old.isEmpty then memFreeWords s .kennel (4 * g) 12 else s
  memPuts s .kennel (4 * g + 12 + old.length / 4) (padWords (new.drop (old.length / 4 * 4)))

/-- A completed record stands in its staging run, where it has one; the SEQ and TALKER of its header are free there (R154, log 54). -/
def stageRecord (s : State) (a : Arrived) : State :=
  match a.stage with
  | none => s
  | some g =>
    let (s, q) := takeWord s
    let (s, t) := takeWord s
    memPuts s .kennel (4 * g) (recWords a q.toNat (t.toNat % 4096))

/-- The words of a record that admission copies into the pool: read from its staging run, where it has one. -/
def stageWords (s : State) (a : Arrived) : State × Option (List Word) :=
  match a.stage with
  | none => (s, some (recWords a 0 0))
  | some g => stageRead s a.src (4 * g) (12 + ceilDiv a.payload.length 4)

/-- A record is committed into the Kennel: SEQ, TALKER and INJ, the charges of its talker, and its place in the queue of the Herder
(R163, R341). -/
def commitRec (s : State) (a : Arrived) (i g : Nat) (inj : Bool) (ws : List Word) : State :=
  let n := recGranules a.payload.length
  let seq := s.herder.nextSeq
  let w0 := ws.getD 0 0
  let head := [if inj then setFld w0 22 22 1 else w0, BitVec.ofNat 32 seq, setFld (ws.getD 2 0) 11 0 i]
  let s := memPuts s .kennel (4 * g) (head ++ ws.drop 3)
  let s := if fld (talkW s i 4) 15 0 == 0 then s else setTalkW s i 9 (BitVec.ofNat 32 (fld (talkW s i 9) 23 0 - 256))
  let s := setTalkW s i 8 (BitVec.ofNat 32 (fld (talkW s i 8) 16 0 + n))
  let s := setTalkW (setTalkW s i 15 (BitVec.ofNat 32 g)) i 13 (talkW s i 13 + 1)
  let r : Rec := { seq := seq, gran := g, count := n, talker := i, rxq0 := a.rxq0, steps := a.steps }
  let s := holdRun s g n
  let s := { s with herder := { s.herder with nextSeq := (seq + 1) % 2 ^ 32, waiting := s.herder.waiting ++ [r] } }
  leashTalker (lowPeak s) i

/-- Admission of a completed record (R163). -/
def admitRecord (s : State) (a : Arrived) : State :=
  let (s, inj) := injected (stageRecord s a) 0x41 [a.src]
  let (s, t, met) := findTalker s a.key
  match t with
  | .inr reason => refuse s a.src (if inj then 9 else reason) none inj
  | .inl i =>
    if inj then refuse s a.src 9 (some i) true
    else match admitTest s i (recGranules a.payload.length) with
      | .inr reason => refuse s a.src reason (some i) false
      | .inl g => match stageWords s a with
        | (s, none) => s
        | (s, some ws) => commitRec s a i g met ws

/-- A record leaves flight after a number of plies (R16, R155, R164): its talker is charged and its granules are freed. -/
def leaveFlight (s : State) (r : Rec) (plies : Nat) : State :=
  let i := r.talker
  let s := talkerCheck s i readerHerder [] [8, 10]
  let s := if fld (talkW s i 5) 15 0 == 0 then s
    else setTalkW s i 10 (ofInt (sat32 ((talkW s i 10).toInt - (plies : Int))))
  let s := setTalkW s i 8 (BitVec.ofNat 32 (fld (talkW s i 8) 16 0 - r.count))
  leashTalker (dropRun s r.gran) i

/-- BUCKET_REFILL (R164): the refills of the next whole millisecond. -/
def execBucketRefill (s : State) : Host.Outcome State Fault Refusal :=
  if !(ticking s && decide (s.herder.refillMs < drainMs s)) then .next s
  else
    let one (s : State) (i : Nat) : State :=
      let s := talkerCheck s i readerHerder [] [4, 5, 9, 10]
      let sf := fld (talkW s i 4) 31 16
      let sd := fld (talkW s i 4) 15 0
      let pf := fld (talkW s i 5) 31 16
      let pd := fld (talkW s i 5) 15 0
      let s := if sd == 0 then s else setTalkW s i 9 (BitVec.ofNat 32 (min (fld (talkW s i 9) 23 0 + sf) (sd * 256)))
      if pd == 0 then s
      else
        let v : Int := (talkW s i 10).toInt + (pf * 16 : Nat)
        setTalkW s i 10 (ofInt (if ((pd * 16 : Nat) : Int) < v then (pd * 16 : Nat) else v))
    let s := (validTalkers s).foldl one s
    .next { s with herder := { s.herder with refillMs := s.herder.refillMs + 1 } }

/-- TALKER_SWEEP (R160): silent unpinned talkers with no record are aged out. -/
def execTalkerSweep (s : State) : Host.Outcome State Fault Refusal :=
  if !(ticking s && decide (s.herder.sweepS < drainMs s / 1000)) then .next s
  else
    let one (s : State) (i : Nat) : State :=
      let s := talkerCheck s i readerHerder [] [3, 8]
      let own := fld (talkW s i 3) 15 0
      let limit := if own == 0 then regF s Reg.talkerCtrl 31 16 else own
      let quiet := sinceTb s (sget 0 s.herder.heard i - 1)
      if talkerValid s i && !bit (talkW s i 3) 30 && fld (talkW s i 8) 16 0 == 0 && limit != 0 && decide (limit * Config.tickS < quiet) then
        count (setTalkW s i 3 (setFld (talkW s i 3) 31 31 0)) Reg.ttAged 15 0 1
      else s
    let s := (validTalkers s).foldl one s
    .next { s with herder := { s.herder with sweepS := s.herder.sweepS + 1 } }

end Sys2Proof.Machine
end

