-- ==== Sys2Proof/Machine/Panel.lean ====
section
/-! DEFINITION. Repeater panel drive (14_repeater_panels.md): bindings, requests, updates, ledgers, the image check. -/

namespace Sys2Proof.Machine

/-- A panel port beside its registers. -/
def panel (s : State) (n : Nat) : PanelPort := sget PanelPort.init s.panels n

/-- A panel port changes. -/
def setPanel (s : State) (n : Nat) (p : PanelPort) : State := { s with panels := sset PanelPort.init s.panels n p }

/-- The unit of a panel port. -/
def unitPanel (n : Nat) : Nat := unitOf 5 n

/-- FRAME in effect, in ms. -/
def panelFrame (s : State) (n : Nat) : Nat := regClamp s (Reg.pnCtrl n) 23 16 10 100

/-- SEGMENTS in effect. -/
def panelSegs (s : State) (n : Nat) : Nat := regClamp s (Reg.pnCtrl n) 9 0 1 512

/-- A setting word of PN_REGION, PN_BIND or PN_WAVE read by the port: one that fails its check bits becomes 0 and is reported
(R338). -/
def panelWord (s : State) (n off : Nat) : State × Word :=
  let w := sget 0 s.panelSet off
  if memGood w then (s, memData w)
  else
    let s := { s with panelSet := sset 0 s.panelSet off (memFresh 0) }
    (fire s 0x60 (unitPanel n) (off % 0x1000) 1 false none, 0)

/-- Setting words read in order. -/
def panelWords (s : State) (n : Nat) : List Nat → State × List Word
  | [] => (s, [])
  | o :: os =>
    let (s, w) := panelWord s n o
    let (s, ws) := panelWords s n os
    (s, w :: ws)

/-- A region is defined (R313): enabled, FIRST ≤ LAST, FIRST < SEGMENTS. -/
def regionDefined (s : State) (n : Nat) (w : Word) : Bool :=
  bit w 31 && decide (fld w 8 0 ≤ fld w 24 16) && decide (fld w 8 0 < panelSegs s n)

/-- The segments of a region: FIRST to LAST below SEGMENTS. -/
def regionSegs (s : State) (n : Nat) (w : Word) : List Nat :=
  (List.range (panelSegs s n)).filter fun g => decide (fld w 8 0 ≤ g) && decide (g ≤ fld w 24 16)

/-! ## Targets (R314, R315) -/

/-- A target bit of the image. -/
def imageBit (s : State) (n g : Nat) : Bool := regB s (Reg.pnImage n (g / 32)) (g % 32)

/-- A target bit of the image is written. -/
def setImage (s : State) (n g : Nat) (v : Bool) : State := setF s (Reg.pnImage n (g / 32)) (g % 32) (g % 32) (b2n v)

/-- The CRC-32 of the 64 image bytes (R314). -/
def imageCrc (s : State) (n : Nat) : Word :=
  crc32 ((List.range 16).flatMap fun w => wordBytes (reg s (Reg.pnImage n w)))

/-- PN_CRC is stored after a change of the image. -/
def storeCrc (s : State) (n : Nat) : State := setReg s (Reg.pnCrc n) (imageCrc s n)

/-- The patterns of the digits 0 to 9, a in bit 0 (R315). -/
def digitPattern (d : Nat) : Nat := [0x3F, 0x06, 0x5B, 0x4F, 0x66, 0x6D, 0x7D, 0x07, 0x7F, 0x6F].getD d 0

/-- |v| / 2^q rounded to a whole number of 10^-places, ties away from zero (R216). -/
def roundQ (v : Int) (q places : Nat) : Nat := (2 * v.natAbs * 10 ^ places + 2 ^ q) / (2 * 2 ^ q)

/-- The number of decimal digits of a number, at least 1. -/
def decLen : Nat → Nat → Nat
  | 0, _ => 1
  | fuel + 1, v => if v < 10 then 1 else 1 + decLen fuel (v / 10)

/-- The pattern of digit d of a seven-segment binding, dp in bit 7. -/
def sevenSeg (v : Int) (q places cnt d : Nat) : Nat :=
  let m := roundQ v q places
  let neg := decide (v < 0) && decide (m ≠ 0)
  let top := max (decLen 20 m) (places + 1)
  if cnt < top + b2n neg then 0x40
  else if d < top then digitPattern (m / 10 ^ d % 10) + (if d == places && decide (0 < places) then 0x80 else 0)
  else if d == top && neg then 0x40 else 0

/-- The targets of one binding from its words and the value word (R315). -/
def bindTargets (a b v : Word) : List (Nat × Bool) :=
  let kind := fld a 30 28
  let first := fld a 8 0
  let cnt := max 1 (fld b 31 26)
  let q := fld b 25 21
  let places := min 7 (fld b 20 17)
  if kind == 0 then (List.range (min cnt 32)).map fun i => (first + i, bit v i)
  else if kind == 1 then
    (List.range (min cnt 8)).flatMap fun d =>
      (List.range 8).map fun i => (first + 8 * d + i, sevenSeg v.toInt q places (min cnt 8) d / 2 ^ i % 2 == 1)
  else if kind == 2 then
    let lit := min (v.toInt / (2 ^ q : Nat)).toNat cnt
    (List.range cnt).map fun i => (first + i, decide (i < lit))
  else []

/-- The targets that the bindings of a port give, in ascending binding order (R315). -/
def bindings (s : State) (n : Nat) : List Nat → State × List (Nat × Bool)
  | [] => (s, [])
  | b :: bs =>
    let (s, wa) := panelWord s n (Reg.pnBindA n b)
    if !bit wa 31 || 2 < fld wa 30 28 then bindings s n bs
    else
      let (s, wb) := panelWord s n (Reg.pnBindB n b)
      let (s, v) := slotTake s (fld wa 23 12) [fld wa 27 24 % 12] readerPanel [unitPanel n]
      let (s, rest) := bindings s n bs
      match v with
      | some (v :: _) => (s, (bindTargets wa wb v).filter (fun t => decide (t.1 < panelSegs s n)) ++ rest)
      | _ => (s, rest)

/-- What the bindings give a segment: the last target named for it. -/
def targetOf (ts : List (Nat × Bool)) (g : Nat) : Option Bool := (ts.reverse.find? (fun t => t.1 == g)).map (·.2)

/-! ## Requests (R316, R317) -/

/-- The port can run requests: enabled, owned, not stopping. -/
def panelOpen (s : State) (n : Nat) : Bool := portEn s 5 n && owns s (epPanel n) && (panel s n).closing == none

/-- Bits of PN_RUN and PN_PEND follow the requests. -/
def panelMaps (s : State) (n : Nat) : State :=
  let p := panel s n
  let map (rs : List Nat) : Word := rs.foldl (fun w r => w ||| BitVec.ofNat 32 (2 ^ r)) 0
  setReg (setReg s (Reg.pnRun n) (map (p.runs.map (·.region)))) (Reg.pnPend n) (map (p.reqs.map (·.region)))

/-- A request for a region (R317): true when it was made. A replaced PANEL_UPDATE completes SUPERSEDED; a request that cannot
be made completes a PANEL_UPDATE with DONE and counts NOT_RUN. -/
def panelRequest (s : State) (n region : Nat) (src : PanelSrc) (slot : Option Nat) : State × Bool :=
  let (s, w) := panelWord s n (Reg.pnRegion n region)
  if !panelOpen s n || !regionDefined s n w then
    let s := match slot with
      | some k => finish (count s (Reg.pnCounts n) 7 0 1) k stDone 0 0
      | none => s
    (s, false)
  else
    let p := panel s n
    let old := p.reqs.filter (fun q => q.region == region)
    let s := setPanel s n { p with reqs := p.reqs.filter (fun q => q.region != region) ++ [⟨region, src, slot⟩] }
    let s := old.foldl (fun s q => match q.slot with | some k => finish s k stSuperseded 0 0 | none => s) s
    (panelMaps s n, true)

/-! ## The image check (R324) -/

/-- The image is recomputed from the bindings after a mismatch: a segment without a target becomes light; a recovery request is
made for every defined region but one. -/
def panelRecover (s : State) (n : Nat) (inj : Bool) (skip : Option Nat) : State :=
  let (s, ts) := bindings s n (List.range 64)
  let s := (List.range 512).foldl (fun s g => setImage s n g ((targetOf ts g).getD false)) s
  let s := storeCrc s n
  let s := count (fire s 0x60 (unitPanel n) 0 0 inj none) (Reg.pnCounts n) 31 24 1
  (List.range 32).foldl (fun s r =>
    if some r == skip then s
    else
      let (s, w) := panelWord s n (Reg.pnRegion n r)
      if regionDefined s n w then (panelRequest s n r .recovery none).1 else s) s

/-- The image is compared with PN_CRC: false when they differ, or when a mismatch is injected. -/
def panelCheck (s : State) (n : Nat) : State × Bool × Bool :=
  let (s, inj) := injected s 0x60 [unitPanel n]
  (s, !inj && imageCrc s n == reg s (Reg.pnCrc n), inj)

/-! ## Running an update (R319 to R323) -/

/-- Ledger of a segment: its word fails to both ledgers 0 (R321). An injected occurrence acts as a failed word. -/
def ledgerRead (s : State) (n g : Nat) : State × Int :=
  let k := 256 * n + g / 2
  let (s, inj) := injected s 0x61 [unitPanel n]
  let w := sget 0 s.ledgers k
  if inj || !memGood w then
    let s := { s with ledgers := sset 0 s.ledgers k 0 }
    (fire s 0x61 (unitPanel n) g 1 inj (some (limitKey 0x61 (unitPanel n) 0)), 0)
  else (s, sext 12 (if g % 2 == 0 then fld (memData w) 11 0 else fld (memData w) 27 16))

/-- Ledger of a segment is written. -/
def ledgerWrite (s : State) (n g : Nat) (v : Int) : State :=
  let k := 256 * n + g / 2
  let w := memData (sget 0 s.ledgers k)
  let x := (BitVec.ofInt 12 v).toNat
  let w := if g % 2 == 0 then setFld w 11 0 x else setFld w 27 16 x
  { s with ledgers := sset 0 s.ledgers k (memFresh w) }

/-- A frame applies a drive code to a segment: its ledger moves, held at its limits (R321). -/
def ledgerMove (s : State) (n g code : Nat) : State :=
  if code == 1 || code == 2 then
    let (s, v) := ledgerRead s n g
    let v := if code == 1 then v + 1 else v - 1
    if v < -2048 || 2047 < v then
      let s := count s (Reg.pnCounts n) 23 16 1
      fire s 0x61 (unitPanel n) g 0 false (some (limitKey 0x61 (unitPanel n) 0))
    else ledgerWrite s n g v
  else s

/-- Temperature in use, in units of 1/16 °C: the panel sensor's when TSRC is 1 and its last read was good, else the die's, taken
in region TRn (log 21). -/
def panelTemp (s : State) (n : Nat) : Int :=
  let die := 2 * (sget Region.init s.regions n).temp.toInt
  if regB s (Reg.pnCtrl n) 30 then (panel s n).temp.getD die else die

/-- The band of a temperature in units of 1/16 °C (R312). -/
def bandOf (t : Int) : Nat := min 7 ((t + 320) / 160).toNat

/-- The drive codes of a waveform (R320): LENGTH codes of band b and type t. -/
def waveCodes (s : State) (n b t : Nat) : State × List Nat :=
  let k := 3 * b + t
  let (s, len) := panelWord s n (Reg.pnWaveLen n k)
  let (s, ws) := panelWords s n ((List.range 4).map (Reg.pnWaveCode n k))
  let code (f : Nat) : Nat := let c := fld (ws.getD (f / 16) 0) (2 * (f % 16) + 1) (2 * (f % 16)); if c == 3 then 0 else c
  (s, (List.range (min 64 (fld len 6 0))).map code)

/-- Drive codes 1 and 2 exchanged (R320). -/
def flipCodes (cs : List Nat) : List Nat := cs.map fun c => if c == 1 then 2 else if c == 2 then 1 else c

/-- The net of drive codes. -/
def netCodes (cs : List Nat) : Int := cs.foldl (fun a c => if c == 1 then a + 1 else if c == 2 then a - 1 else a) 0

/-- The transition of a segment (R319): the codes, where it has one. -/
def transition (dl ld same : List Nat) (refresh old new : Bool) : Option (List Nat) :=
  if old && !new then some dl else if !old && new then some ld
  else if refresh then some (if new then same else flipCodes same) else none

/-- The compensation frames of a segment (R322): how many, and their code. -/
def compensation (target : Bool) (p : Int) (thr maxc : Nat) : Nat × Nat :=
  if target && decide (p < -(thr : Int)) then (min p.natAbs maxc, 1)
  else if !target && decide ((thr : Int) < p) then (min p.natAbs maxc, 2) else (0, 0)

/-- Each segment's ledger after its waveform frames, expected (R322). -/
def segPlans (s : State) (n thr maxc : Nat) : List (Nat × Bool × List Nat) → State × List (Nat × List Nat × Nat × Nat)
  | [] => (s, [])
  | (g, target, cs) :: rest =>
    let (s, v) := ledgerRead s n g
    let c := compensation target (v + netCodes cs) thr maxc
    let (s, ps) := segPlans s n thr maxc rest
    (s, (g, cs, c.1, c.2) :: ps)

/-- The update of a request starts at this boundary (R319). -/
def panelStart (s : State) (n : Nat) (q : PanelReq) : State :=
  let p := panel s n
  let s := setPanel s n { p with reqs := p.reqs.filter (fun x => x.region != q.region) }
  let (s, same, inj) := panelCheck s n
  let recovering := !same || q.src == .recovery
  let s := if same then s else panelRecover s n inj (some q.region)
  let band := bandOf (panelTemp s n)
  let s := setF s (Reg.pnStatus n) 18 16 band
  let (s, w) := panelWord s n (Reg.pnRegion n q.region)
  let first := fld w 8 0
  let segs := regionSegs s n w
  let (s, ts) := if recovering then (s, []) else match q.src with
    | .bindings => bindings s n (List.range 64)
    | .payload [] => bindings s n (List.range 64)
    | .payload bs => (s, (List.range (8 * bs.length)).map fun i => (first + i, (bs.getD (i / 8) 0).getLsbD (i % 8)))
    | .image bs => (s, (List.range 512).map fun g => (g, (bs.getD (g / 8) 0).getLsbD (g % 8)))
    | .recovery => (s, [])
  let (s, dl) := waveCodes s n band 0
  let (s, ld) := waveCodes s n band 1
  let (s, sm) := waveCodes s n band 2
  let refresh := bit w 30 || recovering
  let plan := segs.filterMap fun g =>
    let old := imageBit s n g
    let new := (targetOf ts g).getD old
    match transition dl ld sm refresh old new with
    | some cs => some (g, new, cs)
    | none => some (g, new, [])
  let s := plan.foldl (fun s t => setImage s n t.1 t.2.1) s
  let s := storeCrc s n
  let longest := plan.foldl (fun a t => max a t.2.2.length) 0
  let thr := max 1 (regF s (Reg.pnLedgerCfg n) 26 16)
  let maxc := min 64 (regF s (Reg.pnLedgerCfg n) 6 0)
  let (s, ps) := segPlans s n thr maxc plan
  let comp := ps.foldl (fun a t => max a t.2.2.1) 0
  let codes := ps.map fun t =>
    (t.1, t.2.1 ++ List.replicate (longest - t.2.1.length) 0 ++ List.replicate t.2.2.1 t.2.2.2)
  let p := panel s n
  setPanel s n { p with runs := p.runs ++ [⟨q.region, q.slot, codes, longest + comp, comp, 0, first, fld w 24 16⟩] }

/-- Two regions share a segment. -/
def overlapSegs (a1 a2 b1 b2 : Nat) : Bool := decide (a1 ≤ b2) && decide (b1 ≤ a2)

/-- Pending requests start in ascending region number where no running update is of their region or overlaps it (R318). -/
def panelStarts (s : State) (n : Nat) : List Nat → State
  | [] => s
  | r :: rs =>
    let s := match (panel s n).reqs.find? (fun q => q.region == r) with
      | none => s
      | some q =>
        let (s, w) := panelWord s n (Reg.pnRegion n r)
        if (panel s n).runs.any (fun u => u.region == r || overlapSegs (fld w 8 0) (fld w 24 16) u.first u.last) then s
        else panelStart s n q
    panelStarts s n rs

/-- A running update ends: a PANEL_UPDATE completes with the frames applied (R323). -/
def panelEnd (s : State) (u : PanelRun) : State :=
  match u.slot with
  | some k =>
    let applied := min u.next u.frames
    finish s k stDone applied (applied - (u.frames - u.comp))
  | none => s

/-- The bits of a frame shift (R310): two for every segment, the highest segment first, bit 1 of its drive code before bit 0. -/
def frameShift (s : State) (n : Nat) (codes : List (Nat × Nat)) : List Bool :=
  (List.range (panelSegs s n)).reverse.flatMap fun g =>
    let c := ((codes.find? (fun x => x.1 == g)).map (·.2)).getD 0
    [c / 2 % 2 == 1, c % 2 == 1]

/-- The drive of a frame applies at its boundary (R311). -/
def panelStrobe (s : State) (n : Nat) (codes : List (Nat × Nat)) : State := emit s (.panelFrame n (frameShift s n codes) codes)

/-- Everything of a stopping port ends (R325, R326): running updates complete with the frames applied, pending ones with 0 and
NOT_RUN; a PORT_DISABLE completes with the number stopped, and of copies flushed (R230). A port that this hub still drives applies code 0
everywhere. -/
def panelStop (s : State) (n flushed : Nat) (slot : Option Nat) : State :=
  let p := panel s n
  let s := setPanel s n { p with runs := [], reqs := [], closing := none }
  let s := p.runs.foldl panelEnd s
  let s := p.reqs.foldl (fun s q => match q.slot with
    | some k => finish (count s (Reg.pnCounts n) 7 0 1) k stDone 0 0
    | none => s) s
  let s := panelMaps s n
  let s := if owns s (epPanel n) then panelStrobe s n [] else s
  match slot with
  | some k => finish s k stDone (p.runs.length + p.reqs.length + flushed) 0
  | none => s

/-- The running updates apply their frames at a boundary: the codes go out and the ledgers move. -/
def panelApply (s : State) (n : Nat) : State :=
  let p := panel s n
  let codes := p.runs.flatMap fun u => u.segs.filterMap fun g =>
    let c := g.2.getD u.next 0
    if c == 0 then none else some (g.1, c)
  let s := panelStrobe s n codes
  let s := codes.foldl (fun s g => ledgerMove s n g.1 g.2) s
  let p := panel s n
  setPanel s n { p with runs := p.runs.map (fun u => { u with next := u.next + 1 }) }

/-- The frame period that sets the next boundary: of the settings that wait for it, where there are any (R325). -/
def panelPeriod (s : State) (n : Nat) : Nat :=
  match (panel s n).pendSet with
  | some (ws, _) => clampNat 10 100 (fld (ws.getD 2 0) 23 16)
  | none => panelFrame s n

/-- A frame boundary of a panel port is due (R311). -/
def panelDue (s : State) (n : Nat) : Bool :=
  ticking s && portEn s 5 n && decide (drainMs s % panelPeriod s n = 0) && (panel s n).frameMs != drainMs s + 1

/-- New settings of a port apply (R325). -/
def panelSettings (s : State) (n : Nat) (ws : List Word) : State :=
  let en := reg s (Reg.pnCtrl n) &&& 0x80000000#32
  setReg (setReg s (Reg.pnCtrl n) ((ws.getD 2 0 &&& 0x40FF03FF#32) ||| en)) (Reg.pnLedgerCfg n) (ws.getD 3 0 &&& 0x07FF007F#32)

/-- The command byte of a sensor read, 0x5A, most significant bit first (R312). -/
def sensorCommand : List Bool := (List.range 8).map fun i => (0x5A#8).getLsbD (7 - i)

/-- PANEL_SENSOR_READ (R312): once per second with TSRC = 1, the sensor's start bit and value are judged. -/
def execPanelSensorRead (n : Fin 8) (startBit : Bool) (raw : BitVec 16) (s : State) : Host.Outcome State Fault Refusal :=
  let p := panel s n
  if !(ticking s && portEn s 5 n && owns s (epPanel n) && regB s (Reg.pnCtrl n) 30) then .next s
  else if p.sensorTb != 0 && sinceTb s (p.sensorTb - 1) < Config.tickS then .next s
  else
    let s := emit s (.panelSensor n sensorCommand 17)
    let p := { p with sensorTb := s.time.tb + 1 }
    if !startBit && raw != 0x8000#16 && decide (-640 ≤ raw.toInt) && decide (raw.toInt ≤ 1360) then
      .next (setF (setPanel s n { p with temp := some raw.toInt }) (Reg.pnStatus n) 30 30 1)
    else
      .next (count (setF (setPanel s n { p with temp := none }) (Reg.pnStatus n) 30 30 0) (Reg.pnCounts n) 15 8 1)

/-- PANEL_CRC_CHECK (R324): every 10 s the image is compared with PN_CRC, and recomputed when they differ. -/
def execPanelCrcCheck (n : Fin 8) (s : State) : Host.Outcome State Fault Refusal :=
  let p := panel s n
  if !(ticking s && decide (10000 ≤ drainMs s - p.crcTb)) then .next s
  else
    let s := setPanel s n { p with crcTb := drainMs s }
    let (s, same, inj) := panelCheck s n
    .next (if same then s else panelMaps (panelRecover s n inj none) n)

end Sys2Proof.Machine
end

