-- ==== Sys2Proof/Machine/Listeners.lean ====
section
/-! DEFINITION. Listeners, copies, the scheduler, deadlines, TAG blocks, echo and slot drains (10_listeners_output.md). -/

namespace Sys2Proof.Machine

/-! ## Endpoints (R223, R224) -/

/-- KIND of a listener entry; 6 to 15 act as 0. -/
def lstKind (w0 : Word) : Nat := if 5 < fld w0 31 28 then 0 else fld w0 31 28

/-- DRAIN, which acts as 0 for KIND 2 and 5. -/
def lstDrain (w0 : Word) : Bool := bit w0 27 && lstKind w0 != 2 && lstKind w0 != 5

/-- The number of the endpoint within its KIND: serial port, CAN port, Ethernet port, host ring, panel port. -/
def lstNum (w0 : Word) : Nat :=
  let k := lstKind w0
  if k == 1 then fld w0 6 0 else if k == 3 then fld w0 1 0 else if k == 4 then fld w0 3 0 else fld w0 2 0

/-- The launch queue of an Ethernet endpoint; 0 for the others. -/
def lstQueue (w0 : Word) : Nat := if lstKind w0 == 3 then fld w0 4 2 else 0

/-- The unit that reports name for an endpoint (R228). -/
def epUnit (kind num : Nat) : Nat :=
  if kind == 1 then unitOf 0 num else if kind == 2 then unitOf 1 num else if kind == 3 then unitOf 2 num
  else if kind == 4 then unitOf 11 num else unitOf 5 num

/-- The endpoint is enabled, owned by this hub and not wedged (R227). A host ring is an endpoint that is busy while its ring is full
or disabled (R54). -/
def epOpen (s : State) (kind num : Nat) : Bool :=
  if kind == 1 then portEn s 0 num && owns s (epSerial num)
  else if kind == 2 then portEn s 1 num && owns s (epCan num) && (sget CanPort.init s.can num).closing.isNone
  else if kind == 3 then portEn s 2 num && owns s (epEth num)
  else if kind == 4 then alive s
  else panelOpen s num

/-- A copy or drain item of an entry is bound to an endpoint; of an Ethernet port, to one launch queue where one is named. -/
def boundTo (w0 : Word) (kind num : Nat) (queue : Option Nat) : Bool :=
  lstKind w0 == kind && lstNum w0 == num && (match queue with
    | some q => lstQueue w0 == q
    | none => true)

/-! ## Reads of the active and of a record's bank (R225, R336) -/

/-- Address of word w of listener entry n in a bank. -/
def lstAddr (bank n w : Nat) : Nat := 8192 * bank + 8 * n + w

/-- Address of word k of listener set i in a bank. -/
def setAddr (bank i k : Nat) : Nat := 16384 * bank + 32 * i + k

/-- Bank words at given addresses read in order; false while one of them is awaited. -/
def bankScan (s : State) (m : Mem) (reader : Nat) (readers : List Nat) : List Nat → State × Bool
  | [] => (s, true)
  | a :: as =>
    match bankRead s m a reader readers with
    | (s, none) => (s, false)
    | (s, some _) => bankScan s m reader readers as

/-- Bank words at given addresses, as the memory holds them when the last has been read: a failed word of a listener entry makes all of the
entry 0 (R336). None while one of them is awaited. -/
def bankList (s : State) (m : Mem) (reader : Nat) (readers as : List Nat) : State × Option (List Word) :=
  match bankScan s m reader readers as with
  | (s, false) => (s, none)
  | (s, true) => (s, some (as.map (memWord s m)))

/-- Words i to i + n − 1 of the run of pool words that holds a pool offset, modulo the bank (R171, R195). -/
def poolAddrs (s : State) (bank off i n : Nat) : List Nat :=
  let b := (4 * regF s (Reg.bankSize bank) 15 0 + off) % 131072
  (List.range n).map fun k => 32768 * bank + (b / 4 + i + k) % 32768

/-- Where a pool offset lies in its word. -/
def poolPlace (s : State) (bank off : Nat) : Nat := (4 * regF s (Reg.bankSize bank) 15 0 + off) % 4

/-- The word with the length byte of a pool string, and that length. -/
def poolLen (s : State) (bank off reader : Nat) (readers : List Nat) : State × Option (Word × Nat) :=
  match bankList s .prog reader readers (poolAddrs s bank off 0 1) with
  | (s, some [w]) => (s, some (w, ((wordBytes w).getD (poolPlace s bank off) 0).toNat))
  | (s, _) => (s, none)

/-- The characters of a pool string behind its length word. -/
def poolChars (s : State) (bank off reader : Nat) (readers : List Nat) (w : Word) (len : Nat) : State × Option (List Byte) :=
  let p := poolPlace s bank off
  match bankList s .prog reader readers (poolAddrs s bank off 1 (ceilDiv (p + 1 + len) 4 - 1)) with
  | (s, some ws) => (s, some (((wordsBytes (w :: ws)).drop (p + 1)).take len))
  | (s, none) => (s, none)

/-- A pool string. -/
def poolString (s : State) (bank off reader : Nat) (readers : List Nat) : State × Option (List Byte) :=
  match poolLen s bank off reader readers with
  | (s, some (w, len)) => poolChars s bank off reader readers w len
  | (s, none) => (s, none)

/-- SRC of a listener entry from its words 4 to 7 (R223). -/
def srcOf (ws : List Word) : List Byte :=
  let bs := wordsBytes ws
  (bs.drop 1).take (min 15 (bs.getD 0 0).toNat)

/-! ## Queues (R226 to R230) -/

/-- A listener is enabled (R226). -/
def lstEnabled (s : State) (n : Nat) : Bool := regB s (Reg.lstEnabled (n / 32)) (n % 32)

/-- Granules that the copies of a listener hold. -/
def lqUse (s : State) (n : Nat) : Nat := (s.lq.copies.filter (fun c => c.listener == n)).foldl (fun a c => a + c.granules) 0

/-- Free granules of the pool. -/
def lqFree (s : State) : Nat := 24576 - s.lq.copies.foldl (fun a c => a + c.granules) 0

/-- The lowest run of n free granules, past the runs held (ascending). -/
def lqRunFrom (n : Nat) : List (Nat × Nat) → Nat → Option Nat
  | [], cur => if cur + n ≤ 24576 then some cur else none
  | (f, c) :: rs, cur => if cur + n ≤ f then some cur else lqRunFrom n rs (f + c)

/-- The lowest run of n free granules of the pool. -/
def lqRun (s : State) (n : Nat) : Option Nat :=
  lqRunFrom n (s.lq.copies.foldl (fun rs c => insertBy (fun a b => decide (a.1 ≤ b.1)) (c.gran, c.granules) rs) []) 0

/-- The copies and drain items change. -/
def setLq (s : State) (q : Listeners) : State := { s with lq := q }

/-- A copy leaves its queue, and its granules are free (R230). -/
def dropCopy (s : State) (arrival : Nat) : State :=
  setLq s { s.lq with copies := s.lq.copies.filter (fun c => c.arrival != arrival) }

/-- A copy changes. -/
def setCopy (s : State) (arrival : Nat) (f : Copy → Copy) : State :=
  setLq s { s.lq with copies := s.lq.copies.map (fun c => if c.arrival == arrival then f c else c) }

/-- The copies that a test picks are discarded and counted in LQ_FLUSHED.DISABLED; their number (R226, R230). -/
def flushCopies (s : State) (p : Copy → Bool) : State × Nat :=
  let gone := s.lq.copies.filter p
  let s := setLq s { s.lq with copies := s.lq.copies.filter (fun c => !p c) }
  (gone.foldl (fun s c => count s (Reg.lqFlushed c.listener) 31 16 1) s, gone.length)

/-- Everything queued on an endpoint is discarded: its copies, which are counted, and its drain items (R230, R244). -/
def flushEndpoint (s : State) (kind num : Nat) : State × Nat :=
  let (s, n) := flushCopies s (fun c => boundTo c.w0 kind num none)
  (setLq s { s.lq with drains := s.lq.drains.filter (fun d => !boundTo d.w0 kind num none) }, n)

/-- A copy is refused (R228). -/
def refuseCopy (s : State) (n kind num reason : Nat) (inj : Bool) : State :=
  let s := if reason == 7 then count s (Reg.lqRefused n) 31 16 1
    else if reason == 8 then count s (Reg.lqRefused n) 15 0 1 else s
  fire s 0x41 (epUnit kind num) n reason inj (some (limitKey 0x41 (2 ^ 23 + n) reason))

/-- The words of a copy in its run of the pool: 8 header words, whose layout is not stated and whose values are free (log 18), then its
bytes (R18, R228). -/
def poolWrite (s : State) (gran : Nat) (body : List Byte) : State :=
  memPuts (memFreeWords s .pool (16 * gran) 8) .pool (16 * gran + 8) (padWords body)

/-- The bytes of a queued copy. -/
def poolBody (s : State) (c : Copy) : List Byte := (wordsBytes (memWords s .pool (16 * c.gran + 8) (ceilDiv c.len 4))).take c.len

/-- The copier makes the copy of an item for listener n, whose entry holds these words, or does not (R227, R228). The item is given
as a copy; own is the s: value a program gave it, openSeq the serial number of enables at its OPEN. -/
def copyMake (s : State) (it : Copy) (own : Option (List Byte)) (openSeq n : Nat) (w0 w1 : Word) (src : List Byte) : State :=
  let kind := lstKind w0
  let num := lstNum w0
  if kind == 0 || lstDrain w0 || !lstEnabled s n || decide (openSeq < sget 0 s.lq.enAt n) then s
  else if !epOpen s kind num then count s (Reg.lqFlushed n) 15 0 1
  else
    let (s, inj) := injected s 0x41 [epUnit kind num]
    let g := ceilDiv (32 + it.body.length) 64
    if inj then refuseCopy s n kind num 9 true
    else if regF s (Reg.lqQuota n) 14 0 < lqUse s n + g then refuseCopy s n kind num 7 false
    else match lqRun s g with
      | none => refuseCopy s n kind num 8 false
      | some at_ =>
        let c := { it with listener := n, arrival := s.lq.arrival, w0 := w0, w1 := w1, src := own.getD src, setTb := s.time.tb }
        let c := { c with len := it.body.length, body := [], gran := at_, granules := g, missed := false, released := false, rebuilding := false }
        let s := poolWrite s at_ it.body
        let s := setLq s { s.lq with copies := s.lq.copies ++ [c], arrival := s.lq.arrival + 1 }
        count (setLq s { s.lq with low := min s.lq.low (lqFree s) }) Reg.copierCount 31 0 1

/-- The members of a set, ascending, from its 32 words (R225). -/
def setMembers (ws : List Word) : List Nat := (List.range 1024).filter fun n => bit (ws.getD (n / 32) 0) (n % 32)

/-- What the copier reads of the entries of a set's members: listener, words 0 and 1, SRC; none while a word is awaited. -/
def memberEntries (s : State) (bank : Nat) : List Nat → State × Option (List (Nat × Word × Word × List Byte))
  | [] => (s, some [])
  | n :: ns =>
    let addrs := [0, 1, 4, 5, 6, 7].map (lstAddr bank n)
    match bankList s .lsts readerCopier [] addrs with
    | (s, some (w0 :: w1 :: ws)) => match memberEntries s bank ns with
      | (s, some es) => (s, some ((n, w0, w1, srcOf ws) :: es))
      | (s, none) => (s, none)
    | (s, _) => (s, none)

/-- The copies of an item are made in ascending listener index (R227). -/
def copyItem (s : State) (it : Copy) (own : Option (List Byte)) (openSeq : Nat) : List (Nat × Word × Word × List Byte) → State
  | [] => s
  | (n, w0, w1, src) :: es => copyItem (copyMake s it own openSeq n w0 w1 src) it own openSeq es

/-- LISTENER_ENABLE (R226): listeners that were disabled become enabled. -/
def listenerEnable (s : State) (k : Nat) (mask : Word) : State :=
  let was := reg s (Reg.lstEnabled k)
  let s := setReg s (Reg.lstEnabled k) (was ||| mask)
  let fresh := (List.range 32).filter fun i => bit mask i && !bit was i
  let q := { s.lq with enSeq := s.lq.enSeq + 1 }
  setLq s (fresh.foldl (fun q i => { q with enAt := sset 0 q.enAt (32 * k + i) q.enSeq }) q)

/-- LISTENER_DISABLE (R226, R242): the copies that have not started are discarded, and pending drain items removed. -/
def listenerDisable (s : State) (k : Nat) (mask : Word) : State :=
  let s := setReg s (Reg.lstEnabled k) (reg s (Reg.lstEnabled k) &&& ~~~mask)
  let hit (n : Nat) : Bool := n / 32 == k && bit mask (n % 32)
  let s := (flushCopies s (fun c => hit c.listener)).1
  setLq s { s.lq with drains := s.lq.drains.filter (fun d => !hit d.listener) }

/-- LISTENER_ENABLE (R226). -/
def execListenerEnable (k : Fin 32) (mask : Word) (s : State) : Host.Outcome State Fault Refusal :=
  .next (if bar0Writes s then listenerEnable s k.val mask else s)

/-- LISTENER_DISABLE (R226). -/
def execListenerDisable (k : Fin 32) (mask : Word) (s : State) : Host.Outcome State Fault Refusal :=
  .next (if bar0Writes s then listenerDisable s k.val mask else s)

/-! ## Failed words and rebuilds (R334) -/

/-- The first word of a copy, from word i on, that fails as the endpoint reads n of them, with whether the failure was injected. -/
def copyCheck (s : State) (c : Copy) (units : List Nat) : Nat → Nat → State × Option (Nat × Bool)
  | _, 0 => (s, none)
  | i, n + 1 =>
    let r := memRead s .pool (16 * c.gran + i) units
    if r.failed then (r.s, some (i, r.inj)) else copyCheck r.s c units (i + 1) n

/-- The report of a failed copy word (R331). -/
def lqReport (s : State) (c : Copy) (word outcome : Nat) (inj : Bool) : State :=
  fire s 0x03 (unitOf 10 3) (16 * c.gran + word) (outcome * 2 ^ 28 + readerEndpoint * 65536 + c.listener) inj none

/-- A copy is dropped by the Retriever: no echo, no DET_DEADLINE. -/
def lqDrop (s : State) (c : Copy) (word : Nat) (inj : Bool) : State :=
  lqReport (count (dropCopy s c.arrival) Reg.retrCountB 15 0 1) c word 1 inj

/-- The source record of a copy can still be run again: its granules hold its SEQ and no record that is in flight has taken any of
them, and its bank has not been written since (R334). -/
def canRebuild (s : State) (c : Copy) : Bool :=
  memWord s .kennel (4 * c.srcGran + 1) == BitVec.ofNat 32 c.srcSeq && sget 0 s.pack.loads c.bank == c.bankLoads
    && s.herder.runs.all (fun r => decide (r.1 + r.2 ≤ c.srcGran) || decide (c.srcGran + c.srcCount ≤ r.1)
      || (r.1 == c.srcGran && r.2 == c.srcCount))

/-- A word of a copy has failed: the copy waits for a rebuild, or is dropped (R334). -/
def lqFail (s : State) (c : Copy) (word : Nat) (inj : Bool) : State :=
  if 8 ≤ word && canRebuild s c && decide (inFlight s < 2048) then
    let r : Rec := { seq := c.srcSeq, gran := c.srcGran, count := c.srcCount, talker := c.srcTalker, rxq0 := false, steps := c.stamp.steps }
    let b : Rebuild := { arrival := c.arrival, recd := r, bank := c.bank, ordinal := c.ordinal, word := word, inj := inj }
    let s := setCopy s c.arrival (fun c => { c with rebuilding := true })
    { s with herder := { s.herder with rebuilds := s.herder.rebuilds ++ [b] } }
  else lqDrop s c word inj

/-- The rebuilt bytes replace the copy's, or they do not fit and it is dropped (R334). -/
def lqRebuilt (s : State) (b : Rebuild) (body : List Byte) (inj : Bool) : State :=
  match s.lq.copies.find? (fun c => c.arrival == b.arrival) with
  | none => s
  | some c =>
    if c.granules < ceilDiv (32 + body.length) 64 then lqDrop s c b.word b.inj
    else
      let s := memPuts s .pool (16 * c.gran + 8) (padWords body)
      let s := setCopy s c.arrival (fun c => { c with len := body.length, rebuilding := false, inj := c.inj || inj })
      lqReport (count s Reg.retrCountB 31 16 1) c b.word 5 b.inj

/-- A rebuild run ended without the item: the copy is dropped (R334). -/
def lqNotRebuilt (s : State) (b : Rebuild) : State :=
  match s.lq.copies.find? (fun c => c.arrival == b.arrival) with
  | none => s
  | some c => lqDrop s c b.word b.inj

/-! ## The scheduler (R231 to R233) -/

/-- A copy is ready: no launch time, or one that is reached, was before a clock step, or will be within a lead of so many nanoseconds. -/
def copyReady (s : State) (lead : Nat) (c : Copy) : Bool :=
  !c.rebuilding && (c.released || c.launch.all (fun t => decide (c.setTb < s.time.tb) && decide (-(lead : Int) ≤ dNow s t.1 t.2)))

/-- What the scheduler orders by: priority, deadline and arrival number. -/
structure Rank where
  prio : Nat
  deadline : Option (Word × Word)
  arrival : Nat
  deriving DecidableEq, Repr

/-- One rank goes before another (R231): D of two deadlines is taken against the present clock. -/
def rankLt (s : State) (a b : Rank) : Bool :=
  let d (x : Word × Word) : Int := -(dNow s x.1 x.2)
  if a.prio != b.prio then decide (a.prio < b.prio)
  else match a.deadline, b.deadline with
    | some x, some y => if d x == d y then decide (a.arrival < b.arrival) else decide (d x < d y)
    | some _, none => true
    | none, some _ => false
    | none, none => decide (a.arrival < b.arrival)

/-- A copy or a drain item that may start. -/
inductive Cand where
  | copy (c : Copy)
  | drain (d : Drain)
  deriving DecidableEq, Repr

/-- The rank of a candidate. -/
def candRank : Cand → Rank
  | .copy c => ⟨c.prio, c.deadline, c.arrival⟩
  | .drain d => ⟨d.prio, some d.deadline, d.arrival⟩

/-- The first candidate in scheduler order. -/
def bestCand (s : State) : List Cand → Option Cand
  | [] => none
  | a :: l => match bestCand s l with
    | none => some a
    | some b => some (if rankLt s (candRank a) (candRank b) then a else b)

/-- What is queued and ready on an endpoint, without the arrival numbers passed over. -/
def candidates (s : State) (kind num : Nat) (queue : Option Nat) (lead : Nat) (skip : List Nat) : List Cand :=
  let cs := s.lq.copies.filter fun c => boundTo c.w0 kind num queue && copyReady s lead c && !skip.contains c.arrival
  let ds := s.lq.drains.filter fun d => boundTo d.w0 kind num queue && !skip.contains d.arrival
  cs.map Cand.copy ++ ds.map Cand.drain

/-- A copy or drain item has started (R232). -/
def countStart (s : State) (n : Nat) : State := count s (Reg.lqSent n) 31 0 1

/-! ## Drain items (R242, R243) -/

/-- The running checksum of bytes (R213): the XOR after the first '$' or '!' and before the first '*' that follows. -/
def runningSum (bs : List Byte) : Nat :=
  let rest := (bs.dropWhile (fun b => b != 0x24#8 && b != 0x21#8)).drop 1
  xorBytes (rest.takeWhile (fun b => b != 0x2A#8))

/-- The expansion of a template over the value words, up to 1 024 bytes (R243). -/
def expandTemplate (vals : List Word) : List Byte → List Byte → List Byte
  | [], acc => acc.take 1024
  | t :: ts, acc =>
    if t == 1#8 then
      match ts with
      | k :: x0 :: x1 :: rest =>
        expandTemplate vals rest (acc ++ formatQ (vals.getD (k.toNat % 12) 0).toInt (x1.toNat * 256 + x0.toNat))
      | _ => acc.take 1024
    else if t == 2#8 then expandTemplate vals ts (acc ++ hexByte (runningSum acc))
    else expandTemplate vals ts (acc ++ [t])

/-- The bytes of a text slot (R243). -/
def textSlot (vals : List Word) : List Byte :=
  let bs := wordsBytes vals
  (bs.drop 1).take (min 47 (bs.getD 0 0).toNat)

/-- A drain item changes. -/
def setDrain (s : State) (listener : Nat) (f : Drain → Drain) : State :=
  setLq s { s.lq with drains := s.lq.drains.map (fun d => if d.listener == listener then f d else d) }

/-- A drain item starts: it reads its entry in the active bank and its slot, and becomes a copy of its listener. None: it waits for
a re-fetch, the slot was empty and the item is gone, or the entry now names another endpoint, to which the item goes (R242, log 167). -/
def drainBuild (s : State) (d : Drain) (kind num : Nat) (queue : Option Nat) : State × Option Copy :=
  let bank := s.pack.active
  let unit := epUnit kind num
  match bankList s .lsts readerEndpoint [unit] ((List.range 8).map (lstAddr bank d.listener)) with
  | (s, some (w0 :: w1 :: w2 :: w3 :: src)) =>
    if !boundTo w0 kind num queue then (setDrain s d.listener (fun d => { d with w0 := w0 }), none)
    else
    let tmpl : State × Option (List Byte) :=
      if bit w3 17 then poolString s bank (fld w3 16 0) readerEndpoint [unit] else (s, some [])
    match tmpl with
    | (s, none) => (s, none)
    | (s, some t) =>
      let remove (s : State) : State := setLq s { s.lq with drains := s.lq.drains.filter (fun x => x.arrival != d.arrival) }
      match slotTake s (fld w2 27 16) (List.range 16) readerEndpoint [unit] with
      | (s, none) => (count (remove s) (Reg.lqDrain d.listener) 15 0 1, none)
      | (s, some ws) =>
        let w12 := ws.getD 12 0
        let w15 := ws.getD 15 0
        let st : Stamp := (((fld w12 15 0) * 2 ^ 32 + (ws.getD 13 0).toNat) * 1000000000 + fld (ws.getD 14 0) 29 0) * 65536 + fld w15 15 0
        let body := if bit w3 17 then expandTemplate (ws.take 12) t [] else textSlot (ws.take 12)
        let c : Copy := {
          listener := d.listener, arrival := d.arrival, w0 := w0, w1 := w1, src := srcOf src, prio := d.prio,
          deadline := some d.deadline, setTb := s.time.tb, launch := none, released := false, len := body.length, body := body,
          notag := false, can := none, stamp := ⟨st, fld w12 19 16, s.time.steps⟩, stampLost := bit w12 31, inj := false,
          gran := 0, granules := 0, missed := false, rebuilding := false, srcSeq := 0, srcGran := 0, srcCount := 0,
          srcTalker := 0, ordinal := 0, bank := bank, bankLoads := 0 }
        let s := setLq (remove s) { (remove s).lq with sentSeq := sset 0 s.lq.sentSeq d.listener (fld w15 31 16 + 1) }
        (countStart s d.listener, some c)
  | (s, _) => (s, none)

/-- The next deadline of a drain listener: the tick after this one (R242). -/
def nextTick (s : State) (period phase : Nat) : Word × Word :=
  let ms := drainMs s % 2 ^ 32
  let since := (ms + (period - phase % period)) % period
  let ahead := period - since
  let into := s.time.tb % Config.tickMs * 4
  shortAdd (shortSec (now s)) (shortNs (now s)) (ahead * 1000000 - into)

/-- A drain listener ticks at this millisecond of DRAIN_CLOCK (R242). -/
def drainTicks (ms period phase : Nat) : Bool := period != 0 && ms % period == phase % period

/-- DRAIN_TICK (R242): the settings of a listener are read, and where it drains it ticks; each tick is taken once. -/
def execDrainTick (l : Fin 1024) (s : State) : Host.Outcome State Fault Refusal :=
  let n := l.val
  let ms := drainMs s % 2 ^ 32
  if !ticking s || sget 0 s.lq.tickMs n == drainMs s + 1 then .next s
  else
    match bankList s .lsts readerDrain [] ((List.range 4).map (lstAddr s.pack.active n)) with
    | (s, some [w0, _, w2, w3]) =>
      let period := fld w2 15 0
      if !(lstKind w0 != 0 && lstDrain w0 && drainTicks ms period (fld w3 31 18)) then .next s
      else
      let s := setLq s { s.lq with tickMs := sset 0 s.lq.tickMs n (drainMs s + 1) }
      if !lstEnabled s n || !epOpen s (lstKind w0) (lstNum w0) then .next s
      else match slotTake s (fld w2 27 16) [15] readerDrain [] with
        | (s, none) => .next (count s (Reg.lqDrain n) 15 0 1)
        | (s, some ws) =>
          let next := nextTick s period (fld w3 31 18)
          if bit w2 28 && sget 0 s.lq.sentSeq n == fld (ws.getD 0 0) 31 16 + 1 then .next s
          else if s.lq.drains.any (fun d => d.listener == n) then
            .next (count (setDrain s n (fun d => { d with w0 := w0, deadline := next })) (Reg.lqDrain n) 31 16 1)
          else
            let d : Drain := ⟨n, w0, s.lq.arrival, fld w2 31 29, next⟩
            .next (setLq s { s.lq with drains := s.lq.drains ++ [d], arrival := s.lq.arrival + 1 })
    | (s, _) => .next s

/-- The next copy or drain item of an endpoint starts (R231): its words are checked, a drain item is built; what fails is passed
over. For a host ring a copy starts only where its entry has room. -/
def lqTake (s : State) (kind num : Nat) (queue : Option Nat) (lead : Nat) (room : State → Copy → Bool) :
    Nat → List Nat → State × Option Copy
  | 0, _ => (s, none)
  | fuel + 1, skip =>
    match bestCand s (candidates s kind num queue lead skip) with
    | none => (s, none)
    | some (.copy c) =>
      if !room s c then (s, none)
      else
        let (s', bad) := copyCheck s c [epUnit kind num] 0 (8 + ceilDiv c.len 4)
        match bad with
        | some (w, inj) => lqTake (lqFail s' c w inj) kind num queue lead room fuel (c.arrival :: skip)
        | none => (countStart (dropCopy s' c.arrival) c.listener, some { c with body := poolBody s' c })
    | some (.drain d) =>
      match drainBuild s d kind num queue with
      | (s', some c) => if room s' c then (s', some c) else (s, none)
      | (s', none) => lqTake s' kind num queue lead room fuel (d.arrival :: skip)

/-- Number of things queued, as a bound on what the scheduler passes over. -/
def lqFuel (s : State) : Nat := s.lq.copies.length + s.lq.drains.length + 1

/-- The next copy of an endpoint that has no ring. -/
def lqNext (s : State) (kind num : Nat) (queue : Option Nat) (lead : Nat) : State × Option Copy :=
  lqTake s kind num queue lead (fun _ _ => true) (lqFuel s) []

/-! ## Deadlines (R234, R235) -/

/-- A copy misses its deadline (R234). -/
def lqMiss (s : State) (c : Copy) (inj : Bool) : State :=
  let late := bit c.w0 26
  let s := fire s 0x42 (epUnit (lstKind c.w0) (lstNum c.w0)) c.listener (b2n late) inj (some (limitKey 0x42 (2 ^ 23 + c.listener) 0))
  if late then count (setCopy s c.arrival (fun c => { c with missed := true })) (Reg.lqLate c.listener) 15 0 1
  else count (dropCopy s c.arrival) (Reg.lqLate c.listener) 31 16 1

/-- The queued copy with an arrival number, as a DEADLINE_MISS names it by its low 32 bits. -/
def copyNamed (s : State) (arrival : Word) : Option Copy := s.lq.copies.find? (fun c => c.arrival % 2 ^ 32 == arrival.toNat)

/-- The deadline of a queued copy is reached, and it has not missed it yet. -/
def deadlineDue (s : State) (c : Copy) : Bool := !c.missed && c.deadline.any (fun t => reached s t.1 t.2 c.setTb)

/-- DET_DEADLINE is checked on an endpoint at a TB tick with copies that have neither started nor missed; an injected occurrence makes the one
with the lowest arrival number miss (R340). -/
def deadlineCheck (s : State) (kind num : Nat) : State :=
  match minBy (·.arrival) (s.lq.copies.filter fun c => lstKind c.w0 == kind && lstNum c.w0 == num && !c.missed) with
  | none => s
  | some c =>
    let (s, inj) := injected s 0x42 [epUnit kind num]
    if inj then lqMiss s c true else s

/-! ## TAG blocks (R236 to R238) -/

/-- UNIX seconds and nanoseconds of a stamp, as the c: value of R237. -/
def tagTime (s : State) (t : Stamp) (ms : Bool) : List Byte :=
  let u : Int := (stSec t : Int) - utcOffset s
  if ms then decDigits 13 ((u * 1000 + (stNs t / 1000000 : Nat)) % (10 ^ 13 : Nat)).toNat
  else decDigits 10 (u % (10 ^ 10 : Nat)).toNat

/-- The s:, n: and c: fields that a listener's word 1 enables, given their values. -/
def tagFields (w1 : Word) (src : List Byte) (line : Nat) (c : List Byte) : List (List Byte) :=
  (if bit w1 28 && !src.isEmpty then [ascii "s:" ++ src] else []) ++ (if bit w1 27 then [ascii "n:" ++ decText line] else [])
    ++ (if bit w1 30 then [ascii "c:" ++ c] else [])

/-- Fields joined by commas. -/
def joinComma : List (List Byte) → List Byte
  | [] => []
  | [f] => f
  | f :: fs => f ++ 0x2C#8 :: joinComma fs

/-- A TAG block around its text: backslash, text, star, checksum, backslash. -/
def tagWrap (text : List Byte) : List Byte := 0x5C#8 :: text ++ 0x2A#8 :: hexByte (xorBytes text) ++ [0x5C#8]

/-- The line counter of a listener (R238). -/
def lineOf (s : State) (n : Nat) : Nat := sget 1 s.lq.line n

/-- The counter advances after a block that carries it. -/
def lineNext (s : State) (n : Nat) : State := setLq s { s.lq with line := sset 1 s.lq.line n (lineOf s n % 999 + 1) }

/-- A copy is sent with an inserted block on a serial port (R236). -/
def tagWanted (c : Copy) : Bool := bit c.w1 31 && !c.notag && !(tagFields c.w1 c.src 1 []).isEmpty

/-- The inserted block of a serial item whose opening backslash departs at t, with character time T in units of 2^-16 ns (R237). -/
def tagBlock (s : State) (n : Nat) (w1 : Word) (src : List Byte) (t : Stamp) (chars : Nat → Nat) : State × List Byte :=
  let blank := List.replicate (if bit w1 29 then 13 else 10) 0x30#8
  let len := (tagWrap (joinComma (tagFields w1 src (lineOf s n) blank))).length
  let c := tagTime s (stMove t (chars len : Nat)) (bit w1 29)
  (if bit w1 27 then lineNext s n else s, tagWrap (joinComma (tagFields w1 src (lineOf s n) c)))

/-! ## Echo (R239) -/

/-- An echo entry of a departed copy is written, or dropped and counted. -/
def echoWrite (s : State) (listener ring : Nat) (e : Edge) (bytes : List Byte) (inj : Bool) : State :=
  let payload := wordsBytes (stampField e.stamp e.epoch false) ++ bytes
  if hrRoom s ring payload.length then hrWrite s ring 3 listener inj payload
  else count s (Reg.lqEchoLost listener) 15 0 1

/-- The echo of a copy, where its listener asks for one. -/
def echoCopy (s : State) (c : Copy) (e : Edge) (bytes : List Byte) : State :=
  if bit c.w0 25 && lstKind c.w0 != 4 then echoWrite s c.listener (fld c.w0 23 20) e bytes c.inj else s

/-- The newest epoch committed in region TRn (R239). -/
def newestEpoch (s : State) (g : Nat) : Nat := bufEpoch (region s g) (region s g).newest

/-! ## Host rings and panel ports (R232) -/

/-- The payload of an item entry (R53). -/
def itemPayload (c : Copy) : List Byte := wordsBytes (stampField c.stamp.stamp c.stamp.epoch c.stampLost) ++ c.body

/-- The next copy of a host ring: its entry is written (R54, R232). -/
def ringStart (s : State) (r : Nat) : State :=
  match lqTake s 4 r none 0 (fun s c => hrRoom s r (16 + c.len)) (lqFuel s) [] with
  | (s, some c) => hrWrite s r 1 c.listener c.inj (itemPayload c)
  | (s, none) => s

/-- The next copy of a panel port: it becomes a request for its region (R316). -/
def panelTake (s : State) (n : Nat) : State :=
  match lqNext s 5 n none 0 with
  | (s, some c) => (panelRequest s n (fld c.w0 12 8) (if c.body.isEmpty then .bindings else .payload c.body) none).1
  | (s, none) => s

end Sys2Proof.Machine
end

