-- ==== Sys2Proof/Machine/Pack.lean ====
section
/-! DEFINITION. The Pack: dispatch, the end of a record, engine groups, bank swaps and engine hounds (07_intake_talkers.md R167, R168;
08_pack_engines.md). -/

namespace Sys2Proof.Machine

/-- The unit of an engine. -/
def unitEngine (e : Nat) : Nat := unitOf 6 e

/-- The Pack changes. -/
def setPack (s : State) (p : Pack) : State := { s with pack := p }

/-- The Herder changes. -/
def setHerder (s : State) (h : Herder) : State := { s with herder := h }

/-- State of an engine group: 0 OFFLINE, 1 POWERING, 2 ONLINE, 3 DRAINING (R183). -/
def groupState (s : State) (g : Nat) : Nat := sget 2 s.pack.groups g

/-- An engine group enters a state. -/
def setGroup (s : State) (g v : Nat) : State := setPack s { s.pack with groups := sset 2 s.pack.groups g v }

/-- An engine holds a record or a rebuild run. -/
def engBusy (s : State) (e : Nat) : Bool := (engine s e).recd.isSome

/-- An engine of an online group that is not wedged (R168). -/
def engOnline (s : State) (e : Nat) : Bool := groupState s (e / 4) == 2 && !(engine s e).wedged

/-- The lowest engine that is free, online and not wedged (R168). -/
def freeEngine (s : State) : Option Nat := (List.range 32).find? fun e => engOnline s e && !engBusy s e

/-! ## Header words of a record (R156) -/

/-- Header word k of a record, unchecked. -/
def recW (s : State) (r : Rec) (k : Nat) : Word := memWord s .kennel (4 * r.gran + k)

/-- The source unit of a record. -/
def recSrc (s : State) (r : Rec) : Nat := unitOf (fld (recW s r 2) 31 28) (fld (recW s r 2) 22 16)

/-- LENGTH of a record. -/
def recLen (s : State) (r : Rec) : Nat := fld (recW s r 0) 8 0

/-- TYPE of a record. -/
def recType (s : State) (r : Rec) : Nat := fld (recW s r 0) 31 28

/-- A record is marked: an injected report touched it (R341). -/
def recInj (s : State) (r : Rec) : State := memPut s .kennel (4 * r.gran) (setFld (recW s r 0) 22 22 1)

/-- The stamps of a record cannot be trusted from here on (R332). -/
def recLost (s : State) (r : Rec) : State := memPut s .kennel (4 * r.gran) (setFld (recW s r 0) 23 23 1)

/-- The route entry of a record (R173). -/
def routeIndex (s : State) (r : Rec) : Nat :=
  let n := fld (recW s r 2) 22 16
  let t := recType s r
  if t == 0 then n % 128 else if t == 1 then 128 + n % 128 else if t == 2 then 256 + n % 128 else if t == 3 then 384 + n % 8
  else if t == 4 then 392 + n % 4 else 396 + n % 32

/-! ## The end of a record (R172) -/

/-- The record that an engine holds ends. Its plies are charged and its granules freed; a rebuild run charges nothing, and where it
ends before its item closed, the copy is dropped (R334). -/
def engEnd (s : State) (e : Nat) (abandoned : Bool) : State :=
  let g := engine s e
  match g.recd with
  | none => s
  | some r =>
    let s := match g.rebuild with
      | none => leaveFlight s r g.plies
      | some b =>
        let s := dropRun s r.gran
        if g.closes ≤ b.ordinal then lqNotRebuilt s b else s
    let grp := e / 4
    let s := if groupState s grp == 3 && !abandoned && g.rebuild.isNone then
        setPack s { s.pack with groupEnded := sset 0 s.pack.groupEnded grp (sget 0 s.pack.groupEnded grp + 1) }
      else s
    let s := match s.pack.swapEnded with
      | some n => if g.bank != s.pack.active && g.rebuild.isNone then setPack s { s.pack with swapEnded := some (n + 1) } else s
      | none => s
    let g := engine s e
    setEngine s e { g with recd := none, rebuild := none, item := none, waitTb := none, judged := false, reload := false,
                           flags := flagSet g.flags flagOpen false }

/-- A record ends by END (R172). -/
def engEndNormal (s : State) (e : Nat) : State :=
  engEnd (if (engine s e).item.isSome && (engine s e).rebuild.isNone then count s Reg.packCounts 15 0 1 else s) e false

/-- A record ends because its next instruction would exceed the budget, or because that was injected (R176). -/
def engExhausted (s : State) (e : Nat) (inj : Bool) : State :=
  let g := engine s e
  let t := (g.recd.map (·.talker)).getD 0
  let s := count s Reg.packCounts 31 16 1
  let s := fire s 0x40 (unitEngine e) t (g.bank * 32768 + g.pc) inj (some (limitKey 0x40 (unitEngine e) 0))
  engEnd s e false

/-- Step 3 of R188: the record is abandoned. -/
def engAbandon (s : State) (e : Nat) : State := if engBusy s e then engEnd (count s Reg.packAbandon 15 0 1) e true else s

/-- Detail word 3 of DET_HOUND_ENG (R188). -/
def houndDetail (s : State) (e : Nat) : Nat := min 65535 (engine s e).plies * 65536 + (engine s e).bank * 32768 + (engine s e).pc

/-- An engine is wedged by its hound (R188): it is marked, its record abandoned, and the report and the wedge event are written. -/
def engWedge (s : State) (e : Nat) (det d2 d3 : Nat) (inj : Bool) : State :=
  let s := engAbandon s e
  let s := setEngine s e { engine s e with wedged := true }
  let s := { s with integ := { s.integ with wedged := s.integ.wedged ++ [unitEngine e] } }
  let s := fire s det (unitEngine e) d2 d3 inj none
  event s 3 0 (unitEngine e) d2 d3 inj (now s)

/-! ## Dispatch (R167, R168, R170) -/

/-- The oldest waiting record of each talker that has no record running, in commit order. -/
def readyHeads (s : State) : List Rec :=
  let running := s.pack.engines.filterMap fun p => if p.2.rebuild == none then p.2.recd.map (·.talker) else none
  let step (acc : List Rec × List Nat) (r : Rec) : List Rec × List Nat :=
    if acc.2.contains r.talker then acc else (acc.1 ++ [r], r.talker :: acc.2)
  (s.herder.waiting.foldl step ([], running)).1

/-- A head is in tier 0: its RXQ0 flag, or URGENT of its talker. -/
def tier0 (s : State) (r : Rec) : Bool := r.rxq0 || bit (talkW s r.talker 3) 29

/-- One head goes before another (R167). -/
def headLt (s : State) (a b : Rec) : Bool :=
  if tier0 s a != tier0 s b then tier0 s a else decide ((BitVec.ofNat 32 a.seq - BitVec.ofNat 32 b.seq : Word).toInt < 0)

/-- The head that the Herder dispatches next. -/
def nextHead (s : State) : List Rec → Option Rec
  | [] => none
  | r :: rs => match nextHead s rs with
    | none => some r
    | some q => some (if headLt s q r then q else r)

/-- RECORD_PLIES of a talker; 0 means 2 048 (R175). -/
def recordPlies (s : State) (i : Nat) : Nat := if fld (talkW s i 6) 15 0 == 0 then 2048 else fld (talkW s i 6) 15 0

/-- The header words that dispatch loads, read and checked by the engine: a word that fails ends the record (R170, R332). -/
def headerLoad (s : State) (e : Nat) (r : Rec) : List Nat → State × Bool
  | [] => (s, true)
  | k :: ks =>
    let m := memRead s .kennel (4 * r.gran + k) [recSrc s r]
    if m.failed then
      let s := if m.inj then recInj m.s r else m.s
      (count (memReport s .kennel (4 * r.gran + k) 1 e 0 m.inj) Reg.retrCountA 15 0 1, false)
    else headerLoad m.s e r ks

/-- An engine starts from the state of R170; its scratch keeps what it holds. -/
def engLoad (s : State) (e : Nat) (r : Rec) (route : Word) (budget bank : Nat) : State :=
  let g := engine s e
  let w := [recW s r 0, recW s r 1, recW s r 2, recW s r 9, recW s r 10, recW s r 11, BitVec.ofNat 32 (fld route 31 16),
    BitVec.ofNat 32 budget] ++ List.replicate 8 0
  setEngine s e
    { g with
      w := w, pc := fld route 14 0, cursor := if recType s r == 0 then fld (recW s r 9) 24 16 else 0,
      flags := flagSet 0 flagEot (recLen s r == 0), stack := [], fields := [], budget := budget, budget0 := budget, bank := bank,
      item := none, closes := 0 }

/-- A record, or a rebuild run, is given to an engine. -/
def engStart (s : State) (e : Nat) (r : Rec) (rebuild : Option Rebuild) (bank : Nat) (route : Word) : State :=
  let g := engine s e
  let s := setEngine s e
    { g with
      recd := some r, rebuild := rebuild, plies := 0, startTb := s.time.tb, paused := 0, waitTb := none, effect := false,
      reparsed := false, judged := false, reload := false, lastSeq := r.seq, lastTalker := r.talker, bank := bank }
  let (s, ok) := headerLoad s e r [0, 1, 2, 9, 10, 11]
  let s := engLoad s e r route (recordPlies s r.talker) bank
  if ok then s else engEnd s e false

/-- DISPATCH of a rebuild run, ahead of every tier 0 head (R334). -/
def dispatchRebuild (s : State) (e : Nat) (b : Rebuild) (rest : List Rebuild) : State :=
  match s.lq.copies.find? (fun c => c.arrival == b.arrival) with
  | none => setHerder s { s.herder with rebuilds := rest }
  | some c =>
    if !canRebuild s c then lqDrop (setHerder s { s.herder with rebuilds := rest }) c b.word b.inj
    else
      let s := talkerCheck s b.recd.talker readerHerder [] [6]
      match bankRead s .routes (512 * b.bank + routeIndex s b.recd) readerHerder [] with
      | (s, none) => s
      | (s, some route) =>
        let s := setHerder s { s.herder with rebuilds := rest }
        let s := holdRun s b.recd.gran b.recd.count
        engStart s e b.recd (some b) b.bank route

/-- DISPATCH (R168): a rebuild run first, else the chosen head, goes to the lowest free engine. -/
def execDispatch (s : State) : Host.Outcome State Fault Refusal :=
  if !ticking s || bootBusy s then .next s
  else match freeEngine s with
    | none => .next s
    | some e =>
      match s.herder.rebuilds with
      | b :: rest => .next (dispatchRebuild s e b rest)
      | [] =>
        match nextHead s (readyHeads s) with
        | none => .next s
        | some r =>
          let s := talkerCheck s r.talker readerHerder [] [3, 6]
          let bank := s.pack.active
          match bankRead s .routes (512 * bank + routeIndex s r) readerHerder [] with
          | (s, none) => .next s
          | (s, some route) =>
            let s := setHerder s { s.herder with waiting := s.herder.waiting.filter (fun x => x.seq != r.seq) }
            .next (engStart (count s Reg.herderDispatch 31 0 1) e r none bank route)

/-! ## Engine hounds (R187, R188) -/

/-- Wall time of an engine's record in ticks, without its waits for re-fetches. -/
def wallTicks (s : State) (g : Engine) : Nat :=
  sinceTb s g.startTb - g.paused - (match g.waitTb with
    | some t => sinceTb s t
    | none => 0)

/-- The hound limit of a record in ticks. -/
def houndLimit (s : State) (g : Engine) : Nat :=
  max (max 1 (regF s Reg.packHound 15 0)) (ceilDiv g.budget0 72 + 20) * Config.tickUs

/-- The arm of a hound detector asks for ISOLATE. -/
def armIsolates (s : State) (det : Nat) : Bool := match armOf s det with
  | some (_, a) => a.isolate
  | none => false

/-- The arm of a detector clears (R339). -/
def armClear (s : State) (det : Nat) : State := match armOf s det with
  | some (a, _) => setArm s a none
  | none => s

/-- The wall time of an engine's record is past its limit (R187). -/
def houndPast (s : State) (e : Nat) : Bool := decide (houndLimit s (engine s e) < wallTicks s (engine s e))

/-- The hound of an engine is checked at a TB tick at which it holds a record: an occurrence of DET_HOUND_ENG (R187, R340). One that is past
its limit at the same check trips once, with INJ (R342). -/
def houndCheck (s : State) (e : Nat) : State :=
  match (engine s e).recd with
  | none => s
  | some r =>
    let isolate := armIsolates s 0x70
    let (s', inj) := injected s 0x70 [unitEngine e]
    if !inj then s'
    else
      let s' := recInj s' r
      if isolate || houndPast s e then engWedge (if isolate then armClear s' 0x70 else s') e 0x70 r.talker (houndDetail s' e) true
      else fire s' 0x70 (unitEngine e) r.talker (houndDetail s' e) true none

/-- ENGINE_HOUND_TRIP (R187, R188): the wall time of the record that an engine holds has passed its limit. -/
def execEngineHoundTrip (e : Fin 32) (s : State) : Host.Outcome State Fault Refusal :=
  match (engine s e.val).recd with
  | none => .next s
  | some r => .next (if ticking s && houndPast s e.val then engWedge s e.val 0x70 r.talker (houndDetail s e.val) false else s)

/-! ## Engine groups (R183 to R186) -/

/-- The scratch of the engines of a group holds 0 (R184, R185). -/
def clearScratch (s : State) (g : Nat) : State :=
  { s with scratch := s.scratch.filter (fun p => p.1 / 16384 != g) }

/-- The running command of an opcode on an engine group. -/
def groupCmd (s : State) (op g : Nat) : Option HostCmd :=
  s.host.cmds.find? fun c => cmdOp c == op && c.phase == .running && fld (cmdW c 1) 2 0 == g

/-- A group is between two states through a setting record of the boot image, which has no command to wait for: a later command on it waits
(R40, R186). -/
def groupMoving (s : State) (g : Nat) : Bool := groupState s g == 1 || groupState s g == 3

/-- ENGINE_GROUP_ONLINE (R185, R186): an offline group starts to be powered, and the scratch of its engines is 0. -/
def execEngineGroupOnline (slot : Fin 256) (s : State) : Host.Outcome State Fault Refusal :=
  match cmdReady s slot.val 0x23 with
  | none => .next s
  | some c =>
    let g := fld (cmdW c 1) 2 0
    if groupMoving s g then .next s
    else if groupState s g == 0 then
      .next (setCmd (clearScratch (setGroup s g 1) g) slot.val (fun c => { c with phase := .running }))
    else .next (finish s slot.val stDone 0 0)

/-- GROUP_POWERED (R185): a powered group enters ONLINE. -/
def execGroupPowered (g : Fin 8) (s : State) : Host.Outcome State Fault Refusal :=
  let g := g.val
  if alive s && groupState s g == 1 then
    let s := setGroup s g 2
    let added := ((List.range 4).filter fun k => !(engine s (4 * g + k)).wedged).length
    match groupCmd s 0x23 g with
    | some c => .next (finish s c.slot stDone added 0)
    | none => .next s
  else .next s

/-- An online group starts to drain (R184). -/
def groupOffline (s : State) (slot g : Nat) : State :=
  if groupState s g == 2 then
    let s := setGroup s g 3
    let s := setPack s { s.pack with groupEnded := sset 0 s.pack.groupEnded g 0 }
    setCmd s slot (fun c => { c with phase := .running })
  else finish s slot stDone 0 0

/-- ENGINE_GROUP_OFFLINE (R184). -/
def execEngineGroupOffline (slot : Fin 256) (s : State) : Host.Outcome State Fault Refusal :=
  match cmdReady s slot.val 0x24 with
  | none => .next s
  | some c =>
    let g := fld (cmdW c 1) 2 0
    .next (if groupMoving s g then s else groupOffline s slot.val g)

/-- GROUP_DRAINED (R184): no engine of a draining group holds a record, and its power goes. -/
def execGroupDrained (g : Fin 8) (s : State) : Host.Outcome State Fault Refusal :=
  let g := g.val
  if alive s && groupState s g == 3 && (List.range 4).all (fun k => !engBusy s (4 * g + k)) then
    let n := sget 0 s.pack.groupEnded g
    let s := clearScratch (setGroup s g 0) g
    match groupCmd s 0x24 g with
    | some c => .next (finish s c.slot stDone n 0)
    | none => .next s
  else .next s

/-! ## Bank swaps (R181) -/

/-- Some engine runs a record on the bank that is not active. -/
def oldBankBusy (s : State) : Bool := (List.range 32).any fun e => engBusy s e && (engine s e).bank != s.pack.active

/-- BANK_SWAP (R181): the swap point; with no record on the old bank it completes there. -/
def execBankSwap (slot : Fin 256) (s : State) : Host.Outcome State Fault Refusal :=
  match cmdReady s slot.val 0x11 with
  | none => .next s
  | some _ =>
    let s := setPack s { s.pack with active := 1 - s.pack.active }
    if oldBankBusy s then
      let s := setPack s { s.pack with swapEnded := some 0 }
      .next (setCmd s slot.val (fun c => { c with phase := .running }))
    else .next (finish s slot.val stDone s.pack.active 0)

/-- BANK_SWAP_DRAINED (R181): the last record dispatched on the old bank has ended. -/
def execBankSwapDrained (s : State) : Host.Outcome State Fault Refusal :=
  match s.pack.swapEnded with
  | none => .next s
  | some n =>
    if oldBankBusy s then .next s
    else
      let s := setPack s { s.pack with swapEnded := none }
      match s.host.cmds.find? (fun c => cmdOp c == 0x11 && c.phase == .running) with
      | some c => .next (finish s c.slot stDone s.pack.active n)
      | none => .next s

end Sys2Proof.Machine
end

