-- ==== Sys2Proof/Machine/Loads.lean ====
section
/-! DEFINITION. Writing the program banks and the tables: LOAD_PROGRAM, TABLE_WRITE, TABLE_READ, QUOTA_SET
(02_host_interface.md R47 to R49, 07_intake_talkers.md R161, R162, R166, 08_pack_engines.md R177 to R180, 10_listeners_output.md R229,
R241). -/

namespace Sys2Proof.Machine

/-! ## Reads of the flash (R47, R179) -/

/-- The read of flash that starts at an offset does not cross a 4 KiB page (log 42). -/
def flashChunk (off len : Nat) : Nat := min len (4096 - off % 4096)

/-- The command in a slot has an operation of the flash outstanding: 0 read, 1 program, 2 erase. -/
def flashOut (s : State) (slot op off : Nat) (bytes : List Byte) (len rest : Nat) : State :=
  emit (setCmd s slot (fun c => { c with phase := .running, flash := true, fetch := some ⟨off, len, rest⟩ })) (.flash op off bytes len)

/-- The command in a slot starts to read the flash. -/
def flashStart (s : State) (slot off len : Nat) : State := flashOut s slot 0 off [] (flashChunk off len) (len - flashChunk off len)

/-- The command in a slot holds its bytes behind those it has. -/
def gotBytes (s : State) (slot : Nat) (bs : List Byte) : State := setCmd s slot (fun c => { c with got := c.got ++ bs })

/-! ## Banks (R177 to R180) -/

/-- The bank that commands write (R177). -/
def idleBank (s : State) : Nat := 1 - s.pack.active

/-- A bank is written: copies made from it can no longer be rebuilt (R334). -/
def bankTouched (s : State) (bank : Nat) : State :=
  { s with pack := { s.pack with loads := sset 0 s.pack.loads bank (sget 0 s.pack.loads bank + 1) } }

/-- Entries of a table of R48 and their length in bytes; the second is 0 for an unknown table. -/
def tableSize (id : Nat) : Nat × Nat :=
  if id == 0 then (512, 4) else if id == 1 then (1024, 32) else if id == 2 then (512, 128) else if id == 3 then (4096, 64)
  else if id == 4 then (4096, 64) else (0, 0)

/-- The memory of a table of R48. -/
def tableMem (id : Nat) : Mem :=
  if id == 0 then .routes else if id == 1 then .lsts else if id == 2 then .sets else if id == 3 then .talkers else .slots

/-- A field of the header of a program image (R178). -/
def imgF (h : Nat → Word) (k hi lo : Nat) : Nat := fld (h k) hi lo

/-- Bytes of the image that a header describes: the header, code, pool, and the three table sections (R178). -/
def imageLen (h : Nat → Word) : Nat :=
  64 + 4 * imgF h 2 15 0 + 4 * imgF h 3 15 0 + 4 * imgF h 4 31 16 + 32 * imgF h 5 31 16 + 128 * imgF h 6 31 16

/-- A table section runs past the end of its table; one without entries does not (log 153). -/
def sectionPast (h : Nat → Word) (k id : Nat) : Bool :=
  imgF h k 31 16 != 0 && decide ((tableSize id).1 < imgF h k 15 0 + imgF h k 31 16)

/-- The header of a program image fails a check of step 2 of R179. -/
def imageBad (h : Nat → Word) (len : Nat) : Bool :=
  h 0 != 0x4E594D31#32 || imgF h 1 15 0 != 1 || imgF h 2 15 0 == 0 || decide (32768 < imgF h 2 15 0)
    || decide (32768 < imgF h 2 15 0 + imgF h 3 15 0) || sectionPast h 4 0 || sectionPast h 5 1 || sectionPast h 6 2
    || decide (len < imageLen h)

/-- Step 3 of R179: every program word of the bank is 0xFFFF_FFFF; the entries of its tables no longer count as loaded (R336). No
source is recorded until step 5. -/
def loadBegin (s : State) (bank : Nat) (h : Nat → Word) : State :=
  let s := { s with prog := s.prog.filter (fun e => e.1 / 32768 != bank) }
  let other (e : Nat × Nat) : Bool :=
    let m := memOfStore (e.1 / 65536)
    e.1 % 65536 * entryWords m / memBank m != bank
  let s := bankTouched (setPack s { s.pack with marks := s.pack.marks.filter other }) bank
  let s := setReg s (Reg.bankSize bank) (BitVec.ofNat 32 (imgF h 3 15 0 * 65536 + imgF h 2 15 0))
  setReg (setReg (setReg s (Reg.bankSrc bank) 0) (Reg.bankSrcLo bank) 0) (Reg.bankSrcHi bank) 0

/-- Where word j behind the header of an image goes: a memory, an address, and the byte offset in the image of its table entry. -/
def imagePlace (bank : Nat) (h : Nat → Word) (j : Nat) : Mem × Nat × Option Nat :=
  let p := imgF h 2 15 0 + imgF h 3 15 0
  let r := p + imgF h 4 31 16
  let l := r + 8 * imgF h 5 31 16
  if j < p then (.prog, 32768 * bank + j, none)
  else if j < r then (.routes, 512 * bank + imgF h 4 15 0 + (j - p), some (64 + 4 * j))
  else if j < l then (.lsts, 8192 * bank + 8 * imgF h 5 15 0 + (j - r), some (64 + 4 * (j - (j - r) % 8)))
  else (.sets, 16384 * bank + 32 * imgF h 6 15 0 + (j - l), some (64 + 4 * (j - (j - l) % 32)))

/-- A word of an image is written (step 4 of R179), and a table entry is marked with its place in the image (R336). -/
def loadWord (s : State) (bank : Nat) (h : Nat → Word) (j : Nat) (w : Word) : State :=
  let (m, a, entry) := imagePlace bank h j
  let s := memPut s m a w
  match entry with
  | none => s
  | some off => setPack s { s.pack with marks := sset 0 s.pack.marks (markKey m a) (off + 1) }

/-- Words of an image are written in ascending order. -/
def loadWords (s : State) (bank : Nat) (h : Nat → Word) : Nat → List Word → State
  | _, [] => s
  | j, w :: ws => loadWords (loadWord s bank h j w) bank h (j + 1) ws

/-- Step 5 of R179: the source is recorded. -/
def loadSource (s : State) (bank : Nat) (flash : Bool) (addr : Nat) : State :=
  let s := setReg s (Reg.bankSrc bank) (BitVec.ofNat 32 (2 ^ 31 + b2n flash * 2 ^ 30))
  setReg (setReg s (Reg.bankSrcLo bank) (BitVec.ofNat 32 addr)) (Reg.bankSrcHi bank) (BitVec.ofNat 32 (addr / 2 ^ 32))

/-- Code words and pool words among the first n words behind the header. -/
def loadedCounts (h : Nat → Word) (n : Nat) : Nat × Nat := (min n (imgF h 2 15 0), min (n - imgF h 2 15 0) (imgF h 3 15 0))

/-! ## LOAD_PROGRAM (R179, R180) -/

/-- The source of a LOAD_PROGRAM is the flash. -/
def loadFlash (c : HostCmd) : Bool := bit (cmdW c 1) 0

/-- The address of byte 0 of the image. -/
def loadAddr (c : HostCmd) : Nat := if loadFlash c then (cmdW c 2).toNat else addr64 (cmdW c 2) (cmdW c 3)

/-- Word k of the header of the image; a command keeps the header behind its own words once it has been read. -/
def loadHead (c : HostCmd) (k : Nat) : Word := cmdW c (16 + k)

/-- The header of the image has been read and passed. -/
def loadOpen (c : HostCmd) : Bool := decide (16 < c.words.length)

/-- A read of the image of a LOAD_PROGRAM has faulted (R180). -/
def loadFault (s : State) (c : HostCmd) (status : Nat) : State :=
  if loadOpen c then
    let n := loadedCounts (loadHead c) c.done
    finish (setF s (Reg.bankSrc (idleBank s)) 0 0 1) c.slot status n.1 n.2
  else finish s c.slot status 0 0

/-- A LOAD_PROGRAM goes on to read the image from a byte of it. -/
def loadRead (s : State) (c : HostCmd) (from_ len : Nat) : State :=
  if loadFlash c then flashStart s c.slot (loadAddr c + from_) len
  else sendFetch (setCmd s c.slot (fun c => { c with phase := .running })) c.slot (loadAddr c + from_) len

/-- All bytes of the header have been read (steps 1 to 3 of R179). -/
def loadHeader (s : State) (c : HostCmd) : State :=
  let ws := bytesWords 16 c.got
  let h (k : Nat) : Word := ws.getD k 0
  if imageBad h (cmdW c 4).toNat then finish s c.slot stBadParam 0 0
  else
    let s := loadBegin s (idleBank s) h
    let s := setCmd s c.slot (fun c => { c with words := (c.words ++ List.replicate 16 0).take 16 ++ ws, got := [], done := 0 })
    loadRead s c 64 (imageLen h - 64)

/-- Bytes of the image behind its header have been read: whole words are written (step 4 of R179). -/
def loadBody (s : State) (c : HostCmd) : State :=
  let n := c.got.length / 4
  let s := loadWords s (idleBank s) (loadHead c) c.done (bytesWords n c.got)
  setCmd s c.slot (fun c => { c with got := c.got.drop (4 * n), done := c.done + n })

/-- The whole image has been written (steps 5 and 6 of R179). -/
def loadEnd (s : State) (c : HostCmd) : State :=
  finish (loadSource s (idleBank s) (loadFlash c) (loadAddr c)) c.slot stDone (imgF (loadHead c) 2 15 0) (imgF (loadHead c) 3 15 0)

/-- A read of a LOAD_PROGRAM has returned its bytes, with f.rest bytes of this read still to come. -/
def loadData (s : State) (slot : Nat) (f : Fetch) : State :=
  match cmdAt s slot with
  | none => s
  | some c =>
    if !loadOpen c then
      (if f.rest == 0 then loadHeader (setCmd s slot (fun c => { c with fetch := none, flash := false })) c
       else if loadFlash c then flashStart s slot (f.addr + f.len) f.rest else nextFetch s slot f)
    else
      let s := loadBody s c
      if f.rest == 0 then loadEnd s c
      else if loadFlash c then flashStart s slot (f.addr + f.len) f.rest
      else nextFetch s slot f

/-- LOAD_PROGRAM (R179): the header is read first. A wedged flash gives a flash error. -/
def execLoadProgram (slot : Fin 256) (s : State) : Host.Outcome State Fault Refusal :=
  match cmdReady s slot.val 0x10 with
  | none => .next s
  | some c =>
    if loadFlash c then
      .next (if isWedged s unitFlash then finish s slot.val stFlashFault 0 0 else flashStart s slot.val (loadAddr c) 64)
    else .next (if dmaFree s then startFetch s slot.val (loadAddr c) 64 else s)

/-! ## Entries of tables (R48, R161, R162, R241) -/

/-- A talker entry is written from 16 words (R161, R162): a changed key, or a VALID that becomes 1, starts a new talker. The Leash of the port
that a talker leaves looks again too (R144). -/
def talkerWrite (s : State) (i : Nat) (ws : List Word) : State :=
  let w (k : Nat) : Word := ws.getD k 0
  let old := talkW s i 0
  let same := w 0 == old && w 1 == talkW s i 1 && w 2 == talkW s i 2
  let fresh := !same || (bit (w 3) 31 && !talkerValid s i)
  let learned := if fresh then 0#32 else talkW s i 3 &&& 0x10000000#32
  let s := memPuts s .talkers (16 * i)
    [w 0, w 1, w 2, (w 3 &&& 0xE000FFFF#32) ||| learned, w 4, w 5, w 6 &&& 0xFFFF#32, w 7 &&& 0x1FFFF#32]
  let s := if fresh then hear (setTalkW (setTalkW (fillBuckets s i) i 13 0) i 14 0) i else clipBuckets s i
  let left (s : State) : State := if fld old 31 28 == 0 && fld old 22 16 != fld (w 0) 22 16 then leashUpdate s (fld old 22 16) else s
  left (leashTalker s i)

/-- An entry of a table is written at one instant (R48): in a banked table its mark goes (R336). -/
def tableEntry (s : State) (id bank i : Nat) (ws : List Word) : State :=
  if id == 3 then talkerWrite s i ws
  else if id == 4 then count (memPuts s .slots (16 * i) ws) Reg.slotCounts 15 0 1
  else
    let m := tableMem id
    let a := memBank m * bank + entryWords m * i
    let s := memPuts s m a ws
    setPack s { s.pack with marks := serase s.pack.marks (markKey m a) }

/-- Entries of a table are written in ascending order from bytes; the number of entries is given. -/
def tableEntries (s : State) (id bank : Nat) : Nat → Nat → List Byte → State
  | _, 0, _ => s
  | i, n + 1, bs =>
    let len := (tableSize id).2
    tableEntries (tableEntry s id bank i (bytesWords (len / 4) bs)) id bank (i + 1) n (bs.drop len)

/-- The index range of a table command exceeds its table (R48). -/
def tableRange (id first n : Nat) : Bool := decide ((tableSize id).1 < first + n)

/-- Bytes of a TABLE_WRITE have been read: whole entries are written (R48). -/
def tableData (s : State) (slot : Nat) (f : Fetch) : State :=
  match cmdAt s slot with
  | none => s
  | some c =>
    let id := fld (cmdW c 1) 7 0
    let n := c.got.length / (tableSize id).2
    let bank := idleBank s
    let s := tableEntries s id bank ((cmdW c 2).toNat + c.done) n c.got
    let s := if id < 3 && n != 0 then bankTouched s bank else s
    let s := setCmd s slot (fun c => { c with got := c.got.drop (n * (tableSize id).2), done := c.done + n })
    if f.rest == 0 then finish s slot stDone (c.done + n) 0 else nextFetch s slot f

/-- TABLE_WRITE (R48). -/
def execTableWrite (slot : Fin 256) (s : State) : Host.Outcome State Fault Refusal :=
  match cmdReady s slot.val 0x12 with
  | none => .next s
  | some c =>
    let id := fld (cmdW c 1) 7 0
    let n := (cmdW c 3).toNat
    if tableRange id (cmdW c 2).toNat n then .next (finish s slot.val stBadParam 0 0)
    else if n == 0 then .next (finish s slot.val stDone 0 0)
    else .next (if dmaFree s then startFetch s slot.val (addr64 (cmdW c 4) (cmdW c 5)) (n * (tableSize id).2) else s)

/-- The bank whose entries a table command reads. -/
def tableBank (s : State) (w1 : Word) : Nat := if bit w1 8 then idleBank s else s.pack.active

/-- The report of a word that the host read and that failed (R35, R331). -/
def hostReport (s : State) (m : Mem) (a index : Nat) (inj : Bool) : State :=
  if memBank m == 0 then memReport s m a 9 readerHost index inj
  else memReportB s m (a / memBank m) (a % memBank m) 9 readerHost index inj

/-- n words of a memory, read for the host from an address: a failed one is returned as stored and reported (R35). -/
def hostWords (s : State) (m : Mem) (index : Nat → Nat) : Nat → Nat → State × List Word
  | _, 0 => (s, [])
  | a, n + 1 =>
    let r := memRead s m a [unitOf 11 0]
    let s := if r.failed then hostReport r.s m a (index a) r.inj else r.s
    let (s, ws) := hostWords s m index (a + 1) n
    (s, r.word :: ws)

/-- TABLE_READ (R48): the entries go to host memory. -/
def execTableRead (slot : Fin 256) (s : State) : Host.Outcome State Fault Refusal :=
  match cmdReady s slot.val 0x13 with
  | none => .next s
  | some c =>
    let id := fld (cmdW c 1) 7 0
    let first := (cmdW c 2).toNat
    let n := (cmdW c 3).toNat
    if tableRange id first n then .next (finish s slot.val stBadParam 0 0)
    else if !hostMem s then .next s
    else
      let m := tableMem id
      let per := (tableSize id).2 / 4
      let base := memBank m * tableBank s (cmdW c 1)
      let index (a : Nat) : Nat := if id == 3 || id == 4 then (a - base) / per else 0
      let (s, ws) := hostWords s m index (base + per * first) (per * n)
      .next (finish (dmaWrite s (addr64 (cmdW c 4) (cmdW c 5)) (wordsBytes ws)) slot.val stDone n 0)

/-! ## QUOTA_SET (R166, R229) -/

/-- The talker settings of kinds 0 to 2 (R166). -/
def talkerQuota (s : State) (kind i : Nat) (v : Word) : State :=
  if kind == 0 then clipBuckets (setTalkW s i 4 v) i
  else if kind == 1 then clipBuckets (setTalkW s i 5 v) i
  else leashTalker (setTalkW s i 7 (v &&& 0x1FFFF#32)) i

/-- QUOTA_SET takes effect from its words. -/
def quotaSet (s : State) (slot : Nat) (w1 w2 w3 : Word) : State :=
  let kind := fld w1 1 0
  let i := w2.toNat
  if kind == 3 then
    if 1023 < i || decide (24576 < fld w3 14 0) then finish s slot stBadParam 0 0
    else finish (setReg s (Reg.lqQuota i) (BitVec.ofNat 32 (fld w3 14 0))) slot stDone 0 0
  else if 4095 < i then finish s slot stBadParam 0 0
  else
    let s := talkerCheck s i readerHerder [] [3]
    if !talkerValid s i || (kind == 2 && decide (poolSize < fld w3 16 0)) then finish s slot stBadParam 0 0
    else finish (talkerQuota s kind i w3) slot stDone 0 0

/-- QUOTA_SET (R166, R229). -/
def execQuotaSet (slot : Fin 256) (s : State) : Host.Outcome State Fault Refusal :=
  match cmdReady s slot.val 0x25 with
  | none => .next s
  | some c => .next (quotaSet s slot.val (cmdW c 1) (cmdW c 2) (cmdW c 3))

end Sys2Proof.Machine
end

