-- ==== Sys2Proof/Machine/Flash.lean ====
section
/-! DEFINITION. The flash commands (02_host_interface.md R47, 15_integrity.md R344). The hub reads, programs and erases within one 4 KiB page
at a time (log 42). -/

namespace Sys2Proof.Machine

/-- The flash command of an opcode in a slot, when it may take effect; on a wedged flash it completes WEDGED (R344). -/
def flashCmd (s : State) (slot op : Nat) (run : HostCmd → State) : State :=
  match cmdReady s slot op with
  | none => s
  | some c => if isWedged s unitFlash then finish s slot stWedged 0 0 else run c

/-- The range of a flash command passes the end of a device whose size the hub knows from its JESD216 table (R354). -/
def flashPast (s : State) (c : HostCmd) : Bool :=
  match s.host.flashSize with
  | some n => decide (n < (cmdW c 3).toNat + (cmdW c 4).toNat)
  | none => false

/-- FLASH_READ: the pages are read one after the other. -/
def execFlashRead (slot : Fin 256) (s : State) : Host.Outcome State Fault Refusal :=
  .next <| flashCmd s slot.val 0x80 fun c =>
    if cmdW c 4 == 0 then finish s slot.val stDone 0 0 else flashStart s slot.val (cmdW c 3).toNat (cmdW c 4).toNat

/-- Bytes of the page that a FLASH_WRITE works on, from the bytes it has written. -/
def flashPage (c : HostCmd) : Nat := flashChunk ((cmdW c 3).toNat + c.done) ((cmdW c 4).toNat - c.done)

/-- FLASH_WRITE reads the bytes of its next page from host memory, or is done. The pages done are counted in aux. -/
def flashWriteNext (s : State) (slot : Nat) : State :=
  match cmdAt s slot with
  | none => s
  | some c =>
    if (cmdW c 4).toNat ≤ c.done then finish s slot stDone c.aux 0
    else
      let s := setCmd s slot (fun c => { c with phase := .running, flash := false, got := [] })
      sendFetch s slot (addr64 (cmdW c 1) (cmdW c 2) + c.done) (flashPage c)

/-- FLASH_WRITE: the first page is read from host memory. -/
def execFlashWrite (slot : Fin 256) (s : State) : Host.Outcome State Fault Refusal :=
  .next <| flashCmd s slot.val 0x81 fun _ => if dmaFree s then flashWriteNext s slot.val else s

/-- The bytes of a page have been read from host memory: they are programmed. -/
def flashProgram (s : State) (slot : Nat) : State :=
  match cmdAt s slot with
  | none => s
  | some c => flashOut s slot 1 ((cmdW c 3).toNat + c.done) c.got (flashPage c) 0

/-- FLASH_ERASE: the pages are erased one after the other; a range past the end of the device changes nothing (R46, log 119). -/
def execFlashErase (slot : Fin 256) (s : State) : Host.Outcome State Fault Refusal :=
  .next <| flashCmd s slot.val 0x82 fun c =>
    if flashPast s c then finish s slot.val stBadParam 0 0
    else if cmdW c 4 == 0 then finish s slot.val stDone 0 0
    else flashOut s slot.val 2 (cmdW c 3).toNat [] 4096 ((cmdW c 4).toNat - 4096)

/-- A page of a FLASH_READ has been read: it goes to host memory. -/
def flashReadEnd (s : State) (c : HostCmd) (f : Fetch) (data : List Byte) : State :=
  let s := dmaWrite s (addr64 (cmdW c 1) (cmdW c 2) + c.done) data
  if f.rest == 0 then finish s c.slot stDone (c.aux + 1) 0
  else flashStart (setCmd s c.slot (fun c => { c with done := c.done + f.len, aux := c.aux + 1 })) c.slot (f.addr + f.len) f.rest

/-- An operation of a FLASH_WRITE has ended: a page that has been programmed is read back, and one read back must be equal. The operation
in progress is a read-back when its bytes are still held and rest is 1. -/
def flashWriteEnd (s : State) (c : HostCmd) (f : Fetch) (data : List Byte) : State :=
  if f.rest == 0 then flashOut s c.slot 0 f.addr [] f.len 1
  else if data == c.got then
    flashWriteNext (setCmd s c.slot (fun c => { c with fetch := none, flash := false, done := c.done + f.len, aux := c.aux + 1 })) c.slot
  else finish s c.slot stFlashFault c.aux 0

/-- A page of a FLASH_ERASE has been erased. -/
def flashEraseEnd (s : State) (c : HostCmd) (f : Fetch) : State :=
  if f.rest == 0 then finish s c.slot stDone (c.aux + 1) 0
  else flashOut (setCmd s c.slot (fun c => { c with aux := c.aux + 1 })) c.slot 2 (f.addr + 4096) [] 4096 (f.rest - 4096)

/-- An operation of the flash ended with an error: the command stops there (R46, R180). -/
def flashFault (s : State) (c : HostCmd) : State :=
  if cmdOp c == 0x10 then loadFault s c stFlashFault else finish s c.slot stFlashFault c.aux 0

/-- What the flash operation of a command in progress gives: nothing happens while a read may not go to host memory (R30). -/
def flashEnd (s : State) (c : HostCmd) (f : Fetch) (data : List Byte) : State :=
  if cmdOp c == 0x10 then loadData (gotBytes s c.slot data) c.slot f
  else if cmdOp c == 0x80 then (if hostMem s then flashReadEnd s c f data else s)
  else if cmdOp c == 0x81 then flashWriteEnd s c f data
  else flashEraseEnd s c f

/-- A flash operation that ends with data must bring as many bytes as it read. -/
def flashFits (c : HostCmd) (f : Fetch) (data : List Byte) : Bool :=
  cmdOp c == 0x82 || (cmdOp c == 0x81 && f.rest == 0) || data.length == f.len

/-- FLASH_OPERATION_END (R47): the operation that the command in a slot has outstanding ends. -/
def execFlashOperationEnd (slot : Fin 256) (ok : Bool) (data : List Byte) (s : State) : Host.Outcome State Fault Refusal :=
  match cmdAt s slot.val with
  | none => .next s
  | some c =>
    match c.fetch with
    | none => .next s
    | some f =>
      if !(alive s && c.flash) then .next s
      else if !ok then .next (flashFault s c)
      else if flashFits c f data then .next (flashEnd s c f data)
      else .next s

end Sys2Proof.Machine
end

