-- ==== Sys2Proof/Machine/Rings.lean ====
section
/-! DEFINITION. Ring registers, moderation, unmasking and held completions (02_host_interface.md R44, R50, R58). -/

namespace Sys2Proof.Machine

/-- Log2 of units of a ring in force; before the first enable, that of CTRL. -/
def ringSizeNow (s : State) (r : Nat) : Nat :=
  if (ring s r).size == 0 then ringLog r (regF s (ringOff r + 8) 20 16) else (ring s r).size

/-- A write of CTRL of a ring (R50): a change of EN from 0 to 1 takes up the base and size, and sets HEAD, TAIL and the phase. -/
def ringCtrlWrite (s : State) (r : Nat) (v : Word) : State :=
  let was := ringEn s r
  let s := setReg s (ringOff r + 8) (v &&& 0x9F1FFFFF#32)
  if !was && bit v 31 then
    let s := setF (setF s (ringOff r + 12) 15 0 0) (ringOff r + 16) 15 0 0
    let base := (reg s (ringOff r + 4)).toNat * 2 ^ 32 + regF s (ringOff r) 31 12 * 4096
    setRing s r { ring s r with base := base, size := ringLog r (fld v 20 16), phase := true, unann := 0, firstTb := 0 }
  else s

/-- A write of HEAD of a ring (R50): the value modulo the size. -/
def ringHeadWrite (s : State) (r : Nat) (v : Word) : State := setF s (ringOff r + 12) 15 0 (fld v 15 0 % 2 ^ ringSizeNow s r)

/-- RING_ENABLE (R50): a write of CTRL. -/
def execRingEnable (r : Fin 18) (ctrl : Word) (s : State) : Host.Outcome State Fault Refusal :=
  .next (if bar0Writes s then ringCtrlWrite s r.val ctrl else s)

/-- RING_HEAD_WRITE (R50). -/
def execRingHeadWrite (r : Fin 18) (v : Word) (s : State) : Host.Outcome State Fault Refusal :=
  .next (if bar0Writes s then ringHeadWrite s r.val v else s)

/-- RING_MODERATION_TIMER (R50): MOD_TIME µs have passed since the first entry not announced. -/
def execRingModerationTimer (r : Fin 18) (s : State) : Host.Outcome State Fault Refusal :=
  let g := ring s r.val
  let us := regF s (ringOff r.val + 8) 7 0
  if ticking s && g.unann != 0 && us != 0 && decide (us * Config.tickUs ≤ sinceTb s g.firstTb) then .next (ringMessage s r.val)
  else .next s

/-- The pending message of a vector is issued, where it may be (R58, R30). -/
def messageNow (s : State) (v : Nat) : State :=
  if regB s Reg.msixPba v && s.host.msix && hostMem s && !regB s (Reg.msixTable v 3) 0 then
    message (setF s Reg.msixPba v v 0) v
  else s

/-- A write of the vector control word of a vector (R58): an unmasked vector with its pending bit set issues one message. -/
def vectorControl (s : State) (v : Nat) (val : Word) : State := messageNow (setReg s (Reg.msixTable v 3) val) v

/-- MSIX_UNMASK (R58). -/
def execMsixUnmask (v : Fin 32) (s : State) : Host.Outcome State Fault Refusal :=
  .next (if bar0Writes s then vectorControl s v.val (setFld (reg s (Reg.msixTable v.val 3)) 0 0 0) else s)

/-- Held completions are written in finishing order while there is room (R44). -/
def flushHeld : Nat → State → State
  | 0, s => s
  | n + 1, s =>
    match s.host.held with
    | [] => s
    | c :: cs =>
      if ringRoom s 0 1 then flushHeld n (writeCompletion { s with host := { s.host with held := cs } } c) else s

/-- The message of a SLEEP_ENTER whose completion was held is issued now, when it is held no more (R361). -/
def entryMark (s : State) : State :=
  match s.power.entrySlot with
  | none => s
  | some k =>
    if s.host.held.any (fun c => c.slot == k) then s
    else { s with power := { s.power with entryTb := s.time.tb, entrySlot := none } }

/-- HELD_COMPLETION_FLUSH (R44). -/
def execHeldCompletionFlush (s : State) : Host.Outcome State Fault Refusal :=
  if !alive s || s.host.held.isEmpty then .next s else .next (entryMark (flushHeld s.host.held.length s))

end Sys2Proof.Machine
end

