-- ==== Sys2Proof/Machine/Bridge.lean ====
section
/-! DEFINITION. The cabinet bus bridge (13_cabinet_bus.md): windows, posted writes, reads, the locked sequence, prefetch, far
masters, interrupt lines, the error log. -/

namespace Sys2Proof.Machine

/-- The bridge changes. -/
def setBridge (s : State) (b : Bridge) : State := { s with bridge := b }

/-- CB_CTRL.EN, on a bridge that is not wedged (R344). -/
def bridgeEn (s : State) : Bool := alive s && regB s Reg.cbCtrl 31 && !isWedged s (unitOf 9 0x20)

/-- Far addresses are 24 bits (R293). -/
def farMod : Nat := 2 ^ 24

/-! ## Windows (R290, R293 to R295) -/

/-- SIZE of a window in effect. -/
def fwSize (s : State) (w : Nat) : Nat := 2 ^ regClamp s (Reg.cbFwCtrl w) 20 16 12 24

/-- The first BAR4 offset of a window: its low SIZE bits are taken as 0. -/
def fwBase (s : State) (w : Nat) : Nat := (reg s (Reg.cbFwBar w)).toNat % 2 ^ 24 / fwSize s w * fwSize s w

/-- TIMEOUT of a window in effect, in µs. -/
def fwTimeout (s : State) (w : Nat) : Nat := max 1 (regF s (Reg.cbFwCtrl w) 9 0)

/-- The far address that a BAR4 offset reaches through a window. -/
def fwFar (s : State) (w off : Nat) : Nat := (regF s (Reg.cbFwFar w) 23 12 * 4096 + (off - fwBase s w)) % farMod

/-- The lowest-numbered enabled window that covers a whole access (log 22). -/
def windowOf (s : State) (off len : Nat) : Option Nat :=
  (List.range 8).find? fun w =>
    regB s (Reg.cbFwCtrl w) 31 && decide (fwBase s w ≤ off) && decide (off + len ≤ fwBase s w + fwSize s w)

/-- The window that serves an access (R294). -/
def served (s : State) (off len : Nat) : Option Nat :=
  if bridgeEn s && decide (1 ≤ len) && decide (len ≤ 64) then windowOf s off len else none

/-- The byte at address a travels on D[15:8] (R290): odd in little order, even in big order. -/
def highLane (big : Bool) (a : Nat) : Bool := if big then a % 2 == 0 else a % 2 == 1

/-- Strobes of the far word at an even address, for its enabled bytes: bit 0 DS_N[0], bit 1 DS_N[1]. -/
def strobesOf (big even odd : Bool) : Nat :=
  if big then b2n odd + 2 * b2n even else b2n even + 2 * b2n odd

/-- Data of a far word from its bytes at the even and the odd address. -/
def laneData (big : Bool) (even odd : Byte) : Nat :=
  if big then even.toNat * 256 + odd.toNat else odd.toNat * 256 + even.toNat

/-- The far words of an access of n bytes at a far address, as offsets of their even byte from the access's even start. -/
def farWords (far n : Nat) : List Nat := (List.range ((far % 2 + n + 1) / 2)).map (2 * ·)

/-- The byte of an access at an offset from its even start. -/
def accessByte {α : Type} (far : Nat) (bs : List (Option α)) (k : Nat) : Option α :=
  if far % 2 ≤ k then (bs[k - far % 2]?).join else none

/-- The write cycles of an access (R295), without their sequence numbers and ticks. -/
def writeCycles (big : Bool) (w timeout far : Nat) (bs : List (Option Byte)) : List WriteCycle :=
  (farWords far bs.length).filterMap fun k =>
    let e := accessByte far bs k
    let o := accessByte far bs (k + 1)
    if e.isNone && o.isNone then none
    else
      let a := (far - far % 2 + k) % farMod
      some ⟨0, w, if e.isNone then a + 1 else a, strobesOf big e.isSome o.isSome, laneData big (e.getD 0) (o.getD 0), timeout, 0⟩

/-- The read cycles of an access, for the bytes still wanted. -/
def readCycles (big : Bool) (far : Nat) (want : List Bool) : List ReadCycle :=
  let bs := want.map fun b => if b then some () else none
  (farWords far want.length).filterMap fun k =>
    let e := accessByte far bs k
    let o := accessByte far bs (k + 1)
    if e.isNone && o.isNone then none
    else
      let a := (far - far % 2 + k) % farMod
      some ⟨if e.isNone then a + 1 else a, strobesOf big e.isSome o.isSome⟩

/-! ## Log and reports (R306) -/

/-- The unit of a bridge entry: class 9 with the window, or 0x20. -/
def unitWindow (w : Nat) : Nat := unitOf 9 (if w == 0xF then 0x20 else w)

/-- A failure is written into the log and reported, and counted for its window (R292, R297, R298, R306). -/
def bridgeFail (s : State) (kind op w strobes addr data seq : Nat) (inj : Bool) : State :=
  let i := regF s Reg.cbLogStatus 19 16
  let s := if regB s (Reg.cbLog i 0) 31 then count s Reg.cbLogStatus 31 24 1
    else setF s Reg.cbLogStatus 4 0 (regF s Reg.cbLogStatus 4 0 + 1)
  let w0 := 2 ^ 31 + kind * 2 ^ 28 + op * 2 ^ 25 + b2n inj * 2 ^ 24 + w * 65536 + strobes * 256
  let ws : List Word := [BitVec.ofNat 32 w0, BitVec.ofNat 32 addr, BitVec.ofNat 32 data, BitVec.ofNat 32 seq,
    shortSec (now s), shortNs (now s), 0, 0]
  let s := (List.range 8).foldl (fun s j => setReg s (Reg.cbLog i j) (ws.getD j 0)) s
  let s := setF s Reg.cbLogStatus 19 16 ((i + 1) % 16)
  let berr := kind == 1 || kind == 2
  let s := if w < 8 then (if berr then count s (Reg.cbFwFaults w) 15 0 1 else count s (Reg.cbFwFaults w) 31 16 1) else s
  let det := if berr then 0x59 else 0x58
  let limit := if kind == 4 then none else some (limitKey det (unitWindow w) 0)
  fire s det (unitWindow w) (addr + i * 2 ^ 24) seq inj limit

/-! ## Prefetch lines (R300) -/

/-- Words of a prefetch line are discarded: counted, the first address held, and reported. -/
def prefDiscard (s : State) (w n addr : Nat) (inj : Bool) : State :=
  if n == 0 then s
  else
    let s := count s (Reg.cbFwPrefDiscard w) 31 0 n
    let s := if regB s (Reg.cbFwPrefAddr w) 31 then s else setReg s (Reg.cbFwPrefAddr w) (BitVec.ofNat 32 (2 ^ 31 + addr))
    fire s 0x5A (unitWindow w) 0 0 inj (some (limitKey 0x5A (unitWindow w) 0))

/-- The prefetch line of a window. -/
def prefLine (s : State) (w : Nat) : Option PrefLine := sget none s.bridge.lines w

/-- The prefetch line of a window changes. -/
def setLine (s : State) (w : Nat) (l : Option PrefLine) : State :=
  setBridge s { s.bridge with lines := sset none s.bridge.lines w l }

/-- The words of a line that were not delivered, as (count, far address of the first). -/
def undelivered (l : PrefLine) : Nat × Nat :=
  let js := (List.range l.words.length).filter fun j => !(l.words.getD j (0, true)).2
  (js.length, l.addr + 2 * js.headD 0)

/-- A window's prefetch line is replaced or invalidated: its words not yet delivered are discarded, and a line being fetched is
discarded as its words arrive (R300). A prefetch still owed after a read stays owed. -/
def prefInvalidate (s : State) (w : Nat) (inj : Bool) : State :=
  let s := match s.bridge.pref with
    | some p =>
      if p.window == w && !p.dead then
        setBridge (prefDiscard s w p.words.length p.addr false) { (prefDiscard s w p.words.length p.addr false).bridge with
          pref := some { p with dead := true } }
      else s
    | none => s
  match prefLine s w with
  | none => s
  | some l => prefDiscard (setLine s w none) w (undelivered l).1 (undelivered l).2 inj

/-- The enabled bytes of a read that the line of its window holds, by offset in the access; their words count as delivered. -/
def prefServe (s : State) (w : Nat) (big : Bool) (far : Nat) (enables : List Bool) : State × SMap Byte :=
  match prefLine s w with
  | none => (s, [])
  | some l =>
    let hits := (List.range enables.length).filter fun i =>
      enables.getD i false && decide (l.addr ≤ (far + i) % farMod) && decide ((far + i) % farMod < l.addr + 16)
    let byteAt (i : Nat) : Byte :=
      let a := (far + i) % farMod
      let d := (l.words.getD ((a - l.addr) / 2) (0, true)).1
      BitVec.ofNat 8 (if highLane big a then d / 256 else d)
    let got := hits.foldl (fun m i => sinsert m i (byteAt i)) []
    let mark (ws : List (Nat × Bool)) (i : Nat) : List (Nat × Bool) :=
      let j := ((far + i) % farMod - l.addr) / 2
      ws.set j ((ws.getD j (0, true)).1, true)
    (setLine s w (some { l with words := hits.foldl mark l.words }), got)

/-! ## Host work and arbitration (R301, R304) -/

/-- Posted writes, reads or a locked sequence wait. -/
def hostWaits (s : State) : Bool := !s.bridge.posted.isEmpty || !s.bridge.reads.isEmpty || s.bridge.rmw.isSome

/-- Host work, prefetches included. -/
def hostWork (s : State) : Bool := hostWaits s || s.bridge.pref.isSome

/-- The ticks at which the host work that waits began to wait. -/
def workTbs (b : Bridge) : List Nat :=
  b.posted.map (·.tb) ++ b.reads.map (·.startTb) ++ (match b.rmw with | some r => [r.tb] | none => [])

/-- The host work that waits longest for a far master has waited since this tick (R304): since it came, or since the grant. -/
def waitFrom (b : Bridge) : Option Nat :=
  match b.grantTb, minBy id (workTbs b) with
  | some g, some t => some (max g t)
  | _, _ => none

/-- Host work begins or ends to wait for a far master, and the hold of R304 ends when it is done. -/
def bridgeWait (s : State) : State :=
  let b := { s.bridge with waitTb := waitFrom s.bridge }
  setBridge s (if hostWaits s then b else { b with hostFirst := false })

/-- CB_LOCK_N is asserted: a locked sequence has begun, and its read is on the bus, or is to run again, or has ended (R299). -/
def lockHeld (b : Bridge) : Bool :=
  (match b.rmw with | some r => r.old.isSome | none => false) || (match b.cycle with | some .rmwRead => true | _ => false)

/-- The bridge has the bus to give: no cycle is on it, though one may be waiting to run again after a retry (R292). -/
def busIdle (b : Bridge) : Bool := b.cycle.isNone || b.retryTb.isSome

/-- The far master is granted the bus where R301 and R304 allow. -/
def tryGrant (s : State) : State :=
  let b := s.bridge
  let fair := max 1 (regF s Reg.cbCtrl 30 24)
  if bridgeEn s && b.breq && b.grantTb.isNone && busIdle b && !lockHeld b && !b.hostFirst
      && (!hostWork s || decide (fair ≤ b.hostCycles)) then
    let b := { b with grantTb := some s.time.tb, hostCycles := 0, holdSaid := false }
    bridgeWait (emit (setBridge s b) (.farGrant true))
  else s

/-! ## Ends of accesses -/

/-- The reply of a BAR4 read: its enabled bytes, 0xFF where none was read (R298). -/
def readReply (s : State) (r : FarHostRead) : State :=
  let bs := ((List.range r.enables.length).filter (fun i => r.enables.getD i false)).map fun i => sget 0xFF#8 r.got i
  let s := emit s (.readReply 4 r.off bs)
  if r.pref then
    let line := (r.far + r.enables.length + 15) / 16 * 16 % farMod
    setBridge s { s.bridge with prefWant := s.bridge.prefWant ++ [(r.window, line)] }
  else s

/-- A read ends before its cycles have all run (R298): 0xFF from the cycle at a far address on. -/
def cutRead (r : FarHostRead) (addr : Nat) : FarHostRead :=
  { r with cycles := [], got := r.got.filter fun e => decide (e.1 < (addr + farMod - r.far) % farMod) }

/-- Reads at the head that have nothing left to do complete. -/
def settleReads : Nat → State → State
  | 0, s => s
  | n + 1, s =>
    match s.bridge.reads with
    | [] => s
    | r :: rs =>
      if r.after == 0 && r.cycles.isEmpty then settleReads n (readReply (setBridge s { s.bridge with reads := rs }) r) else s

/-- A fence completes: the cycles finished and failed since the last one (R305). -/
def fenceEnd (s : State) (slot : Nat) : State :=
  let b := s.bridge
  let n := b.finished - b.fenceDone
  let at_ := if n == 0 then now s else b.lastEnd
  let s := setBridge s { b with fenceDone := b.finished, fenceFailed := b.failed }
  finishAt s slot stDone (b.failed - b.fenceFailed) n at_

/-- A FAR_RMW_LOCKED accepted before CB_CTRL.EN was cleared and not begun by then fails (R308); done says so until it completes. -/
def rmwDoomed (c : HostCmd) : Bool := cmdOp c == 0x50 && c.phase == .accepted && c.done == 1

/-- Commands of the bridge that have nothing left to wait for complete, in accept order (R40, R305, R308). -/
def settleBridge : Nat → State → State
  | 0, s => s
  | n + 1, s =>
    match s.host.cmds.find? (fun c => cmdOp c == 0x50 || cmdOp c == 0x51) with
    | none => s
    | some c =>
      if rmwDoomed c then settleBridge n (finish s c.slot stFarFault 0xFFFF 0)
      else if cmdOp c == 0x51 && c.phase == .running && c.aux == 0 then settleBridge n (fenceEnd s c.slot)
      else s

/-- A posted write cycle has finished (R297, R305): everything that waited for it waits for one less. -/
def writeDone (s : State) (ok : Bool) : State :=
  let b := s.bridge
  let dec (r : FarHostRead) : FarHostRead := { r with after := r.after - 1 }
  let b := { b with posted := b.posted.drop 1, finished := b.finished + 1, failed := b.failed + b2n (!ok), reads := b.reads.map dec }
  let b := { b with rmw := b.rmw.map (fun r => { r with after := r.after - 1 }), lastEnd := now s }
  let s := setBridge s b
  let bump (c : HostCmd) : HostCmd := if cmdOp c == 0x50 || cmdOp c == 0x51 then { c with aux := c.aux - 1 } else c
  settleBridge s.host.cmds.length { s with host := { s.host with cmds := s.host.cmds.map bump } }

/-- The locked sequence ends (R299). -/
def rmwEnd (s : State) (r : FarRmw) (status res0 res1 : Nat) : State :=
  let s := finish (setBridge s { s.bridge with rmw := none }) r.slot status res0 res1
  settleBridge s.host.cmds.length s

/-- The cycle on the bus has ended with data (R291). -/
def cycleGood (s : State) (data : Nat) : State :=
  match s.bridge.cycle with
  | none => s
  | some op =>
    let s := setBridge s { s.bridge with cycle := none, retries := 0, retryTb := none }
    match op with
    | .posted _ => writeDone s true
    | .read c =>
      match s.bridge.reads with
      | [] => s
      | r :: rs =>
        let put (m : SMap Byte) (i : Nat) : SMap Byte :=
          let a := (r.far + i) % farMod
          if r.enables.getD i false && a / 2 == c.addr / 2 && !(m.any (fun e => e.1 == i)) then
            sinsert m i (BitVec.ofNat 8 (if highLane r.big a then data / 256 else data))
          else m
        let r := { r with got := (List.range r.enables.length).foldl put r.got, cycles := r.cycles.drop 1, started := true }
        let r := if bridgeEn s then r else { r with cycles := [] }
        setBridge s { s.bridge with reads := r :: rs }
    | .prefetch w _ =>
      match s.bridge.pref with
      | none => s
      | some p =>
        if p.dead then
          let s := prefDiscard s w 1 (p.addr + 2 * p.words.length) false
          let p := { p with words := p.words ++ [data] }
          setBridge s { s.bridge with pref := if 8 ≤ p.words.length then none else some p }
        else
          let p := { p with words := p.words ++ [data] }
          if 8 ≤ p.words.length then
            let s := setBridge s { s.bridge with pref := none }
            let s := setLine s w (some ⟨p.addr, p.words.map (fun d => (d, false)), s.time.tb⟩)
            let (s, inj) := injected s 0x5A [unitWindow w]
            if inj then prefInvalidate s w true else s
          else setBridge s { s.bridge with pref := some p }
    | .rmwRead =>
      match s.bridge.rmw with
      | none => s
      | some r =>
        if bridgeEn s then
          let seq := s.bridge.nextSeq
          let next := if seq + 1 == 2 ^ 32 then 1 else seq + 1
          setBridge s { s.bridge with rmw := some { r with old := some data, seq := seq }, nextSeq := next }
        else rmwEnd s r stFarFault 0xFFFF 0
    | .rmwWrite =>
      match s.bridge.rmw with
      | none => s
      | some r =>
        let old := r.old.getD 0
        let s := setBridge s { s.bridge with finished := s.bridge.finished + 1, lastEnd := now s }
        rmwEnd s r stDone old ((old &&& r.andMask) ||| r.orMask)

/-- What the log and the report name for a cycle: op, window, strobes, far address, data, sequence number. -/
def cycleNames (s : State) (op : CycleOp) : Nat × Nat × Nat × Nat × Nat × Nat :=
  match op with
  | .posted w => (0, w.window, w.strobes, w.addr, w.data, w.seq)
  | .read c => (1, (s.bridge.reads.head?.map (·.window)).getD 0xF, c.strobes, c.addr, 0, 0)
  | .prefetch w c => (2, w, c.strobes, c.addr, 0, 0)
  | .rmwRead => (3, 0xF, 3, (s.bridge.rmw.map (·.addr)).getD 0, 0, 0)
  | .rmwWrite =>
    match s.bridge.rmw with
    | some r => (4, 0xF, 3, r.addr, (r.old.getD 0 &&& r.andMask) ||| r.orMask, r.seq)
    | none => (4, 0xF, 3, 0, 0, 0)

/-- The cycle on the bus has failed (R292, R297 to R300). -/
def cycleBad (s : State) (kind : Nat) (inj : Bool) : State :=
  match s.bridge.cycle with
  | none => s
  | some op =>
    let (o, w, st, a, d, q) := cycleNames s op
    let s := bridgeFail s kind o w st a d q inj
    let s := setBridge s { s.bridge with cycle := none, retries := 0, retryTb := none }
    match op with
    | .posted _ => writeDone s false
    | .read _ =>
      match s.bridge.reads with
      | [] => s
      | r :: rs => setBridge s { s.bridge with reads := cutRead r a :: rs }
    | .prefetch w _ =>
      match s.bridge.pref with
      | none => s
      | some p =>
        let s := setBridge s { s.bridge with pref := none }
        if p.dead then s else prefDiscard s w p.words.length p.addr false
    | .rmwRead =>
      match s.bridge.rmw with
      | none => s
      | some r => rmwEnd s r stFarFault 0xFFFF 0
    | .rmwWrite =>
      match s.bridge.rmw with
      | none => s
      | some r =>
        let old := r.old.getD 0
        let b := s.bridge
        let s := setBridge s { b with finished := b.finished + 1, failed := b.failed + 1, lastEnd := now s }
        rmwEnd s r stFarFault old ((old &&& r.andMask) ||| r.orMask)

/-- What follows the end of a cycle: reads that are done complete, and the bus may be granted. -/
def afterCycle (s : State) : State := tryGrant (bridgeWait (settleReads (s.bridge.reads.length) s))

/-! ## Meanings: accesses of the host -/

/-- A BAR4 access that no window serves (R294): a read answers 0xFF for each enabled byte, a write is discarded; both count. -/
def unserved (s : State) (isWrite : Bool) (off : Nat) (enables : List Bool) : State :=
  let s := count s Reg.cbBadAccess 15 0 1
  if isWrite then s else emit s (.readReply 4 off ((enables.filter id).map fun _ => 0xFF#8))

/-- BAR4_UNSERVED_ACCESS (R294). -/
def execBar4UnservedAccess (isWrite : Bool) (off : Nat) (enables : List Bool) (s : State) : Host.Outcome State Fault Refusal :=
  if farMod < off + enables.length then .fault .outsideBar
  else if !powered s then .next s
  else if (served s off enables.length).isSome || (isWrite && postedFull s) then .next s
  else .next (unserved s isWrite off enables)

/-- BAR4_WRITE (R294 to R296, R300): a served write is posted as write cycles that take sequence numbers; it invalidates the
prefetch line of its window. While the posted queue has no room the access waits on the link and nothing happens yet. -/
def execBar4Write (off : Nat) (bytes : List (Option Byte)) (s : State) : Host.Outcome State Fault Refusal :=
  if farMod < off + bytes.length then .fault .outsideBar
  else if !powered s then .next s
  else match served s off bytes.length with
    | none => .next (if postedFull s then s else unserved s true off (bytes.map (·.isSome)))
    | some w =>
      let cs := writeCycles (regB s (Reg.cbFwCtrl w) 29) w (fwTimeout s w) (fwFar s w off) bytes
      if postedFull s || decide (128 < s.bridge.posted.length + cs.length) then .next s
      else
        let s := prefInvalidate s w false
        let give (acc : List WriteCycle × Nat) (c : WriteCycle) : List WriteCycle × Nat :=
          (acc.1 ++ [{ c with seq := acc.2, tb := s.time.tb }], if acc.2 + 1 == 2 ^ 32 then 1 else acc.2 + 1)
        let (cs, n) := cs.foldl give ([], s.bridge.nextSeq)
        .next (bridgeWait (setBridge s { s.bridge with posted := s.bridge.posted ++ cs, nextSeq := n }))

/-- BAR4_READ (R294, R295, R298, R300): bytes of the prefetch line are taken from it, the others by cycles behind the writes
posted before. -/
def execBar4Read (off : Nat) (enables : List Bool) (s : State) : Host.Outcome State Fault Refusal :=
  if farMod < off + enables.length then .fault .outsideBar
  else if !powered s then .next s
  else match served s off enables.length with
    | none => .next (unserved s false off enables)
    | some w =>
      if !enables.any id then .next (emit s (.readReply 4 off []))
      else
        let big := regB s (Reg.cbFwCtrl w) 29
        let pref := regB s (Reg.cbFwCtrl w) 30
        let far := fwFar s w off
        let (s, got) := if pref then prefServe s w big far enables else (s, [])
        let want := (List.range enables.length).map fun i => enables.getD i false && !(got.any (fun e => e.1 == i))
        let r : FarHostRead := ⟨w, big, fwTimeout s w, enables, far, off, readCycles big far want, got, s.time.tb,
          s.bridge.posted.length, false, pref⟩
        let s := setBridge s { s.bridge with reads := s.bridge.reads ++ [r] }
        .next (bridgeWait (settleReads s.bridge.reads.length s))

/-- FAR_WINDOW_WRITE (R293, R300): a window register takes a value, and the window's prefetch line is invalidated. With PREF 0 the window
owes no prefetch. -/
def farWindowWrite (s : State) (w reg_ : Nat) (val : Word) : State :=
  let s := prefInvalidate s w false
  if reg_ == 0 then
    let s := if bit val 30 then s else setBridge s { s.bridge with prefWant := s.bridge.prefWant.filter (fun x => x.1 != w) }
    setReg s (Reg.cbFwCtrl w) (val &&& 0xE01F03FF#32)
  else if reg_ == 1 then setReg s (Reg.cbFwBar w) (val &&& 0x00FFF000#32)
  else setReg s (Reg.cbFwFar w) (val &&& 0x00FFF000#32)

/-- FAR_WINDOW_WRITE. -/
def execFarWindowWrite (w : Fin 8) (reg_ : Fin 3) (val : Word) (s : State) : Host.Outcome State Fault Refusal :=
  if bar0Writes s then .next (farWindowWrite s w reg_ val) else .next s

/-! ## Meanings: cycles on the bus -/

/-- The posted write that may run next: none while a FAR_RMW_LOCKED has been accepted before it and has not ended (R299). -/
def nextPosted (s : State) : Option CycleOp :=
  if s.host.cmds.any (fun c => cmdOp c == 0x50 && c.phase == .accepted && c.aux == 0) then none
  else (s.bridge.posted.head?).map .posted

/-- What the bridge would run next (R296, R298, R299, R300): a locked sequence or a read behind the writes accepted before it, the
next posted write, or a prefetch. -/
def nextCycle (s : State) : Option CycleOp :=
  let b := s.bridge
  match b.rmw with
  | some r =>
    if r.old.isSome then some .rmwWrite
    else if r.after == 0 then some .rmwRead
    else (b.posted.head?).map .posted
  | none =>
    match b.reads with
    | r :: _ => if r.after == 0 then (r.cycles.head?).map .read else nextPosted s
    | [] =>
      match nextPosted s with
      | some w => some w
      | none => b.pref.map fun p => .prefetch p.window ⟨(p.addr + 2 * p.words.length) % farMod, 3⟩

/-- The bridge may start a cycle: it is enabled, no cycle or card retry is in progress, and it has the bus. -/
def busReady (s : State) : Bool :=
  ticking s && bridgeEn s && s.bridge.cycle.isNone && s.bridge.retryTb.isNone && s.bridge.grantTb.isNone

/-- A cycle goes onto the bus. -/
def driveCycle (s : State) (op : CycleOp) : State :=
  let (o, _, st, a, d, _) := cycleNames s op
  let b := s.bridge
  let s := setBridge s { b with cycle := some op, cycleTb := s.time.tb, hostCycles := b.hostCycles + b2n b.breq }
  emit s (.cabinet (o == 0 || o == 4) (o == 3 || o == 4) a st d)

/-- CABINET_CYCLE_START (R291, R299, R307): the next cycle starts; an injected DET_CB_TIMEOUT or DET_CB_BERR makes it fail without
running on the bus. -/
def execCabinetCycleStart (s : State) : Host.Outcome State Fault Refusal :=
  if !busReady s then .next s
  else match nextCycle s with
    | none => .next s
    | some op =>
      let (_, w, _, _, _, _) := cycleNames s op
      let (s, t) := injected s 0x58 [unitWindow w]
      let (s, e) := if t then (s, false) else injected s 0x59 [unitWindow w]
      let set := setBridge s { s.bridge with cycle := some op, cycleTb := s.time.tb }
      if t then .next (afterCycle (cycleBad set 0 true))
      else if e then .next (afterCycle (cycleBad set 1 true))
      else .next (driveCycle s op)

/-- CABINET_CYCLE_ACK (R292): DTACK alone completes the cycle, BERR alone fails it, both ask for a retry. -/
def execCabinetCycleAck (dtack berr : Bool) (data : BitVec 16) (s : State) : Host.Outcome State Fault Refusal :=
  if !(ticking s && s.bridge.cycle.isSome && s.bridge.retryTb.isNone) then .next s
  else if dtack && !berr then .next (afterCycle (cycleGood s data.toNat))
  else if berr && !dtack then .next (afterCycle (cycleBad s 1 false))
  else if dtack && berr then
    let s := count s Reg.cbRevCounts 7 0 1
    if 16 ≤ s.bridge.retries then .next (afterCycle (cycleBad s 2 false))
    else .next (tryGrant (setBridge s { s.bridge with retryTb := some s.time.tb, retries := s.bridge.retries + 1 }))
  else .next s

/-- TIMEOUT of the cycle on the bus, in µs (R292). -/
def cycleTimeout (s : State) (op : CycleOp) : Nat :=
  match op with
  | .posted w => w.timeout
  | .read _ => (s.bridge.reads.head?.map (·.timeout)).getD 1
  | .prefetch w _ => fwTimeout s w
  | .rmwRead => max 1 (regF s Reg.cbCtrl 9 0)
  | .rmwWrite => max 1 (regF s Reg.cbCtrl 9 0)

/-- CABINET_CYCLE_TIMEOUT (R292). -/
def execCabinetCycleTimeout (s : State) : Host.Outcome State Fault Refusal :=
  match s.bridge.cycle with
  | none => .next s
  | some op =>
    if ticking s && s.bridge.retryTb.isNone && decide (cycleTimeout s op * Config.tickUs ≤ sinceTb s s.bridge.cycleTb) then
      .next (afterCycle (cycleBad s 0 false))
    else .next s

/-- CARD_RETRY_WAIT_END (R292): 1 µs after a retry, the same cycle runs again, once the bridge has the bus. -/
def execCardRetryWaitEnd (s : State) : Host.Outcome State Fault Refusal :=
  match s.bridge.retryTb, s.bridge.cycle with
  | some t, some op =>
    if ticking s && s.bridge.grantTb.isNone && decide (Config.tickUs ≤ sinceTb s t)
      then .next (driveCycle (setBridge s { s.bridge with retryTb := none }) op)
    else .next s
  | _, _ => .next s

/-- The oldest read that has reached its deadline, with its place among the reads (R298). -/
def lateRead (s : State) : Option (Nat × FarHostRead) :=
  match findIdx? (fun r => decide (r.timeout * Config.tickUs ≤ sinceTb s r.startTb)) s.bridge.reads 0 with
  | none => none
  | some i => (s.bridge.reads[i]?).map fun r => (i, r)

/-- BAR4_READ_DEADLINE (R298): a read that reaches its deadline ends its cycle, if one runs, and completes with 0xFF from there; before its
first cycle it completes with 0xFF in every byte. -/
def execBar4ReadDeadline (s : State) : Host.Outcome State Fault Refusal :=
  match lateRead s with
  | none => .next s
  | some (i, r) =>
    if !ticking s then .next s
    else
      let inCycle := i == 0 && (match s.bridge.cycle with | some (.read _) => true | _ => false)
      let begun := r.started || inCycle
      let c := r.cycles.headD ⟨r.far, 0⟩
      let s := bridgeFail s 3 1 r.window c.strobes (if begun then c.addr else r.far) 0 0 false
      let b := s.bridge
      let b := if inCycle then { b with cycle := none, retries := 0, retryTb := none } else b
      let s := readReply (setBridge s { b with reads := b.reads.eraseIdx i }) (if begun then cutRead r c.addr else { r with cycles := [], got := [] })
      .next (afterCycle s)

/-- PREFETCH_LINE_READ (R300): the next far line is to be read into the prefetch line, which is replaced. -/
def execPrefetchLineRead (w : Fin 8) (s : State) : Host.Outcome State Fault Refusal :=
  let w := w.val
  match s.bridge.prefWant.find? (fun x => x.1 == w) with
  | none => .next s
  | some (_, line) =>
    if !(ticking s && bridgeEn s && s.bridge.pref.isNone && regB s (Reg.cbFwCtrl w) 30) then .next s
    else
      let s := match prefLine s w with
        | none => s
        | some l => prefDiscard (setLine s w none) w (undelivered l).1 (undelivered l).2 false
      let b := s.bridge
      .next (setBridge s { b with prefWant := b.prefWant.erase (w, line), pref := some ⟨w, line, [], false, false⟩ })

/-- PREFETCH_LINE_AGE (R300): a line 100 µs old is invalidated. -/
def execPrefetchLineAge (w : Fin 8) (s : State) : Host.Outcome State Fault Refusal :=
  match prefLine s w with
  | none => .next s
  | some l => if ticking s && decide (100 * Config.tickUs ≤ sinceTb s l.readTb) then .next (prefInvalidate s w false) else .next s

/-! ## Meanings: far masters (R301 to R304) -/

/-- FAR_BUS_REQUEST (R301). -/
def execFarBusRequest (s : State) : Host.Outcome State Fault Refusal :=
  if !bridgeEn s then .next s else .next (tryGrant (setBridge s { s.bridge with breq := true }))

/-- A far cycle waits for its answer, so that CB_AS_N is asserted (R301, R302). -/
def farWaits (b : Bridge) : Bool := b.farReads.any fun r => !r.dropped

/-- The far master gives the bus up: the grant is withdrawn; after a back-off no far master is granted until the host work is done (R301,
R304). -/
def grantEnd (s : State) : State :=
  let b := s.bridge
  let s := if b.grantTb.isSome then emit s (.farGrant false) else s
  setBridge s { b with grantTb := none, waitTb := none, backoff := false, holdSaid := false, hostFirst := b.hostFirst || (b.backoff && hostWaits s) }

/-- FAR_BUS_RELEASE (R301): CB_BREQ_N is negated; a far master whose read still waits owns the bus until that is answered. -/
def execFarBusRelease (s : State) : Host.Outcome State Fault Refusal :=
  if !s.bridge.breq then .next s
  else
    let s := setBridge s { s.bridge with breq := false }
    .next (if s.bridge.grantTb.isSome && farWaits s.bridge then s else grantEnd s)

/-- The reverse window that a far address lies in (R302). -/
def reverseWindow (s : State) (a : Nat) : Option Nat :=
  (List.range 4).find? fun h => regB s (Reg.cbHwCtrl h) 31 && regF s (Reg.cbHwCtrl h) 3 0 == a / 2 ^ 20

/-- The host address of a far address in a reverse window. -/
def reverseHost (s : State) (h a : Nat) : Nat :=
  (addr64 (reg s (Reg.cbHwHostLo h)) (reg s (Reg.cbHwHostHi h)) + a % 2 ^ 20) % 2 ^ 64

/-- The bytes of a far write in host order: both lanes, or the strobed one (R290, R302). -/
def farBytes (big : Bool) (strobes data : Nat) : List Byte :=
  let lo := BitVec.ofNat 8 data
  let hi := BitVec.ofNat 8 (data / 256)
  if strobes == 3 then (if big then [hi, lo] else [lo, hi]) else if strobes == 2 then [hi] else if strobes == 1 then [lo] else []

/-- The far writes that the reverse queue holds are issued to host memory in their order (R302). -/
def reverseIssue (s : State) : State :=
  if !hostMem s then s
  else s.bridge.reverse.foldl (fun s w => dmaWrite s w.1 w.2) (setBridge s { s.bridge with reverse := [] })

/-- At a TB tick the oldest far write of the reverse queue is issued (log 27). -/
def reverseTick (s : State) : State :=
  match s.bridge.reverse with
  | [] => s
  | w :: ws => if hostMem s then dmaWrite (setBridge s { s.bridge with reverse := ws }) w.1 w.2 else s

/-- A far cycle is answered with retry (R304). -/
def farRetry (s : State) : State := emit (count s Reg.cbRevCounts 15 8 1) (.farAck true false 0)

/-- FAR_WRITE (R302, R304): a far write in a reverse window is acknowledged and enters the reverse queue, which a TB tick takes to host
memory; during a back-off it is answered with retry; while the queue is full, and while the hub may issue no memory request, it is left
waiting. -/
def execFarWrite (addr : BitVec 24) (strobes : BitVec 2) (data : BitVec 16) (s : State) : Host.Outcome State Fault Refusal :=
  if !(bridgeEn s && s.bridge.grantTb.isSome) then .next s
  else match reverseWindow s addr.toNat with
    | none => .next s
    | some h =>
      if s.bridge.backoff then .next (farRetry s)
      else if !hostMem s || decide (32 ≤ s.bridge.reverse.length) then .next s
      else
        let w := (reverseHost s h addr.toNat, farBytes (regB s (Reg.cbHwCtrl h) 30) strobes.toNat data.toNat)
        let s := count s Reg.cbRevCounts 31 16 1
        let s := setBridge s { s.bridge with farAcked := (s.bridge.farAcked + 1) % 2 ^ 32, reverse := s.bridge.reverse ++ [w] }
        .next (emit s (.farAck false false 0))

/-- FAR_READ (R302): a far read in a reverse window becomes a host memory read, behind the far writes acknowledged before it. -/
def execFarRead (addr : BitVec 24) (strobes : BitVec 2) (s : State) : Host.Outcome State Fault Refusal :=
  if !(bridgeEn s && s.bridge.grantTb.isSome) then .next s
  else match reverseWindow s addr.toNat with
    | none => .next s
    | some h =>
      if s.bridge.backoff then .next (farRetry s)
      else
        let len := if strobes == 3#2 then 2 else 1
        let w : FarReadWait := ⟨h, addr.toNat, reverseHost s h addr.toNat, len, strobes.toNat, regB s (Reg.cbHwCtrl h) 30, false, false⟩
        let s := reverseIssue s
        .next (pumpFar (setBridge s { s.bridge with farReads := s.bridge.farReads ++ [w] }))

/-- A far read has been answered: a far master that had negated CB_BREQ_N gives the bus up, and reads that waited go out. -/
def farAnswered (s : State) : State :=
  readPump (if s.bridge.grantTb.isSome && !s.bridge.breq && !farWaits s.bridge then grantEnd s else s)

/-- FAR_READ_COMPLETION (R302, R304): the data, lowest host address in [7:0], is put on its lanes with DTACK; an error is answered
with BERR and counted; a read answered with retry, or left by a bridge disabled since, drops its data. -/
def execFarReadCompletion (data : Option (BitVec 16)) (s : State) : Host.Outcome State Fault Refusal :=
  match s.bridge.farReads with
  | [] => .next s
  | r :: rs =>
    if !r.sent then .next s
    else
      let s := setBridge s { s.bridge with farReads := rs }
      match data with
      | none =>
        let s := dmaFault s r.host
        .next (farAnswered (if r.dropped then s else emit s (.farAck false true 0)))
      | some d =>
        if r.dropped then .next (farAnswered s)
        else
          let lo := d.toNat % 256
          let hi := d.toNat / 256
          let onBus := if r.strobes == 3 then (if r.big then lo * 256 + hi else d.toNat)
            else if r.strobes == 2 then lo * 256 else lo
          .next (farAnswered (emit s (.farAck false false onBus)))

/-- Far reads that the bridge no longer answers: one whose memory read has gone out drops its data on arrival (R304, R308). -/
def farDrop (rs : List FarReadWait) : List FarReadWait := (rs.filter (·.sent)).map fun r => { r with dropped := true }

/-- HOST_WAIT_BACKOFF (R304): host work has waited HOST_WAIT µs; far cycles waiting for DTACK are answered with retry. -/
def execHostWaitBackoff (s : State) : Host.Outcome State Fault Refusal :=
  match s.bridge.waitTb with
  | none => .next s
  | some t =>
    if !(ticking s && bridgeEn s && s.bridge.grantTb.isSome && hostWaits s && !s.bridge.backoff
        && decide (max 1 (regF s Reg.cbCtrl 23 16) * Config.tickUs ≤ sinceTb s t)) then .next s
    else
      let live := s.bridge.farReads.filter (fun r => !r.dropped)
      let s := setBridge s { s.bridge with backoff := true, farReads := farDrop s.bridge.farReads }
      .next (live.foldl (fun s _ => farRetry s) s)

/-- FAR_HOLD_LIMIT (R304): the far master has kept the bus for HOLD_MAX µs: logged and reported once per hold. -/
def execFarHoldLimit (s : State) : Host.Outcome State Fault Refusal :=
  match s.bridge.grantTb with
  | none => .next s
  | some t =>
    if !(ticking s && s.bridge.backoff && !s.bridge.holdSaid
        && decide (max 1 (regF s Reg.cbHold 15 0) * Config.tickUs ≤ sinceTb s t)) then .next s
    else .next (setBridge (bridgeFail s 4 5 0xF 0 0 0 0 false) { (bridgeFail s 4 5 0xF 0 0 0 0 false).bridge with holdSaid := true })

/-! ## Meanings: interrupt lines (R303) -/

/-- Line i is asserted: its event names the far writes acknowledged so far, all of which are issued before it (R303). -/
def irqAssert (s : State) (i : Nat) : State :=
  let s := reverseIssue (setF s Reg.cbIrqCtrl (4 + i) (4 + i) 1)
  event s 1 0 (unitOf 9 (0x10 + i)) i s.bridge.farAcked false (now s)

/-- A line that is low, enabled and armed is asserted. -/
def irqJudge (s : State) (i : Nat) : State :=
  if regB s Reg.cbIrqCtrl i && regB s Reg.cbIrqCtrl (8 + i) && !regB s Reg.cbIrqCtrl (4 + i) then irqAssert s i else s

/-- FAR_CARD_INTERRUPT (R303). -/
def execFarCardInterrupt (i : Fin 4) (s : State) : Host.Outcome State Fault Refusal :=
  if !alive s then .next s else .next (irqJudge (setF s Reg.cbIrqCtrl (8 + i) (8 + i) 1) i)

/-- CB_IRQ_N_RELEASE (R303). -/
def execCbIrqNRelease (i : Fin 4) (s : State) : Host.Outcome State Fault Refusal :=
  if !alive s then .next s else .next (setF s Reg.cbIrqCtrl (8 + i) (8 + i) 0)

/-- A write to CB_IRQ_ACK (R303): each line named is armed again; one that is still low is asserted anew. -/
def irqAck (s : State) (val : Word) : State :=
  (List.range 4).foldl (fun s i =>
    if bit val i && regB s Reg.cbIrqCtrl (4 + i) then irqJudge (setF s Reg.cbIrqCtrl (4 + i) (4 + i) 0) i else s) s

/-- CB_IRQ_ACK. -/
def execCbIrqAck (val : Word) (s : State) : Host.Outcome State Fault Refusal :=
  if bar0Writes s then .next (irqAck s val) else .next s

/-- A write of CB_IRQ_CTRL: a line enabled while low is asserted. -/
def irqCtrlWrite (s : State) (val : Word) : State :=
  (List.range 4).foldl irqJudge (setF s Reg.cbIrqCtrl 3 0 (fld val 3 0))

/-! ## Meanings: log, fence, locked sequence, disable -/

/-- The log is emptied (R306). -/
def cbLogClear (s : State) : State :=
  let s := (List.range 16).foldl (fun s i => setF s (Reg.cbLog i 0) 31 31 0) s
  setF (setF s Reg.cbLogStatus 19 16 0) Reg.cbLogStatus 4 0 0

/-- CB_LOG_CLEAR. -/
def execCbLogClear (s : State) : Host.Outcome State Fault Refusal :=
  if bar0Writes s then .next (cbLogClear s) else .next s

/-- A cycle of the locked sequence is on the bus. -/
def rmwRuns (s : State) : Bool :=
  match s.bridge.cycle with
  | some .rmwRead => true
  | some .rmwWrite => true
  | _ => false

/-- Clearing CB_CTRL.EN (R308): queued write cycles are dropped, waiting reads complete with 0xFF, a locked sequence not yet started
fails, a grant is withdrawn, and no far read is answered any more (R289); the cycle in progress goes on to its end. A wedge does the same
without the counts (R344). -/
def bridgeOff (s : State) (counted : Bool) : State :=
  let b := s.bridge
  let granted := b.grantTb.isSome
  let keep := match b.cycle with | some (.posted _) => 1 | _ => 0
  let gone := b.posted.length - keep
  let s := if counted then count s Reg.cbDropped 15 0 gone else s
  let s := (List.range 8).foldl (fun s w => prefInvalidate s w false) s
  let inRead := match b.cycle with | some (.read _) => true | _ => false
  let held := if inRead then b.reads.take 1 else []
  let done := if inRead then b.reads.drop 1 else b.reads
  let b := s.bridge
  let b := { b with posted := b.posted.take keep, finished := b.finished + gone, failed := b.failed + gone, reads := held }
  let b := { b with prefWant := [], grantTb := none, waitTb := none, backoff := false, hostFirst := false, farReads := farDrop b.farReads }
  let b := { b with lastEnd := if gone == 0 then b.lastEnd else now s }
  let s := setBridge s b
  let s := done.foldl (fun s r => readReply s { r with pref := false, got := [] }) s
  let s := if granted then emit s (.farGrant false) else s
  let s := match s.bridge.rmw with
    | some r => if rmwRuns s then s else rmwEnd s r stFarFault 0xFFFF 0
    | none => s
  let left (c : HostCmd) : HostCmd :=
    if cmdOp c == 0x50 then { c with aux := min c.aux keep, done := if c.phase == .accepted then 1 else c.done }
    else if cmdOp c == 0x51 then { c with aux := min c.aux keep } else c
  settleBridge s.host.cmds.length { s with host := { s.host with cmds := s.host.cmds.map left } }

/-- A write of CB_CTRL (R308). -/
def cbCtrlWrite (s : State) (val : Word) : State :=
  let was := regB s Reg.cbCtrl 31
  let s := setReg s Reg.cbCtrl (val &&& 0xFFFF03FF#32)
  if was && !bit val 31 then bridgeOff s true else s

/-- BRIDGE_DISABLE (R308). -/
def execBridgeDisable (s : State) : Host.Outcome State Fault Refusal :=
  if bar0Writes s then .next (cbCtrlWrite s (setFld (reg s Reg.cbCtrl) 31 31 0)) else .next s

end Sys2Proof.Machine
end

