-- ==== Sys2Proof/Machine/Ownership.lean ====
section
/-! DEFINITION. Loss of endpoints: release at the end of what is in progress (16_reset_power_pairing.md R367, R230), and the panel
frame boundary, at which a panel port is released (14_repeater_panels.md R311, R326). -/

namespace Sys2Proof.Machine

/-- The KIND and number that an endpoint of R365 has as a listener endpoint; KIND 0 for an event output, which takes no copies. -/
def endpointKind (e : Nat) : Nat × Nat :=
  if e < 128 then (1, e) else if e < 136 then (2, e - 128) else if e < 140 then (3, e - 136) else if e < 148 then (0, e - 140)
  else (5, e - 148)

/-- The copies queued for an endpoint are discarded and counted (R230). -/
def flushOwner (s : State) (e : Nat) : State :=
  let (k, n) := endpointKind e
  if k == 0 then s else (flushEndpoint s k n).1

/-- A release takes place (R367). -/
def releaseNow (s : State) (e : Nat) : State := flushOwner (disown s e) e

/-- A release that waited for the end of what was in progress takes place (R367). -/
def releaseDone (s : State) (e : Nat) : State := if s.pair.releasing.contains e then releaseNow s e else s

/-- A copy, frame, pulse or panel update of the endpoint is in progress. -/
def endpointBusy (s : State) (e : Nat) : Bool :=
  if e < 128 then (sget SerialPort.init s.serial e).staged.isSome || (sget SerialPort.init s.serial e).run.isSome
  else if e < 136 then
    (sget CanPort.init s.can (e - 128)).slot.isSome || (sget CanPort.init s.can (e - 128)).attempt != .none
  else if e < 140 then (match (sget EthPort.init s.eth (e - 136)).tx with
    | some (.copy _, _, _) => true
    | _ => false)
  else if e < 148 then !(evOut s (e - 140)).active.isEmpty
  else !(panel s (e - 148)).runs.isEmpty

/-- An endpoint is to be released: at once, or at the end of what is in progress (R367). A panel port stops as at PORT_DISABLE
(R326). -/
def release (s : State) (e : Nat) : State :=
  if !s.pair.owned.contains e then s
  else if !endpointBusy s e then
    let s := releaseNow s e
    if 148 ≤ e then panelStop s (e - 148) 0 none else s
  else
    let p := s.pair
    let s := { s with pair := { p with releasing := if p.releasing.contains e then p.releasing else p.releasing ++ [e] } }
    if 148 ≤ e && (panel s (e - 148)).closing == none then setPanel s (e - 148) { panel s (e - 148) with closing := some none } else s

/-- PANEL_FRAME_BOUNDARY (R311, R318 to R323, R325, R326): settings apply, updates that have run their frames end, pending
requests start, and every running update applies its next frame. -/
def execPanelFrameBoundary (n : Fin 8) (s : State) : Host.Outcome State Fault Refusal :=
  if !panelDue s n then .next s
  else
    let s := setPanel s n { panel s n with frameMs := drainMs s + 1 }
    let s := match (panel s n).pendSet with
      | some (ws, slot) =>
        let s := setPanel (panelSettings s n ws) n { panel s n with pendSet := none }
        finish s slot stDone 0 0
      | none => s
    match (panel s n).closing with
    | some slot =>
      let (s, flushed) := if slot.isSome then flushEndpoint s 5 n else (s, 0)
      let s := panelStop s n flushed slot
      .next (releaseDone (if slot.isSome then setF s (Reg.pnCtrl n) 31 31 0 else s) (epPanel n))
    | none =>
      if !owns s (epPanel n) then .next (panelStop s n 0 none)
      else
        let p := panel s n
        let done := p.runs.filter (fun u => u.frames ≤ u.next)
        let s := setPanel s n { p with runs := p.runs.filter (fun u => u.next < u.frames) }
        let s := done.foldl panelEnd s
        let s := panelStarts s n (List.range 32)
        .next (panelMaps (panelApply s n) n)

end Sys2Proof.Machine
end

