-- ==== Sys2Proof/WellFormed.lean ====
section
/-! DEFINITION. When a command is one that can reach the hub: operands whose sizes the types leave open, held to what the spec
says of the access, the frame or the answer they stand for. The meanings are total and do not lean on these checks. -/

namespace Sys2Proof

/-- The data bytes that a data length code stands for (ISO 11898-1 as R246 names it). -/
def canLength (fdf : Bool) (dlc : BitVec 4) : Nat :=
  let n := dlc.toNat
  if n ≤ 8 then n else if fdf then [12, 16, 20, 24, 32, 48, 64].getD (n - 9) 64 else 8

/-- A CAN frame as a bus carries it (R250, ISO 11898-1 as R246 names it): an 11-bit identifier in the base format, as many data bytes as the
DLC says; a remote frame carries none and is never FD; BRS and ESI only with FDF. -/
def CanFrame.wf (f : CanFrame) : Bool :=
  (f.ide || decide (f.ident.toNat < 2048)) && (f.fdf || !(f.brs || f.esi)) && !(f.fdf && f.remote)
    && f.data.length == (if f.remote then 0 else canLength f.fdf f.dlc)

/-- What the flash returned has the size of an image (R354): a header of 64 bytes, and at most 1 048 576 bytes with what follows it. -/
def FlashRead.wf : FlashRead → Bool
  | .noTable => true
  | .copyFailed _ header => header.length == 64
  | .image _ bytes => decide (64 ≤ bytes.length) && decide (bytes.length ≤ 1048576)

/-- A BAR4 access lies in the 16 MiB of BAR4 and touches a byte (R294). -/
def bar4Fits (off len : Nat) : Bool := decide (0 < len) && decide (off + len ≤ 2 ^ 24)

/-- A well-formed command, by its constructor. -/
def Instr.wf : Instr → Bool
  | .cmdBufWrite _ k data => !data.isEmpty && decide (k.val + data.length ≤ 16)
  | .bar2Read off len => decide (0 < len) && decide (off + len ≤ 2 ^ 24)
  | .bar2Write off len => decide (0 < len) && decide (off + len ≤ 2 ^ 24)
  | .registerWrite off _ => off.toNat % 4 == 0
  | .rcRegisterRead off => off.toNat % 4 == 0
  | .bar4Write off bytes => bar4Fits off bytes.length
  | .bar4Read off enables => bar4Fits off enables.length
  | .bar4UnservedAccess _ off enables => bar4Fits off enables.length
  | .boot run => run.flash.wf
  | .calIntervalEnd _ dither => decide (dither.length ≤ 256)
  | .calHitsReached _ dither => decide (dither.length ≤ 256)
  | .canFrameReceived _ frame _ => frame.wf
  | .programRefetchDone data => (data.map fun ws => ws.length == 1).getD true
  | .dmaReadCompletion _ data => (data.map fun bs => decide (bs.length ≤ 512)).getD true
  | _ => true

end Sys2Proof
end

