-- ==== Sys2Proof/Machine/Can.lean ====
section
/-! DEFINITION. CAN ports: reception, filters, reassembly, address claims, the transmit lane, errors and bus-off
(11_can_ports.md R246 to R267). -/

namespace Sys2Proof.Machine

/-- A CAN port beside its registers. -/
def can (s : State) (n : Nat) : CanPort := sget CanPort.init s.can n

/-- A CAN port changes. -/
def setCan (s : State) (n : Nat) (v : CanPort) : State := { s with can := sset CanPort.init s.can n v }

/-- The unit of a CAN port. -/
def unitCan (n : Nat) : Nat := unitOf 1 n

/-- N2K (R253). -/
def canN2k (s : State) (n : Nat) : Bool := regB s (Reg.cnCtrl n) 28

/-- The controller takes part in bus traffic. -/
def canOn (s : State) (n : Nat) : Bool := ticking s && portEn s 1 n && !isWedged s (unitCan n)

/-! ## Stamps (R249) -/

/-- The time from this tick to the first CN clock edge at or after it, in units of 2^-16 ns: edges lie 12.5 ns apart and coincide with TB
edges every 100 ns. -/
def cnEdge (s : State) : Nat :=
  let x := 8 * ((s.time.tb + 25 - Config.cnPhase % 25) % 25)
  (ceilDiv x 25 * 25 - x) * 32768

/-- The SOF stamp of a frame whose SOF the controller sees at the first CN edge from this tick on. -/
def canSof (s : State) (n : Nat) : Edge :=
  ⟨stMove (now s) ((cnEdge s : Int) - 2048000 + sext 24 (regF s (Reg.cnAdj n) 23 0)), newestEpoch s n, s.time.steps⟩

/-- A SOF strikes a tap of a dither line of the port's region, which counts as a live hit (R78, R249); the tap is free (log 20). -/
def canHit (s : State) (n : Nat) : State :=
  let (s, w) := takeWord s
  hitRegion s n (w.toNat % 256) 1 true

/-- The SOF of a frame that another node sends counts as a hit once: not again where the hub joined it with an attempt of its own. -/
def canSofHit (s : State) (n : Nat) : State :=
  let s := if (can s n).sofHit then s else canHit s n
  setCan s n { can s n with sofHit := false }

/-- Error passive (ISO 11898-1). -/
def canPassive (v : CanPort) : Bool := decide (127 < v.tec) || decide (127 < v.recv)

/-- MODE is listen-only: the controller drives nothing (R246). -/
def canListenOnly (s : State) (n : Nat) : Bool := regF s (Reg.cnCtrl n) 30 29 == 1

/-- The data length code of so many data bytes. -/
def canDlc (n : Nat) : BitVec 4 := BitVec.ofNat 4 (if n ≤ 8 then n else 9 + [12, 16, 20, 24, 32, 48, 64].findIdx (fun k => n ≤ k))

/-- A data frame with these bytes. -/
def dataFrame (ident : BitVec 29) (ide fdf brs : Bool) (data : List Byte) : CanFrame :=
  ⟨ident, ide, fdf, brs, false, false, canDlc data.length, data⟩

/-! ## Identifiers (R253, R256, R258) -/

/-- The PGN of an extended identifier. -/
def canPgn (id : BitVec 29) : Nat :=
  let i := id.toNat
  let pf := i / 65536 % 256
  i / 2 ^ 25 % 2 * 2 ^ 17 + i / 2 ^ 24 % 2 * 2 ^ 16 + pf * 256 + (if 240 ≤ pf then i / 256 % 256 else 0)

/-- The arbitration field of a data frame as a number; the lower wins: base identifier, then SRR and IDE recessive and the extension of an
extended frame. -/
def arbKey (f : CanFrame) : Nat :=
  let i := f.ident.toNat
  if f.ide then i / 2 ^ 18 * 2 ^ 21 + 3 * 2 ^ 19 + i % 2 ^ 18 * 2 else i % 2 ^ 11 * 2 ^ 21

/-- The word in the layout of AUX0 that describes a frame (R157). -/
def canAux0 (f : CanFrame) : Nat := f.ident.toNat + b2n f.ide * 2 ^ 29 + b2n f.fdf * 2 ^ 30 + b2n f.brs * 2 ^ 31

/-- The NAME of an address, from the map or the default (R256). -/
def canName (s : State) (n a : Nat) : Nat :=
  match (can s n).claims.find? (fun c => c.1 == a) with
  | some c => c.2.1.toNat
  | none => 0xFFFFFFFFFFFFFF00 + a

/-- An address claim observed on the bus (R256). -/
def canClaim (s : State) (n : Nat) (f : CanFrame) : State :=
  if !(canN2k s n && f.ide && !f.remote && canPgn f.ident == 60928 && f.data.length == 8) then s
  else
    let a := f.ident.toNat % 256
    let name : BitVec 64 := BitVec.ofNat 64 (leNat f.data)
    let v := can s n
    let others := v.claims.filter (fun c => c.2.1 != name)
    if a == 254 then setCan s n { v with claims := others }
    else if a == 255 then s
    else
      let lost := match v.claims.find? (fun c => c.1 == a) with
        | some c => decide (c.2.1.toNat < name.toNat) && decide (sinceTb s c.2.2 ≤ 250 * Config.tickMs)
        | none => false
      if lost then s else setCan s n { v with claims := (a, name, s.time.tb) :: others.filter (fun c => c.1 != a) }

/-! ## Reception (R250 to R252) -/

/-- A filter matches a frame (R251). -/
def canMatches (s : State) (n f : Nat) (fr : CanFrame) : Bool :=
  let id := reg s (Reg.cnFltId n f)
  let mask := reg s (Reg.cnFltMask n f)
  let cfg := reg s (Reg.cnFltCfg n f)
  let ident := if fr.ide then fr.ident.toNat else fr.ident.toNat % 2 ^ 11
  let fdf := fld cfg 28 27
  bit cfg 31 && ((ident ^^^ fld id 28 0) &&& fld mask 28 0) == 0 && (!bit mask 29 || fr.ide == bit id 29)
    && (fdf == 0 || fdf == 3 || (fdf == 1 && !fr.fdf) || (fdf == 2 && fr.fdf))

/-- A frame enters a receive queue, or is lost for want of room (R252). -/
def canQueue (s : State) (n : Nat) (q0 : Bool) (f : RxFrame) : State :=
  let v := can s n
  if 32 ≤ (if q0 then v.rxq0 else v.rxq1).length then count s (Reg.cnRxLost n) 31 16 1
  else if q0 then count (setCan s n { v with rxq0 := v.rxq0 ++ [f] }) (Reg.cnRxCounts n) 31 16 1
  else count (setCan s n { v with rxq1 := v.rxq1 ++ [f] }) (Reg.cnRxCounts n) 15 0 1

/-- The lowest-numbered matching filter decides on a frame (R251). -/
def canFilter (s : State) (n : Nat) (f : RxFrame) : State :=
  match (List.range 32).find? (fun k => canMatches s n k f.frame) with
  | some k =>
    if regB s (Reg.cnFltCfg n k) 30 then count s (Reg.cnRxFiltered n) 31 0 1 else canQueue s n (!regB s (Reg.cnFltCfg n k) 29) f
  | none => if regB s (Reg.cnCtrl n) 24 then canQueue s n false f else count s (Reg.cnRxFiltered n) 31 0 1

/-! ## Errors and bus-off (R263 to R265) -/

/-- Detail word 2 of an error report: TEC and REC. -/
def canDetail (s : State) (n : Nat) : Nat := min 255 (can s n).tec * 256 + min 255 (can s n).recv

/-- The counter field and detector of an error kind. -/
def canErrField (k : Nat) : Nat → Nat × Nat × Nat := fun n =>
  if k == 0 then (Reg.cnErrCountsA n, 31, 24) else if k == 1 then (Reg.cnErrCountsA n, 23, 16)
  else if k == 2 then (Reg.cnErrCountsA n, 15, 8) else if k == 3 then (Reg.cnErrCountsA n, 7, 0) else (Reg.cnErrCountsB n, 31, 24)

/-- An error of kind k (0 bit, 1 stuff, 2 CRC, 3 form, 4 ACK) is counted and reported (R263). -/
def canReport (s : State) (n k d3 : Nat) (inj : Bool) : State :=
  let (r, hi, lo) := canErrField k n
  let u := unitCan n
  fire (count s r hi lo 1) (0x20 + k) u (canDetail s n) d3 inj (some (limitKey (0x20 + k) u 0))

/-- The checks that a frame on the bus is for the detectors of the port; an injected one reports and counts only (R340). The last
is DET_CN_STUCK. True when one was injected. -/
def canInject (s : State) (n : Nat) : Nat → State × Bool
  | 0 => (s, false)
  | k + 1 =>
    let (s, a) := canInject s n k
    let det := if k == 5 then 0x26 else 0x20 + k
    let (s, b) := injected s det [unitCan n]
    let s := if !b then s
      else if k == 5 then fire (count s (Reg.cnErrCountsB n) 15 8 1) 0x26 (unitCan n) 0 0 true none
      else canReport s n k 0 true
    (s, a || b)

/-- A frame of CAN_SEND leaves the lane's list. -/
def dropSend (s : State) (n slot : Nat) : State :=
  let v := can s n
  setCan s n { v with sends := v.sends.filter (fun x => x.slot != slot) }

/-- The copy in the listener slot, or what is left of it, is discarded by the lane (R259, R264). -/
def laneDrop (s : State) (n : Nat) : State :=
  let v := can s n
  if v.slot.isNone then s else count (setCan s n { v with slot := none }) (Reg.cnTxCounts n) 15 0 1

/-- The port enters bus-off (R264): pending frames fail, and the lane's copy is discarded. -/
def busOff (s : State) (n : Nat) (inj : Bool) : State :=
  let v := can s n
  let sends := v.sends
  let v := { v with
    mode := .busOff, tec := 256, attempt := .none, sends := [], recovering := regB s (Reg.cnCtrl n) 23, recov := 0 }
  let s := laneDrop (setCan s n v) n
  let s := fire (count s (Reg.cnErrCountsB n) 23 16 1) 0x25 (unitCan n) 0 0 inj none
  let s := sends.foldl (fun s x => finish s x.slot (if x.lateCancel then stCancelledAfter else stLinkFailed) x.attempts 0) s
  releaseDone s (epCan n)

/-- An injected DET_CN_BUSOFF puts the port into bus-off (R340). -/
def busOffMet (s : State) (n : Nat) (inj : Bool) : State := if inj && (can s n).mode != .busOff then busOff s n true else s

/-- A frame has ended on the bus: an occurrence of DET_CN_BUSOFF (R340). -/
def busOffInject (s : State) (n : Nat) : State :=
  let (s, b) := injected s 0x25 [unitCan n]
  busOffMet s n b

/-- CAN_FRAME_RECEIVED (R246, R249 to R251, R256): a valid frame whose SOF lies at this tick; it is acknowledged but in listen-only mode. -/
def execCanFrameReceived (n : Fin 8) (frame : CanFrame) (own : Bool) (s : State) : Host.Outcome State Fault Refusal :=
  let n := n.val
  let v := can s n
  if !(canOn s n && v.mode == .active) then .next s
  else
    let e := canSof s n
    let s := if own then s else canSofHit s n
    let s := if own || canListenOnly s n then s else emit s (.canAck n)
    let (s, inj) := if own then (s, false) else canInject s n 6
    let (s, off) := if own then (s, false) else injected s 0x25 [unitCan n]
    let s := if own then s else
      let v := can s n
      if v.recv == 0 then s
      else if v.recv ≤ 127 then setCan s n { v with recv := v.recv - 1 }
      else
        let (s, w) := takeWord s
        setCan s n { can s n with recv := 119 + w.toNat % 9 }
    let s := if own then s else canClaim s n frame
    let s := if frame.remote then count s (Reg.cnRxLost n) 15 8 1
      else if own && !regB s (Reg.cnCtrl n) 25 then s
      else canFilter s n ⟨frame, e, inj || off⟩
    .next (busOffMet s n off)

/-- An error adjusts TEC and REC as ISO 11898-1 defines. A transmitter adds 8 for the flag it sends, unless an exception applies: an ACK error
while error passive with no dominant bit in its flag, a stuff error in arbitration. A receiver adds 1, and 8 for a dominant first bit behind
its flag. A bit error in the hub's own active error or overload flag adds 8. Each run of 8 dominant bits behind the flag adds 8. -/
def canCount (s : State) (n k : Nat) (tx inFlag exempt : Bool) (dominant : Nat) : State :=
  let v := can s n
  let runs := 8 * (dominant / 8)
  if tx then
    let spared := exempt && (k == 1 || (k == 4 && canPassive v))
    setCan s n { v with tec := v.tec + (if spared && !inFlag then 0 else 8) + runs }
  else
    let own := if inFlag then 8 else 1 + 8 * b2n (decide (0 < dominant))
    setCan s n { v with recv := min 255 (v.recv + own + runs) }

/-- The number of an error kind. -/
def canErrNum : CanErr → Nat
  | .bit => 0
  | .stuff => 1
  | .crc => 2
  | .form => 3
  | .ack => 4

/-- CAN_ERROR (R246, R263, R264): an error of the frame on the bus, or one in the hub's own flag. What the levels on the bus decide comes with
the command. -/
def execCanError (n : Fin 8) (f : CanFault) (tx dataPhase : Bool) (s : State) : Host.Outcome State Fault Refusal :=
  let n := n.val
  if !(canOn s n && (can s n).mode == .active) then .next s
  else
    let k := canErrNum f.kind
    let s := if f.inFlag then s else if tx then setCan s n { can s n with sofHit := false } else canSofHit s n
    let s := if canListenOnly s n then s else emit s (.canErrorFlag n (!canPassive (can s n)))
    let (s, inj) := injected s (0x20 + k) [unitCan n]
    let s := canReport (canCount s n k tx f.inFlag f.exempt f.dominant) n k (b2n tx + 2 * b2n dataPhase) inj
    .next (if 255 < (can s n).tec then busOff s n false else s)

/-- Occurrences of 11 recessive bits have been counted since RECOV last showed: how many is free, and they have not reached 128
(R264, log 20). -/
def recovCount (s : State) (n : Nat) : State :=
  let v := can s n
  if !v.recovering || v.stuck then s
  else
    let (s, w) := takeWord s
    setCan s n { v with recov := v.recov + w.toNat % (128 - v.recov) }

/-- CN_RECOVER_START (R264). -/
def canRecover (s : State) (n : Nat) : State :=
  let v := can s n
  if v.mode == .busOff && !regB s (Reg.cnCtrl n) 23 && !v.recovering then setCan s n { v with recovering := true, recov := 0 } else s

/-- CN_RECOVER_START (R264): a write of 1 to CN_RECOVER.START. -/
def execCnRecoverStart (n : Fin 8) (s : State) : Host.Outcome State Fault Refusal := .next (if bar0Writes s then canRecover s n.val else s)

/-- BUS_OFF_RECOVERED (R264): 128 occurrences of 11 recessive bits. -/
def execBusOffRecovered (n : Fin 8) (s : State) : Host.Outcome State Fault Refusal :=
  let n := n.val
  let v := can s n
  if canOn s n && v.mode == .busOff && v.recovering && !v.stuck then
    .next (setCan s n { v with mode := .active, tec := 0, recv := 0, recovering := false, recov := 128 })
  else .next s

/-- CAN_STUCK (R265): RXD has been dominant for 64 bit times. -/
def execCanStuck (n : Fin 8) (s : State) : Host.Outcome State Fault Refusal :=
  let n := n.val
  let v := can s n
  if !canOn s n || v.mode == .off || v.stuck then .next s
  else
    let (s, inj) := injected s 0x26 [unitCan n]
    let s := recovCount (count s (Reg.cnErrCountsB n) 15 8 1) n
    let s := setCan s n { can s n with stuck := true }
    let s := fire s 0x26 (unitCan n) 0 0 inj none
    .next (if v.mode == .busOff then s else busOff s n false)

/-- CAN_STUCK_RELEASE (R265). -/
def execCanStuckRelease (n : Fin 8) (s : State) : Host.Outcome State Fault Refusal :=
  .next (if canOn s n then setCan s n { can s n with stuck := false } else s)

/-! ## Intake and reassembly (R252 to R255) -/

/-- A record of a port (R157, R158). -/
def canRecord (n : Nat) (stage : Option Nat) (f : CanFrame) (key frames : Nat) (fp q0 inj n2k : Bool) (first last : Edge)
    (data : List Byte) : Arrived :=
  { typ := 3, src := unitCan n, key := key, stage := stage, epoch := first.epoch, lost := false, inj := inj, charErr := false, woke := false,
    sum := 3, rxq0 := q0, first := first.stamp, last := last.stamp, aux0 := canAux0 f,
    aux1 := (if n2k then f.ident.toNat % 256 else 0) + frames * 256 + b2n fp * 65536, aux2 := if n2k then canPgn f.ident else 0,
    payload := data, steps := first.steps }

/-- The talker key of a frame (R158). -/
def canKey (s : State) (n : Nat) (f : CanFrame) (n2k : Bool) : Nat :=
  2 ^ 92 + n * 2 ^ 88 + (if n2k then canPgn f.ident * 2 ^ 64 + canName s n (f.ident.toNat % 256) else 2 ^ 87 + f.ident.toNat)

/-- One frame becomes one record. -/
def canSingle (s : State) (n : Nat) (r : RxFrame) (q0 n2k : Bool) : State :=
  admitRecord s (canRecord n none r.frame (canKey s n r.frame n2k) 1 false q0 r.inj n2k r.stamp r.stamp r.frame.data)

/-- A reassembly changes. -/
def setFp (s : State) (n r : Nat) (v : Option FastPacket) : State :=
  setCan s n { can s n with fps := sset none (can s n).fps r v }

/-- A reassembly of a port. -/
def fpAt (s : State) (n r : Nat) : Option FastPacket := sget none (can s n).fps r

/-- The open reassembly of a key: identifier [25:0] and sequence counter (R254). -/
def fpFind (s : State) (n : Nat) (ident : BitVec 29) (seq : Nat) : Option (Nat × FastPacket) :=
  (List.range 32).findSome? fun r => match fpAt s n r with
    | some f => if f.ident.toNat % 2 ^ 26 == ident.toNat % 2 ^ 26 && f.counter == seq then some (r, f) else none
    | none => none

/-- The first granule of the staging run of a reassembly (R154). -/
def fpStage (n r : Nat) : Nat := 126644 + 17 * (32 * n + r)

/-- A reassembly that holds its length goes to admission (R254). -/
def fpClose (s : State) (n r : Nat) (f : FastPacket) (last : Edge) : State :=
  if f.data.length < f.length then setFp s n r (some f)
  else
    let frame := dataFrame f.ident true false false []
    admitRecord (setFp s n r none) (canRecord n (some (fpStage n r)) frame (canKey s n frame true) f.frames true f.rxq0 f.inj true
      f.first last (f.data.take f.length))

/-- A fast-packet frame is taken in (R254, R255). -/
def fpFrame (s : State) (n : Nat) (x : RxFrame) (q0 : Bool) : State :=
  let b0 := (x.frame.data.getD 0 0).toNat
  let seq := b0 / 32
  let k := b0 % 32
  let gap (s : State) : State := count s (Reg.cnFpCounts n) 23 16 1
  if k == 0 then
    let len := (x.frame.data.getD 1 0).toNat
    if len == 0 || 223 < len then gap s
    else
      let s := match fpFind s n x.frame.ident seq with
        | some (r, _) => gap (setFp s n r none)
        | none => s
      match (List.range 32).find? (fun r => (fpAt s n r).isNone) with
      | none => count s (Reg.cnFpCounts n) 7 0 1
      | some r =>
        let f : FastPacket := {
          ident := x.frame.ident, counter := seq, rxq0 := q0, length := len, next := 1, data := x.frame.data.drop 2, first := x.stamp,
          lastTb := s.time.tb, frames := 1, inj := x.inj }
        fpClose (stagePut s (fpStage n r) [] f.data) n r f x.stamp
  else match fpFind s n x.frame.ident seq with
    | none => count s (Reg.cnFpCounts n) 15 8 1
    | some (r, f) =>
      if f.next != k then gap (setFp s n r none)
      else
        let old := f.data
        let f := { f with
          next := k + 1, data := f.data ++ x.frame.data.drop 1, lastTb := s.time.tb, frames := f.frames + 1, inj := f.inj || x.inj }
        fpClose (stagePut s (fpStage n r) old f.data) n r f x.stamp

/-- CAN_INTAKE (R252, R253): the intake takes the next frame, of RXQ0 first. -/
def execCanIntake (n : Fin 8) (s : State) : Host.Outcome State Fault Refusal :=
  let n := n.val
  let v := can s n
  let take : Option (RxFrame × Bool × CanPort) := match v.rxq0, v.rxq1 with
    | x :: xs, _ => some (x, true, { v with rxq0 := xs })
    | [], x :: xs => some (x, false, { v with rxq1 := xs })
    | [], [] => none
  match take with
  | none => .next s
  | some (x, q0, v) =>
    if !alive s then .next s
    else
      let s := setCan s n v
      let n2k := canN2k s n && x.frame.ide
      let listed := n2k && (List.range 64).any fun i =>
        regB s (Reg.cnFpPgn n i) 31 && regF s (Reg.cnFpPgn n i) 17 0 == canPgn x.frame.ident
      if !listed then .next (canSingle s n x q0 n2k)
      else if x.frame.fdf || x.frame.dlc != 8#4 then .next (count s (Reg.cnFpCounts n) 15 8 1)
      else .next (fpFrame s n x q0)

/-- FAST_PACKET_TIMEOUT (R255): no frame for TIMEOUT ms. -/
def execFastPacketTimeout (n : Fin 8) (r : Fin 32) (s : State) : Host.Outcome State Fault Refusal :=
  match fpAt s n.val r.val with
  | none => .next s
  | some f =>
    if ticking s && decide (max 1 (regF s (Reg.cnFpCfg n.val) 15 0) * Config.tickMs ≤ sinceTb s f.lastTb) then
      .next (count (setFp s n.val r.val none) (Reg.cnFpCounts n.val) 31 24 1)
    else .next s

/-! ## The transmit lane (R257 to R262) -/

/-- The lane can send (R257). -/
def laneSends (s : State) (n : Nat) : Bool :=
  canOn s n && owns s (epCan n) && (can s n).mode != .busOff && !canListenOnly s n && (can s n).closing.isNone

/-- An FD payload padded with 0xFF to the next length that ISO 11898-1 allows. -/
def padFd (d : List Byte) : List Byte :=
  let n := d.length
  let m := ([8, 12, 16, 20, 24, 32, 48, 64].find? (fun k => n ≤ k)).getD 64
  if n ≤ 8 then d else d ++ List.replicate (m - n) 0xFF#8

/-- The frames of a fast-packet message (R254, R259). -/
def fpFrames (ident : BitVec 29) (seq : Nat) (data : List Byte) : List CanFrame :=
  let frame (bs : List Byte) : CanFrame := dataFrame ident true false false (bs ++ List.replicate (8 - bs.length) 0xFF#8)
  let rest := data.drop 6
  frame (BitVec.ofNat 8 (seq * 32) :: BitVec.ofNat 8 data.length :: data.take 6)
    :: (List.range (ceilDiv rest.length 7)).map fun k =>
      frame (BitVec.ofNat 8 (seq * 32 + k + 1) :: (rest.drop (7 * k)).take 7)

/-- The frames of a copy (R259), and whether they take a sequence counter; none when the lane drops it. -/
def canFrames (s : State) (n : Nat) (c : Copy) : Option (List CanFrame × Bool) :=
  match c.can with
  | none => none
  | some (a, u) =>
    let len := c.body.length
    let ident : BitVec 29 := a.setWidth 29
    if bit u 12 then
      let fdf := bit a 30
      if (if fdf then 64 else 8) < len then none
      else some ([dataFrame ident (bit a 29) fdf (fdf && bit a 31) (if fdf then padFd c.body else c.body)], false)
    else if len ≤ 8 then some ([dataFrame ident true false false c.body], false)
    else if bit u 11 then (if len ≤ 223 then some (fpFrames ident (can s n).fpSeq c.body, true) else none)
    else if len ≤ 64 && regB s (Reg.cnCtrl n) 27 then
      some ([dataFrame ident true true (regB s (Reg.cnCtrl n) 26) (padFd c.body)], false)
    else none

/-- The lane takes the next copy of its queue (R231, R257, R259). -/
def canStart (s : State) (n : Nat) : State :=
  if !laneSends s n || (can s n).slot.isSome || s.pair.releasing.contains (epCan n) then s
  else match lqNext s 2 n none 0 with
    | (s, none) => s
    | (s, some c) => match canFrames s n c with
      | none => count s (Reg.cnTxCounts n) 15 0 1
      | some (fs, seq) =>
        let v := can s n
        setCan s n { v with slot := some ⟨c, fs, [], none, false⟩, fpSeq := if seq then (v.fpSeq + 1) % 8 else v.fpSeq }

/-- What the lane may select (R258): the frames of CAN_SEND on the lane that have no launch time or have reached it, in accept order,
then the next frame of the copy. -/
def laneOffers (s : State) (n : Nat) : List (Option SendFrame × CanFrame) :=
  let v := can s n
  let sends := ((v.sends.take 32).filter fun x => launched s x.launch x.setTb x.released).map fun x => (some x, x.frame)
  let copy := match v.slot with
    | some c => match c.frames with
      | f :: _ => [(none, f)]
      | [] => []
    | none => []
  sends ++ copy

/-- A SOF that begins now lies more than 25 ns behind a launch time (R261). -/
def sofLate (s : State) (launch : Option (Word × Word)) : Bool :=
  launch.any fun t => decide (25 * 65536 < dNow s t.1 t.2 * 65536 + (stFrac (now s) : Int) + (cnEdge s : Int))

/-- The first SOF of a frame or copy counts in LAUNCH_LATE where it is late (R261). -/
def sofCount (s : State) (n : Nat) (launch : Option (Word × Word)) (first : Bool) : State :=
  if first && sofLate s launch then count s (Reg.cnErrCountsB n) 7 0 1 else s

/-- An attempt of a frame of CAN_SEND begins. -/
def sendBegin (s : State) (n : Nat) (x : SendFrame) : State :=
  let s := sofCount s n x.launch (x.attempts == 0)
  let v := can s n
  let more (y : SendFrame) : SendFrame := if y.slot == x.slot then { y with attempts := y.attempts + 1 } else y
  setCan s n { v with sends := v.sends.map more, attempt := .send x.slot }

/-- An attempt of the next frame of the copy begins. -/
def copyBegin (s : State) (n : Nat) : State :=
  match (can s n).slot with
  | none => s
  | some c =>
    let s := sofCount s n c.copy.launch (!c.begun)
    setCan s n { can s n with slot := some { c with begun := true }, attempt := .copy }

/-- CAN_LANE_SELECT (R258, R261): the lane selects the frame that would win arbitration, and its SOF begins. The SOF stamp includes the
loop delay of the transceiver, which is free (R260, log 20). -/
def execCanLaneSelect (n : Fin 8) (s : State) : Host.Outcome State Fault Refusal :=
  let n := n.val
  let v := can s n
  if !(laneSends s n && v.mode == .active && v.attempt == .none && !v.stuck) then .next s
  else match minBy (fun o => arbKey o.2) (laneOffers s n) with
    | none => .next s
    | some (x, _) =>
      let (s, loop) := takeWord (canHit s n)
      let base := canSof s n
      let s := match x with
        | some x => sendBegin s n x
        | none => copyBegin s n
      .next (setCan s n { can s n with attemptSof := { base with stamp := stMove base.stamp (loop.toNat : Int) }, sofHit := true })

/-- The echo bytes of a copy (R259): each frame's word and data. -/
def canEchoBytes (fs : List CanFrame) : List Byte := fs.flatMap fun f => wordBytes (BitVec.ofNat 32 (canAux0 f)) ++ f.data

/-- A frame has been sent, with the ESI of the error state: TEC falls by one, it is counted, and a claim in it is observed (R256, R263). -/
def canSent (s : State) (n : Nat) (f : CanFrame) : State :=
  let v := can s n
  let s := setCan s n { v with attempt := .none, sofHit := false, tec := v.tec - 1 }
  canClaim (count (emit s (.canFrame n { f with esi := f.fdf && canPassive v })) (Reg.cnTxCounts n) 31 16 1) n f

/-- New settings apply (R266): a change of N2K empties the map and discards the reassemblies. -/
def canSettings (s : State) (n : Nat) (w : Nat → Word) : State :=
  let n2k := canN2k s n
  let en := reg s (Reg.cnCtrl n) &&& 0x80000000#32
  let s := setReg s (Reg.cnCtrl n) ((w 2 &&& 0x7F800000#32) ||| en)
  let s := setReg (setReg s (Reg.cnNbt n) (w 3)) (Reg.cnDbt n) (w 4 &&& 0xFFFFF0FF#32)
  let s := setReg s (Reg.cnFpCfg n) (w 5 &&& 0xFFFF#32)
  if canN2k s n == n2k then s
  else
    let v := can s n
    count (setCan s n { v with claims := [], fps := [] }) (Reg.cnFpCounts n) 23 16 v.fps.length

/-- The settings of a PORT_SET apply, and it waits for integration; a port that is not enabled has none (R266). -/
def canApply (s : State) (n slot : Nat) (ws : List Word) : State :=
  let s := canSettings s n (fun k => ws.getD k 0)
  let v := can s n
  if v.mode == .off then finish s slot stDone 0 0
  else setCan s n { v with
    mode := if v.mode == .busOff then .busOff else .integrating, pendSet := none, pendApplied := some slot }

/-- The controller stops at PORT_DISABLE (R266): pending frames complete DISCARDED, the rest is discarded and counted. -/
def canStop (s : State) (n slot : Nat) : State :=
  let v := can s n
  let outs := v.sends.length + b2n v.slot.isSome
  let ins := v.rxq0.length + v.rxq1.length + v.fps.length
  let v' := { v with
    mode := .off, recovering := false, stuck := false, rxq0 := [], rxq1 := [], fps := [], slot := none, sends := [], attempt := .none,
    closing := none }
  let s := setF (setCan s n v') (Reg.cnCtrl n) 31 31 0
  let s := v.sends.foldl (fun s x => finish s x.slot stDiscarded x.attempts 0) s
  let (s, m) := flushEndpoint s 2 n
  finish (releaseDone s (epCan n)) slot stDone (outs + m) ins

/-- What waits for the end of a frame: a release, a PORT_DISABLE, a PORT_SET (R266, R367). -/
def canFrameEnd (s : State) (n : Nat) : State :=
  let s := if (can s n).slot.isNone then releaseDone s (epCan n) else s
  match (can s n).closing with
  | some slot => canStop s n slot
  | none => match (can s n).pendSet with
    | some (ws, slot) => canApply s n slot ws
    | none => s

/-- The attempt of a frame of CAN_SEND ends (R258, R260, R262). -/
def sendEnd (s : State) (n : Nat) (x : SendFrame) (sent : Bool) : State :=
  let v := can s n
  if sent then
    let s := canSent s n x.frame
    finishAt (dropSend s n x.slot) x.slot (if x.lateCancel then stSentCancelLate else stDone) x.attempts 0 v.attemptSof.stamp
  else
    let s := setCan s n { v with attempt := .none }
    if x.lateCancel then finish (dropSend s n x.slot) x.slot stCancelledAfter x.attempts 0 else s

/-- The attempt of a frame of the copy ends; after its last frame the copy has departed (R259, R239). -/
def copyEnd (s : State) (n : Nat) (sent : Bool) : State :=
  let v := can s n
  match v.slot with
  | none => setCan s n { v with attempt := .none }
  | some c => match c.frames with
    | [] => setCan s n { v with attempt := .none, slot := none }
    | f :: fs =>
      if !sent then setCan s n { v with attempt := .none }
      else
        let s := canSent s n f
        let c := { c with frames := fs, sent := c.sent ++ [f], start := some (c.start.getD v.attemptSof) }
        if fs.isEmpty then
          echoCopy (setCan s n { can s n with slot := none }) c.copy { (c.start.getD v.attemptSof) with epoch := newestEpoch s n }
            (canEchoBytes c.sent)
        else setCan s n { can s n with slot := some c }

/-- CAN_ATTEMPT_END (R258). Where bus-off has ended the attempt already, what waits for its end takes place. -/
def execCanAttemptEnd (n : Fin 8) (res : AttemptResult) (s : State) : Host.Outcome State Fault Refusal :=
  let n := n.val
  let v := can s n
  let sent := res == .sent
  if !canOn s n then .next s
  else match v.attempt with
    | .none => .next (canFrameEnd s n)
    | .copy =>
      let s := (if sent then canInject s n 6 else (s, false)).1
      let s := copyEnd s n sent
      .next (canFrameEnd (if sent then busOffInject s n else s) n)
    | .send slot =>
      let s := (if sent then canInject s n 6 else (s, false)).1
      let s := match v.sends.find? (fun x => x.slot == slot) with
        | some x => sendEnd s n x sent
        | none => setCan s n { can s n with attempt := .none }
      .next (canFrameEnd (if sent then busOffInject s n else s) n)

/-- CAN_INTEGRATED (R266): 11 recessive bits seen. -/
def execCanIntegrated (n : Fin 8) (s : State) : Host.Outcome State Fault Refusal :=
  let n := n.val
  let v := can s n
  if !canOn s n || !(v.mode == .integrating || v.pendApplied.isSome) then .next s
  else
    let s := setCan s n { v with mode := if v.mode == .busOff then .busOff else .active, pendApplied := none }
    match v.pendApplied with
    | some slot => .next (finish s slot stDone 0 0)
    | none => .next s

/-! ## Commands (R257, R260, R262, R266) -/

/-- The frame of a CAN_SEND becomes pending, or cannot (R257, R264). -/
def canPend (s : State) (slot : Nat) (c : HostCmd) (data : List Byte) : State :=
  let n := fld (cmdW c 1) 2 0
  if !portEn s 1 n || (can s n).closing.isSome then finish s slot stDiscarded 0 0
  else if isWedged s (unitCan n) || (can s n).mode == .busOff then finish s slot stLinkFailed 0 0
  else
    let fdf := bit (cmdW c 1) 9
    let ide := bit (cmdW c 1) 11
    let ident : BitVec 29 := if ide then (cmdW c 2).setWidth 29 else BitVec.ofNat 29 (fld (cmdW c 2) 10 0)
    let frame := dataFrame ident ide fdf (fdf && bit (cmdW c 1) 10) (if fdf then padFd data else data)
    let launch := if bit (cmdW c 1) 8 then some (cmdW c 4, cmdW c 5 &&& 0x3FFFFFFF#32) else none
    let x : SendFrame := {
      slot := slot, frame := frame, launch := launch, released := false, setTb := s.time.tb, attempts := 0, lateCancel := false }
    let v := can s n
    cmdOpen (setCan s n { v with sends := v.sends ++ [x] }) slot

/-- CAN_SEND (R257, R260): its data is inline, or read from host memory first. -/
def execCanSend (slot : Fin 256) (s : State) : Host.Outcome State Fault Refusal :=
  match cmdReady s slot.val 0x60 with
  | none => .next s
  | some c =>
    let n := fld (cmdW c 1) 2 0
    let len := fld (cmdW c 3) 6 0
    if !portEn s 1 n then .next (finish s slot.val stDiscarded 0 0)
    else if isWedged s (unitCan n) || (can s n).mode == .busOff then .next (finish s slot.val stLinkFailed 0 0)
    else if bit (cmdW c 1) 12 then .next (canPend s slot.val c ((wordsBytes (c.words.drop 8)).take len))
    else if len == 0 then .next (canPend s slot.val c [])
    else if !dmaFree s then .next s
    else .next (startFetch s slot.val (addr64 (cmdW c 6) (cmdW c 7)) len)

/-- CAN_CANCEL (R262): registered against the attempt of its target. -/
def execCanCancel (slot : Fin 256) (s : State) : Host.Outcome State Fault Refusal :=
  match cmdReady s slot.val 0x61 with
  | none => .next s
  | some c =>
    match cmdOfHandle s (fld (cmdW c 1) 15 0) with
    | none => .next (finish s slot.val stNoSuchHandle 0 0)
    | some d =>
      let n := fld (cmdW d 1) 2 0
      match (can s n).sends.find? (fun x => cmdOp d == 0x60 && x.slot == d.slot) with
      | none => .next (finish s slot.val stNoSuchHandle 0 0)
      | some x =>
        if x.lateCancel then .next (finish s slot.val stLate 0 0)
        else if (can s n).attempt == .send x.slot then
          let v := can s n
          let late := v.sends.map fun y => if y.slot == x.slot then { y with lateCancel := true } else y
          .next (finish (setCan s n { v with sends := late }) slot.val stLate 0 0)
        else
          let s := finish (dropSend s n x.slot) x.slot (if x.attempts == 0 then stCancelled else stCancelledAfter) x.attempts 0
          .next (finish s slot.val stApplied 0 0)

/-- The words of a CAN PORT_SET are refused (R247, R266). -/
def canBad (w : Nat → Word) : Bool :=
  let brp := fld (w 3) 31 22
  let t1 := fld (w 3) 21 14
  let t2 := fld (w 3) 13 7
  let sjw := fld (w 3) 6 0
  let dbrp := fld (w 4) 23 19
  let d1 := fld (w 4) 18 12
  let d2 := fld (w 4) 7 4
  let dsjw := fld (w 4) 3 0
  let bitN := brp * (1 + t1 + t2)
  let bitD := dbrp * (1 + d1 + d2)
  decide (2 ≤ fld (w 2) 30 29) || brp == 0 || decide (512 < brp) || decide (t1 < 2) || t2 == 0 || sjw == 0 || decide (t2 < sjw)
    || dbrp == 0 || d1 == 0 || decide (63 < d1) || d2 == 0 || dsjw == 0 || decide (d2 < dsjw)
    || decide (bitN < 80) || decide (bitD < 10) || decide (bitN < bitD)

/-- PORT_SET of a CAN port (R266): it waits for the frame in progress. -/
def canPortSet (s : State) (n slot : Nat) (ws : List Word) : State :=
  if canBad (fun k => ws.getD k 0) then finish s slot stBadParam 0 0
  else if isWedged s (unitCan n) then finish s slot stWedged 0 0
  else
    let s := setCmd s slot (fun c => { c with phase := .running })
    if (can s n).attempt == .none then canApply s n slot ws else setCan s n { can s n with pendSet := some (ws, slot) }

/-- PORT_ENABLE of a CAN port (R256, R266): it integrates with TEC and REC 0 and an empty map, whether it was enabled before or not. -/
def canPortEnable (s : State) (n slot : Nat) : State :=
  if isWedged s (unitCan n) then finish s slot stWedged 0 0
  else
    let v := can s n
    let s := setCan s n { v with mode := .integrating, tec := 0, recv := 0, recovering := false, recov := 0, claims := [] }
    finish (setF s (Reg.cnCtrl n) 31 31 1) slot stDone 0 0

/-- PORT_DISABLE of a CAN port (R266): it waits for the frame in progress. -/
def canPortDisable (s : State) (n slot : Nat) : State :=
  if (can s n).attempt == .none then canStop s n slot
  else setCmd (setCan s n { can s n with closing := some slot }) slot (fun c => { c with phase := .running })

/-- CN_STATUS as read (R263 to R265). -/
def canStatus (s : State) (n : Nat) : State × Word :=
  let s := recovCount s n
  let v := can s n
  let state := match v.mode with
    | .active => if canPassive v then 1 else 0
    | .busOff => 2
    | _ => 3
  (s, BitVec.ofNat 32 (min 255 v.tec * 2 ^ 24 + min 255 v.recv * 65536 + state * 2 ^ 14 + b2n v.stuck * 2 ^ 13 + b2n v.recovering * 2 ^ 12
    + b2n (shown s (owns s (epCan n))) * 2 ^ 11 + b2n v.slot.isSome * 2 ^ 10 + v.recov))

end Sys2Proof.Machine
end

