-- ==== Sys2Proof/Machine/EthBase.lean ====
section
/-! DEFINITION. Ethernet frames: their fields, checksums and headers (12_ethernet_ports.md R270, R271, R281). -/

namespace Sys2Proof.Machine

/-- An Ethernet port beside its registers. -/
def eth (s : State) (n : Nat) : EthPort := sget EthPort.init s.eth n

/-- An Ethernet port changes. -/
def setEth (s : State) (n : Nat) (v : EthPort) : State := { s with eth := sset EthPort.init s.eth n v }

/-- The unit of an Ethernet port. -/
def unitEth (n : Nat) : Nat := unitOf 2 n

/-- The port works: enabled and not wedged (R284, R344). -/
def ethOn (s : State) (n : Nat) : Bool := ticking s && portEn s 2 n && !isWedged s (unitEth n)

/-! ## Fields of a frame -/

/-- n bytes of a frame from an offset, as a number in network order; bytes beyond the frame count as 0. -/
def beAt (bs : List Byte) (off n : Nat) : Nat := beNat ((List.range n).map fun i => bs.getD (off + i) 0)

/-- Bytes of a frame replaced from an offset. -/
def putAt (bs : List Byte) (off : Nat) (new : List Byte) : List Byte := bs.take off ++ new ++ bs.drop (off + new.length)

/-- The VLAN ID of a frame with an 802.1Q tag. -/
def ethTag (bs : List Byte) : Option Nat := if beAt bs 12 2 == 0x8100 then some (beAt bs 14 2 % 4096) else none

/-- The offset behind the EtherType. -/
def ethOff (bs : List Byte) : Nat := if (ethTag bs).isSome then 18 else 14

/-- The EtherType behind a tag, where there is one. -/
def ethType (bs : List Byte) : Nat := beAt bs (ethOff bs - 2) 2

/-- The frame is IPv4 with IHL 5, no fragment, protocol 17 (R271). -/
def ethUdp (bs : List Byte) : Bool :=
  let o := ethOff bs
  ethType bs == 0x0800 && beAt bs o 1 == 0x45 && beAt bs (o + 6) 2 % 0x4000 == 0 && beAt bs (o + 9) 1 == 17

/-- The destination address and UDP port of an IPv4 frame. -/
def udpDst (bs : List Byte) : Nat × Nat := (beAt bs (ethOff bs + 16) 4, beAt bs (ethOff bs + 22) 2)

/-! ## Checksums -/

/-- The sum of the 16-bit words of bytes, padded with a zero byte. -/
def sum16 : List Byte → Nat
  | [] => 0
  | [a] => a.toNat * 256
  | a :: b :: rest => a.toNat * 256 + b.toNat + sum16 rest

/-- A sum folded into 16 bits with end-around carry: 0 for 0, else 1 to 65 535. -/
def fold16 (n : Nat) : Nat := if n == 0 then 0 else (n - 1) % 65535 + 1

/-- The IPv4 header checksum of a frame is right. -/
def ipSumGood (bs : List Byte) : Bool := fold16 (sum16 ((bs.drop (ethOff bs)).take 20)) == 0xFFFF

/-- The UDP length of an IPv4 frame. -/
def udpLen (bs : List Byte) : Nat := beAt bs (ethOff bs + 24) 2

/-- The UDP datagram of an IPv4 frame, header included. -/
def udpBytes (bs : List Byte) : List Byte := (bs.drop (ethOff bs + 20)).take (udpLen bs)

/-- The sum of the pseudo-header of a UDP datagram. -/
def pseudoSum (src dst len : Nat) : Nat := sum16 (natBe 4 src) + sum16 (natBe 4 dst) + 17 + len

/-- The UDP checksum of a frame is 0 or right (R271). -/
def udpSumGood (bs : List Byte) : Bool :=
  let o := ethOff bs
  beAt bs (o + 26) 2 == 0
    || fold16 (pseudoSum (beAt bs (o + 12) 4) (beAt bs (o + 16) 4) (udpLen bs) + sum16 (udpBytes bs)) == 0xFFFF

/-! ## Building -/

/-- The station address of a port. -/
def ethMac (s : State) (n : Nat) : List Byte := natBe 2 (regF s (Reg.ethMacHi n) 15 0) ++ natBe 4 (reg s (Reg.ethMacLo n)).toNat

/-- The multicast MAC of an IPv4 group (R270). -/
def groupMac (addr : Nat) : List Byte := natBe 6 (0x01005E000000 + addr % 2 ^ 23)

/-- The 802.1Q tag that a port sends. -/
def tagBytes (on : Bool) (pcp vid : Nat) : List Byte := if on then natBe 2 0x8100 ++ natBe 2 (pcp * 8192 + vid) else []

/-- Zeros up to the least length of a frame without FCS. -/
def padFrame (bs : List Byte) : List Byte := bs ++ List.replicate (60 - bs.length) 0

/-- An IPv4 header with its checksum (R281): IHL 5, DF 0, protocol 17. -/
def ipHeader (dscp len ident ttl src dst : Nat) : List Byte :=
  let h (sum : Nat) : List Byte :=
    natBe 2 (0x4500 + dscp * 4) ++ natBe 2 len ++ natBe 2 ident ++ natBe 2 0 ++ natBe 2 (ttl * 256 + 17) ++ natBe 2 sum
      ++ natBe 4 src ++ natBe 4 dst
  h (0xFFFF - fold16 (sum16 (h 0)))

/-- A UDP header and payload with the checksum over both, or with checksum 0. -/
def udpDatagram (src dst sport dport : Nat) (withSum : Bool) (payload : List Byte) : List Byte :=
  let len := 8 + payload.length
  let d (sum : Nat) : List Byte := natBe 2 sport ++ natBe 2 dport ++ natBe 2 len ++ natBe 2 sum ++ payload
  let sum := 0xFFFF - fold16 (pseudoSum src dst len + sum16 (d 0))
  d (if withSum then (if sum == 0 then 0xFFFF else sum) else 0)

end Sys2Proof.Machine
end

