-- ==== Sys2Proof/Machine/Ptp.lean ====
section
/-! DEFINITION. The PTP engine of the Ethernet ports (04_network_time.md R99 to R105). What R101 leaves to IEEE 1588-2019 (header fields,
where fractions of stamps and delayAsymmetry go) is PRESUMED from it (log 40). -/

namespace Sys2Proof.Machine

/-! ## The port (R99, R101) -/

/-- PTP_CTRL.STATE in force: 0 DISABLED, 1 MASTER, 2 SLAVE, 3 PASSIVE, 4 TRANSPARENT; 0 while the port or its PTP is not enabled. -/
def ptpState (s : State) (n : Nat) : Nat :=
  let v := regF s (Reg.ptpCtrl n) 30 28
  if !portEn s 2 n || !regB s (Reg.ptpCtrl n) 31 || decide (4 < v) then 0 else v

/-- P2P. -/
def ptpP2p (s : State) (n : Nat) : Bool := regB s (Reg.ptpCtrl n) 25

/-- The PTP side of a port changes. -/
def setPtp (s : State) (n : Nat) (p : PtpPort) : State := setEth s n { eth s n with ptp := p }

/-- The engine wants a frame sent; while the link is down it sends none. -/
def ptpSend (s : State) (n : Nat) (f : PtpFrame) : State :=
  let p := (eth s n).ptp
  if (eth s n).link then setPtp s n { p with queue := p.queue ++ [f] } else s

/-- Where the PTP message of a frame begins, and whether it lies in UDP (R103). -/
def ptpPlace (bs : List Byte) : Option (Nat × Bool) :=
  if ethType bs == 0x88F7 then some (ethOff bs, false)
  else if ethUdp bs && ((udpDst bs).2 == 319 || (udpDst bs).2 == 320) then some (ethOff bs + 28, true)
  else none

/-- A PTP frame of any transport, with those that the hub leaves to the host (R100). -/
def isPtp (bs : List Byte) : Bool :=
  let o := ethOff bs
  let dport := beAt bs (o + 42) 2
  (ptpPlace bs).isSome || (ethType bs == 0x86DD && beAt bs (o + 6) 1 == 17 && (dport == 319 || dport == 320))

/-- messageType. -/
def ptpType (bs : List Byte) (p : Nat) : Nat := beAt bs p 1 % 16

/-- correctionField, in units of 2^-16 ns. -/
def ptpCorr (bs : List Byte) (p : Nat) : Int := (BitVec.ofNat 64 (beAt bs (p + 8) 8)).toInt

/-- sequenceId. -/
def ptpSeq (bs : List Byte) (p : Nat) : Nat := beAt bs (p + 30) 2

/-- A timestamp of a message as a stamp. -/
def ptpStamp (bs : List Byte) (p : Nat) : Stamp := (beAt bs p 6 * 1000000000 + beAt bs (p + 6) 4) * 65536

/-- The port identity of a port. -/
def ptpId (s : State) (n : Nat) : List Byte :=
  natBe 4 (reg s (Reg.ptpClockIdHi n)).toNat ++ natBe 4 (reg s (Reg.ptpClockIdLo n)).toNat ++ natBe 2 (regF s (Reg.ptpPortId n) 15 0)

/-- The message comes from the parent. -/
def ptpFromParent (s : State) (n : Nat) (bs : List Byte) (p : Nat) : Bool :=
  beAt bs (p + 20) 4 == (reg s (Reg.ptpParentHi n)).toNat && beAt bs (p + 24) 4 == (reg s (Reg.ptpParentLo n)).toNat
    && beAt bs (p + 28) 2 == regF s (Reg.ptpParentPort n) 15 0

/-- The message answers a request of this port. -/
def ptpToMe (s : State) (n : Nat) (bs : List Byte) (p : Nat) : Bool := (bs.drop (p + 44)).take 10 == ptpId s n

/-- Peer-delay messages. -/
def ptpPeer (t : Nat) : Bool := t == 2 || t == 3 || t == 10

/-- The frame is in the port's transport and domain and has the multicast address of R99 for its kind, peer delay or not; with VLAN_EN it
carries a tag (R99, R100). -/
def ptpMine (s : State) (n : Nat) (bs : List Byte) (p : Nat) (udp : Bool) : Bool :=
  let peer := ptpPeer (ptpType bs p)
  let dst := if udp then (udpDst bs).1 == (if peer then 0xE000006B else 0xE0000181)
    else beAt bs 0 6 == (if peer then 0x0180C200000E else 0x011B19000000)
  ptpState s n != 0 && dst && udp == regB s (Reg.ptpCtrl n) 27 && (!regB s (Reg.ptpCtrl n) 15 || (ethTag bs).isSome)
    && beAt bs (p + 4) 1 == regF s (Reg.ptpMsg n) 31 24 && beAt bs (p + 5) 1 == regF s (Reg.ptpMsg n) 23 16
    && beAt bs p 1 / 16 == regF s (Reg.ptpMsg n) 15 12

/-- What the port consumes in its state (R101, R105). -/
def ptpTakes (s : State) (n : Nat) (bs : List Byte) (p : Nat) : Bool :=
  let t := ptpType bs p
  let st := ptpState s n
  if ptpPeer t && ptpP2p s n then true
  else if st == 1 then t == 1
  else if st == 2 then ((t == 0 || t == 8) && ptpFromParent s n bs p) || (t == 9 && ptpToMe s n bs p)
  else if st == 3 then ptpPeer t
  else decide (t ≤ 3) || t == 8 || t == 9 || t == 10

/-! ## Messages (R101, R103, R104) -/

/-- A signed log2 of an interval as a count of ticks; −8 acts as −7. -/
def ptpInterval (log : Nat) : Nat := if log < 8 then 2 ^ log * Config.tickS else Config.tickS / 2 ^ min 7 (16 - log)

/-- A signed log2 as the byte logMessageInterval. -/
def ptpLogByte (log : Nat) : Nat := if log < 8 then log else if log == 8 then 249 else 240 + log

/-- A PTP message with its header. -/
def ptpMsg (s : State) (n type flags : Nat) (corr : Int) (seq ctl log : Nat) (body : List Byte) : List Byte :=
  natBe 1 (regF s (Reg.ptpMsg n) 15 12 * 16 + type) ++ natBe 1 0x12 ++ natBe 2 (34 + body.length)
    ++ natBe 1 (regF s (Reg.ptpMsg n) 31 24) ++ natBe 1 (regF s (Reg.ptpMsg n) 23 16) ++ natBe 2 flags
    ++ natBe 8 (BitVec.ofInt 64 corr).toNat ++ natBe 4 0 ++ ptpId s n ++ natBe 2 seq ++ natBe 1 ctl ++ natBe 1 log ++ body

/-- The seconds and nanoseconds of a stamp, as a message carries them. -/
def stampBe (t : Stamp) : List Byte := natBe 6 (stSec t) ++ natBe 4 (stNs t)

/-- A frame around a message (R99, R104): the IPv4 identification is not stated, and is free (log 20). -/
def ptpFrame (s : State) (n : Nat) (peer event : Bool) (msg : List Byte) : State × List Byte :=
  let ctrl := Reg.ptpCtrl n
  let tag := tagBytes (regB s ctrl 15) (regF s ctrl 14 12) (regF s ctrl 11 0)
  if !regB s ctrl 27 then
    (s, padFrame (natBe 6 (if peer then 0x0180C200000E else 0x011B19000000) ++ ethMac s n ++ tag ++ natBe 2 0x88F7 ++ msg))
  else
    let (s, w) := takeWord s
    let dst := if peer then 0xE000006B else 0xE0000181
    let src := (reg s (Reg.ptpIpv4 n)).toNat
    let port := if event then 319 else 320
    let trailer := regB s ctrl 24
    let udp := udpDatagram src dst port port trailer (if trailer then msg ++ [0, 0] else msg)
    let ip := ipHeader 0 (20 + udp.length) (w.toNat % 65536) (max 1 (regF s ctrl 23 16)) src dst
    (s, padFrame (groupMac dst ++ ethMac s n ++ tag ++ natBe 2 0x0800 ++ ip ++ udp))

/-- A message goes into the engine's queue. -/
def ptpPost (s : State) (n : Nat) (kind : PtpKind) (peer event : Bool) (ref : Stamp) (corr : Int) (msg : List Byte) : State :=
  let (s, bs) := ptpFrame s n peer event msg
  ptpSend s n ⟨kind, bs, ref, corr⟩

/-- The UDP datagram of a message has two bytes behind the message that can be a trailer (R104). -/
def hasTrailer (bs : List Byte) (p : Nat) : Bool := decide (beAt bs (p + 2) 2 + 10 ≤ beAt bs (p - 4) 2)

/-- The bytes that R103 changed are balanced in the UDP datagram of a frame (R104): in its last two payload bytes where they are a trailer,
else by checksum 0. -/
def ptpRepair (old new : List Byte) (p : Nat) : List Byte :=
  let len := beAt new (p - 4) 2
  if !hasTrailer new p then putAt new (p - 2) (natBe 2 0)
  else
    let at_ := p + len - 10
    let body (bs : List Byte) : Nat := fold16 (sum16 ((bs.drop p).take (len - 8)))
    let d := fold16 (body old + (0xFFFF - body new))
    let d := if len % 2 == 0 then d else d % 256 * 256 + d / 256
    putAt new at_ (natBe 2 (fold16 (beAt new at_ 2 + d)))

/-- The bytes of a frame of the engine as it departs at a transmit stamp (R103, R105). -/
def ptpDepart (f : PtpFrame) (t : Stamp) : List Byte :=
  match ptpPlace f.bytes with
  | none => f.bytes
  | some (p, udp) =>
    let corr (bs : List Byte) (d : Int) : List Byte := putAt bs (p + 8) (natBe 8 (BitVec.ofInt 64 (ptpCorr bs p + d)).toNat)
    let fix (bs : List Byte) : List Byte := if udp then ptpRepair f.bytes bs p else bs
    let oneStep := beAt f.bytes (p + 6) 1 / 2 % 2 == 0
    match f.kind with
    | .sync => if oneStep then fix (putAt (corr f.bytes (stFrac t : Nat)) (p + 34) (stampBe t)) else f.bytes
    | .pdelayResp => if oneStep then fix (corr f.bytes ((t : Int) - (f.ref : Int))) else f.bytes
    | .forward true rx extra => fix (corr f.bytes ((t : Int) - (rx : Int) + extra))
    | .forward false _ _ => if udp && !hasTrailer f.bytes p then putAt f.bytes (p - 2) (natBe 2 0) else f.bytes
    | _ => f.bytes

/-! ## Delay and offset (R87, R101) -/

/-- A division by 2^n of which the spec does not state the rounding: an inexact result is free between its two neighbours (log 20). -/
def roundFree (s : State) (v : Int) (n : Nat) : State × Int :=
  if v % (2 ^ n : Nat) == 0 then (s, v / (2 ^ n : Nat))
  else
    let (s, b) := takeBit s
    (s, v / (2 ^ n : Nat) + (b2n b : Nat))

/-- PTP_ASYM. -/
def ptpAsym (s : State) (n : Nat) : Int := (reg s (Reg.ptpAsym n)).toInt

/-- A measurement of twice the path delay enters the running mean (R101). DESIGN CHOICE (log 163): the mean, and the last Sync that it is
measured with, outlast a change of parent, of port state and of EN. -/
def ptpMeasure (s : State) (n : Nat) (twice : Int) : State :=
  let (s, m) := roundFree s twice 1
  let p := (eth s n).ptp
  let (s, mean) := match p.mean with
    | none => (s, m)
    | some old =>
      let (s, d) := roundFree s (m - old) (regF s (Reg.ptpPortId n) 26 24)
      (s, old + d)
  let shown : Int := if mean < 0 then 0 else if 0xFFFFFFFF < mean then 0xFFFFFFFF else mean
  setReg (setPtp s n { (eth s n).ptp with mean := some mean }) (Reg.ptpMeanDelay n) (ofInt shown)

/-- A Sync is complete: its receive edge, and the origin time with the corrections. It forms an offset sample once the mean path delay is
known (R87, R101). -/
def ptpOffset (s : State) (n : Nat) (rx : Edge) (origin : Int) : State :=
  let s := setPtp s n { (eth s n).ptp with sync := none, last := some (rx, origin) }
  match (eth s n).ptp.mean with
  | none => s
  | some m => if regF s Reg.servoStatus 9 8 == n then followerSample s 0 ((rx.stamp : Int) - origin - ptpAsym s n - m) [rx.steps] else s

/-- A Sync from the parent (R88, R101); one of the same parent that still waits for its Follow_Up is discarded and counted. -/
def ptpSync (s : State) (n : Nat) (bs : List Byte) (p : Nat) (rx : Edge) : State :=
  let s := count s (Reg.ptpCounts n) 15 0 1
  let from_ := (bs.drop (p + 20)).take 10
  let late := match (eth s n).ptp.sync with
    | some w => w.source == from_
    | none => false
  let s := if late then discardStep s else s
  if beAt bs (p + 6) 1 / 2 % 2 == 1 then setPtp s n { (eth s n).ptp with sync := some ⟨from_, ptpSeq bs p, rx, ptpCorr bs p⟩ }
  else ptpOffset s n rx (ptpStamp bs (p + 34) + ptpCorr bs p)

/-- A Follow_Up from the parent. -/
def ptpFollow (s : State) (n : Nat) (bs : List Byte) (p : Nat) : State :=
  match (eth s n).ptp.sync with
  | some w =>
    if w.source == (bs.drop (p + 20)).take 10 && w.seq == ptpSeq bs p then ptpOffset s n w.rx (ptpStamp bs (p + 34) + w.corr + ptpCorr bs p)
    else s
  | none => s

/-- A Delay_Resp to this port: t2 − t1 of the last Sync and t4 − t3 of the request. Stamps on both sides of a clock step give none. -/
def ptpDelayResp (s : State) (n : Nat) (bs : List Byte) (p : Nat) : State :=
  match (eth s n).ptp.dreq, (eth s n).ptp.last with
  | some (seq, t3), some (t2, origin) =>
    let s := setPtp s n { (eth s n).ptp with dreq := if seq == ptpSeq bs p then none else some (seq, t3) }
    if seq == ptpSeq bs p && t2.steps == s.time.steps && t3.steps == s.time.steps then
      ptpMeasure s n ((t2.stamp : Int) - t3.stamp + (ptpStamp bs (p + 34) - ptpCorr bs p - origin) - ptpAsym s n)
    else s
  | _, _ => s

/-- A Pdelay_Resp to this port: in one step it completes the measurement, in two it waits for its Follow_Up. -/
def ptpPdelayResp (s : State) (n : Nat) (bs : List Byte) (p : Nat) (rx : Edge) : State :=
  match (eth s n).ptp.pdreq with
  | none => s
  | some (seq, t1) =>
    if seq != ptpSeq bs p || !ptpToMe s n bs p || t1.steps != s.time.steps then s
    else
      let corr := ptpCorr bs p + ptpAsym s n
      if beAt bs (p + 6) 1 / 2 % 2 == 1 then
        setPtp s n { (eth s n).ptp with presp := some (seq, rx, (t1.stamp : Int) - ptpStamp bs (p + 34) + corr) }
      else ptpMeasure (setPtp s n { (eth s n).ptp with pdreq := none }) n ((rx.stamp : Int) - t1.stamp - corr)

/-- A Pdelay_Resp_Follow_Up to this port: (t4 − t1) − (t3 − t2), less the corrections. -/
def ptpPdelayFollow (s : State) (n : Nat) (bs : List Byte) (p : Nat) : State :=
  match (eth s n).ptp.presp with
  | none => s
  | some (seq, t4, acc) =>
    if seq != ptpSeq bs p || !ptpToMe s n bs p || t4.steps != s.time.steps then s
    else
      let s := setPtp s n { (eth s n).ptp with presp := none, pdreq := none }
      ptpMeasure s n ((t4.stamp : Int) - acc - ptpStamp bs (p + 34) - ptpCorr bs p)

/-- A Delay_Req is answered (R101). -/
def ptpDelayReq (s : State) (n : Nat) (bs : List Byte) (p : Nat) (rx : Edge) : State :=
  let m := ptpMsg s n 9 0 (ptpCorr bs p - (stFrac rx.stamp : Nat)) (ptpSeq bs p) 3 (ptpLogByte (regF s (Reg.ptpMsg n) 7 4))
    (stampBe rx.stamp ++ (bs.drop (p + 20)).take 10)
  ptpPost s n .delayResp false false 0 0 m

/-- A Pdelay_Req is answered, in one step or in two (R101, R103). -/
def ptpPdelayReq (s : State) (n : Nat) (bs : List Byte) (p : Nat) (rx : Edge) : State :=
  let who := (bs.drop (p + 20)).take 10
  if regB s (Reg.ptpCtrl n) 26 then
    ptpPost s n .pdelayResp true true rx.stamp 0 (ptpMsg s n 3 0 (ptpCorr bs p) (ptpSeq bs p) 5 0x7F (natBe 10 0 ++ who))
  else
    ptpPost s n .pdelayResp true true rx.stamp (ptpCorr bs p)
      (ptpMsg s n 3 0x0200 (-(stFrac rx.stamp : Nat)) (ptpSeq bs p) 5 0x7F (stampBe rx.stamp ++ who))

/-- A message is forwarded out of every other TRANSPARENT port (R105). -/
def ptpForward (s : State) (n : Nat) (bs : List Byte) (p : Nat) (rx : Edge) : State :=
  let event := decide (ptpType bs p ≤ 3)
  let extra : Int := if ptpP2p s n then ((eth s n).ptp.mean).getD 0 else 0
  (List.range 4).foldl (fun s m =>
    if m != n && ptpState s m == 4 then ptpSend s m ⟨.forward event rx.stamp extra, bs, 0, 0⟩ else s) s

/-- PTP_MESSAGE_RECEIVED (R101): a consumed message acts. -/
def ptpReceive (s : State) (n : Nat) (bs : List Byte) (p : Nat) (e : Edge) : State :=
  let t := ptpType bs p
  let rx : Edge := { e with stamp := stMove e.stamp (-((regF s (Reg.ptpLat n) 15 0 * 4096 : Nat) : Int)) }
  if ptpPeer t && ptpP2p s n then
    if t == 2 then ptpPdelayReq s n bs p rx else if t == 3 then ptpPdelayResp s n bs p rx else ptpPdelayFollow s n bs p
  else if ptpState s n == 4 then ptpForward s n bs p rx
  else if t == 0 then ptpSync s n bs p rx
  else if t == 8 then ptpFollow s n bs p
  else if t == 9 then ptpDelayResp s n bs p
  else if t == 1 then ptpDelayReq s n bs p rx
  else s

/-- A frame of the engine has departed with this transmit stamp (R101, R102). -/
def ptpDeparted (s : State) (n : Nat) (f : PtpFrame) (e : Edge) : State :=
  match ptpPlace f.bytes with
  | none => s
  | some (p, _) =>
    let seq := ptpSeq f.bytes p
    let oneStep := beAt f.bytes (p + 6) 1 / 2 % 2 == 0
    let log := beAt f.bytes (p + 33) 1
    match f.kind with
    | .sync =>
      if oneStep then s else ptpPost s n .followUp false false 0 0 (ptpMsg s n 8 0 (stFrac e.stamp : Nat) seq 2 log (stampBe e.stamp))
    | .delayReq => setPtp s n { (eth s n).ptp with dreq := some (seq, e) }
    | .pdelayReq => setPtp s n { (eth s n).ptp with pdreq := some (seq, e) }
    | .pdelayResp =>
      if oneStep then s
      else ptpPost s n .pdelayFollow true false 0 0
        (ptpMsg s n 10 0 (f.corr + (stFrac e.stamp : Nat)) seq 5 0x7F (stampBe e.stamp ++ (f.bytes.drop (p + 44)).take 10))
    | _ => s

/-! ## Timers (R101) -/

/-- PTP_SYNC_TIMER (R101): a MASTER port sends Sync. -/
def execPtpSyncTimer (p : Fin 4) (s : State) : Host.Outcome State Fault Refusal :=
  let n := p.val
  let v := (eth s n).ptp
  let log := regF s (Reg.ptpMsg n) 11 8
  if !(ethOn s n && ptpState s n == 1 && decide (ptpInterval log ≤ sinceTb s v.syncTb)) then .next s
  else
    let flags := if regB s (Reg.ptpCtrl n) 26 then 0 else 0x0200
    let s := setPtp s n { v with syncTb := s.time.tb, syncSeq := (v.syncSeq + 1) % 65536 }
    .next (ptpPost s n .sync false true 0 0 (ptpMsg s n 0 flags 0 v.syncSeq 0 (ptpLogByte log) (natBe 10 0)))

/-- PTP_DELAY_REQ_TIMER (R101): the random time of a SLAVE port has run out; the sender of the command draws it. -/
def execPtpDelayReqTimer (p : Fin 4) (s : State) : Host.Outcome State Fault Refusal :=
  let n := p.val
  let v := (eth s n).ptp
  if !(ethOn s n && ptpState s n == 2 && !ptpP2p s n) then .next s
  else
    let s := setPtp s n { v with dreqSeq := (v.dreqSeq + 1) % 65536 }
    .next (ptpPost s n .delayReq false true 0 0 (ptpMsg s n 1 0 (-(ptpAsym s n)) v.dreqSeq 1 0x7F (natBe 10 0)))

/-- PTP_PDELAY_REQ_TIMER (R101): a P2P port sends Pdelay_Req. -/
def execPtpPdelayReqTimer (p : Fin 4) (s : State) : Host.Outcome State Fault Refusal :=
  let n := p.val
  let v := (eth s n).ptp
  if !(ethOn s n && ptpState s n != 0 && ptpP2p s n && decide (ptpInterval (regF s (Reg.ptpMsg n) 3 0) ≤ sinceTb s v.pdreqTb)) then .next s
  else
    let s := setPtp s n { v with pdreqTb := s.time.tb, pdreqSeq := (v.pdreqSeq + 1) % 65536 }
    .next (ptpPost s n .pdelayReq true true 0 0 (ptpMsg s n 2 0 (-(ptpAsym s n)) v.pdreqSeq 5 0x7F (natBe 20 0)))

end Sys2Proof.Machine
end

