-- ==== Sys2Proof/Machine/SerialRx.lean ====
section
/-! DEFINITION. Serial receivers: characters, the framer, raw records, break and a stuck line (06_serial_ports.md R124 to R149). -/

namespace Sys2Proof.Machine

/-! ## Records (R136 to R139, R156 to R158) -/

/-- The first granule of a port's staging run (R154). -/
def serialStage (p : Nat) : Nat := 124212 + 19 * p

/-- The key of raw and break records (R158). -/
def rawKey (p : Nat) : Nat := p * 2 ^ 80 + 2 ^ 87

/-- A character that ends the address field of a sentence. -/
def addrEnd (b : Byte) : Bool := b == 0x2C#8 || b == 0x2A#8 || b == 0x0D#8 || b == 0x0A#8

/-- The key of a sentence: its port, and the address field, filled with 0x00 to five characters (R158). -/
def sentenceKey (p : Nat) (proper : List Byte) : Nat :=
  let a := ((proper.drop 1).takeWhile (fun b => !addrEnd b)).take 5
  p * 2 ^ 80 + beNat (a ++ List.replicate (5 - a.length) 0)

/-- A record of a port is handed to the Kennel (R163, SP_RX_COUNT). -/
def serialRecord (s : State) (p : Nat) (a : Arrived) : State := admitRecord (count s (Reg.spRxCount p) 31 0 1) a

/-- Verdict on a checksum: 0 correct, 1 missing, 2 wrong (R138). -/
def sumVerdict (covered rest : List Byte) : Nat :=
  match rest with
  | [] => 1
  | _ :: h :: l :: _ => if hexPair h l == some (xorBytes covered) then 0 else 2
  | _ => 2

/-- The text after a TAG block's opening backslash: its verdict, and what follows its closing backslash. -/
def tagJudge (text : List Byte) : Nat × List Byte :=
  let inside := text.takeWhile (fun b => b != 0x5C#8)
  let after := text.drop inside.length
  let covered := inside.takeWhile (fun b => b != 0x2A#8)
  (sumVerdict covered (inside.drop covered.length), after.drop 1)

/-- The TAG blocks at the head of a text, with a bound on their number: their count, the worst verdicts (any missing, any wrong), and
the sentence proper. -/
def tagsJudge : Nat → List Byte → Nat → Bool → Bool → Nat × Bool × Bool × List Byte
  | 0, text, n, miss, wrong => (n, miss, wrong, text)
  | fuel + 1, text, n, miss, wrong =>
    match text with
    | b :: rest =>
      if b == 0x5C#8 then
        let (v, rest) := tagJudge rest
        tagsJudge fuel rest (n + 1) (miss || v == 1) (wrong || v == 2)
      else (n, miss, wrong, text)
    | [] => (n, miss, wrong, text)

/-- What R138 says of a text: verdict, offset of the sentence proper, offset of its star (0x1FF when missing), TAG blocks. -/
structure Judged where
  verdict : Nat
  start : Nat
  star : Nat
  tags : Nat
  proper : List Byte
  deriving DecidableEq, Repr

/-- A text judged under R138. -/
def judgeText (text : List Byte) : Judged :=
  let (n, miss, wrong, proper) := tagsJudge 256 text 0 false false
  let start := text.length - proper.length
  let body := proper.drop 1
  let line := body.takeWhile (fun b => b != 0x0D#8 && b != 0x0A#8)
  let covered := line.takeWhile (fun b => b != 0x2A#8)
  let found := decide (covered.length < line.length)
  let v := if found then sumVerdict covered (body.drop covered.length) else 1
  ⟨if wrong || v == 2 then 2 else if miss || v == 1 then 1 else 0, start, if found then start + 1 + covered.length else 0x1FF, n, proper⟩

/-- The policy of SUM on a verdict (R138): the SUM field of the record, where there is one. -/
def sumPolicy (sum verdict : Nat) : Option Nat :=
  if sum == 2 then some 2
  else if verdict == 2 then none
  else if verdict == 1 then (if sum == 1 then some 1 else none)
  else some 0

/-- The framer holds nothing and hunts for a start character. -/
def framerClear (v : SerialPort) : SerialPort :=
  { v with framer := .hunt, text := [], first := none, last := none, errs := 0, inj := false, woke := false }

/-- A partial sentence or raw record is discarded and counted (R137, R141, R147, R149). -/
def framerDiscard (s : State) (p : Nat) : State :=
  let v := serial s p
  if v.text.isEmpty then s else count (setSerial s p (framerClear v)) (Reg.spRxDiscard p) 31 16 1

/-- The stamp of an edge; a record that woke the hub carries none (R156). -/
def edgeStamp (woke : Bool) (e : Option Edge) : Stamp := if woke then 0 else match e with
  | some e => e.stamp
  | none => 0

/-- The record that the framer or the raw collector of a port holds. -/
def serialArrived (s : State) (p typ sum aux0 aux1 key : Nat) : Arrived :=
  let v := serial s p
  let woke := v.woke
  { typ := typ, src := unitSerial p, key := key, stage := some (serialStage p),
    epoch := if woke then 0 else match v.first with
      | some e => e.epoch
      | none => 0,
    lost := woke, inj := v.inj, charErr := decide (0 < v.errs), woke := woke, sum := sum, rxq0 := false,
    first := edgeStamp woke v.first, last := edgeStamp woke v.last, aux0 := aux0, aux1 := aux1, aux2 := 0, payload := v.text,
    steps := match v.first with
      | some e => e.steps
      | none => s.time.steps }

/-- SENTENCE_FRAMED (R136, R138): the LF closes the sentence, which is judged under SUM. -/
def sentenceClose (s : State) (p : Nat) : State :=
  let v := serial s p
  let j := judgeText v.text
  let sum := regF s (Reg.spFramer p) 1 0
  let (s, inj) := if sum == 2 then (s, false) else injected s 0x15 [unitSerial p]
  match if inj then none else sumPolicy sum j.verdict with
  | none =>
    fire (count (setSerial s p (framerClear v)) (Reg.spRxErr p) 7 0 1) 0x15 (unitSerial p) 0 0 inj (some (limitKey 0x15 (unitSerial p) 0))
  | some r =>
    let a := serialArrived s p 0 r (j.start * 65536 + j.star) (min 255 v.errs * 256 + j.tags) (sentenceKey p j.proper)
    serialRecord (setSerial s p (framerClear v)) p a

/-- A raw record closes for a reason: 0 idle gap, 1 256 characters, 2 break (R139, R157). -/
def rawClose (s : State) (p reason : Nat) : State :=
  let v := serial s p
  if v.text.isEmpty then s
  else
    let a := serialArrived s p 1 3 reason 0 (rawKey p)
    serialRecord (setSerial s p (framerClear v)) p a

/-! ## Characters (R124, R126, R132 to R139) -/

/-- TAG_EN. -/
def tagEn (s : State) (p : Nat) : Bool := regB s (Reg.spFramer p) 4

/-- A start character (R136). -/
def startChar (s : State) (p : Nat) (ch : Byte) : Bool := ch == 0x24#8 || ch == 0x21#8 || (tagEn s p && ch == 0x5C#8)

/-- A received character: its bits, whether it has an error, whether an injected occurrence met it, and its start edge. -/
structure RxChar where
  ch : Byte
  fe : Bool
  pe : Bool
  inj : Bool
  edge : Edge
  woke : Bool
  deriving DecidableEq, Repr

/-- A character joins the text. -/
def textAdd (v : SerialPort) (c : RxChar) (f : Framer) : SerialPort :=
  { v with
    framer := f, text := v.text ++ [c.ch], first := if v.text.isEmpty then some c.edge else v.first, last := some c.edge,
    errs := v.errs + b2n (c.fe || c.pe), inj := v.inj || c.inj, woke := v.woke || c.woke }

/-- A character joins the text, which builds up in the port's staging run (R154). -/
def textPut (s : State) (p : Nat) (c : RxChar) (f : Framer) : State :=
  let v := serial s p
  setSerial (stagePut s (serialStage p) v.text (v.text ++ [c.ch])) p (textAdd v c f)

/-- A start character opens a text. -/
def textOpen (s : State) (p : Nat) (c : RxChar) : State :=
  textPut (setSerial s p (framerClear (serial s p))) p c (if c.ch == 0x5C#8 then .tag else .sentence)

/-- A character joins the text; a 257th discards it (R137), and an LF of the sentence proper closes it (R136). -/
def textStep (s : State) (p : Nat) (c : RxChar) (f : Framer) : State :=
  let v := serial s p
  if 256 ≤ v.text.length then framerDiscard s p
  else
    let s := textPut s p c f
    if c.ch == 0x0A#8 && f == .sentence then sentenceClose s p else s

/-- The framer takes a character (R136, R137). -/
def framerChar (s : State) (p : Nat) (c : RxChar) : State :=
  match (serial s p).framer with
  | .hunt => if startChar s p c.ch then textOpen s p c else s
  | .tag =>
    if c.ch == 0x5C#8 then textStep s p c .afterTag
    else if c.ch == 0x0A#8 then framerDiscard s p
    else if startChar s p c.ch then textOpen (framerDiscard s p) p c
    else textStep s p c .tag
  | .afterTag =>
    if c.ch == 0x24#8 || c.ch == 0x21#8 then textStep s p c .sentence
    else if c.ch == 0x5C#8 then textStep s p c .tag
    else framerDiscard s p
  | .sentence =>
    if startChar s p c.ch then textOpen (framerDiscard s p) p c else textStep s p c .sentence

/-- A character is lost to overrun (R132, R137). -/
def serialOverrun (s : State) (p : Nat) (inj : Bool) : State :=
  let s := count (spFlag s p 29) (Reg.spRxErr p) 15 8 1
  let s := fire s 0x12 (unitSerial p) 0 0 inj (some (limitKey 0x12 (unitSerial p) 0))
  if spMode s p == 2 then setSerial s p { serial s p with inj := (serial s p).inj || (inj && !(serial s p).text.isEmpty) }
  else framerDiscard s p

/-- The number of bit periods that reach a time. -/
def bitsAbove (s : State) (p t : Nat) : Nat := ceilDiv (t * 9) (max 1 (regF s (Reg.spDiv p) 18 0) * 5000000)

/-- OBEY acts: it is set, and the port is not in half duplex (R143). -/
def leashObey (s : State) (p : Nat) : Bool := regB s (Reg.spLeash p) 31 && spMode s p != 1

/-- The transmitter resumes: what is left of a stopped item follows on its grid of bit periods (R128, R143). -/
def leashResume (s : State) (p : Nat) : State :=
  let v := serial s p
  let s := setF s (Reg.spStatus p) 13 13 0
  let run := v.run.map fun r => match r.pause with
    | none => r
    | some (k, at_) =>
      let go : Int := r.startAt + (bitsTime s p (bitsAbove s p (max at_ (tbTime s) - r.startAt).toNat) : Nat)
      { r with base := go, sent := k, endAt := go + (charsTime s p (r.bytes.length - k) : Nat), pause := none }
  setSerial s p { v with xoffTb := none, run := run }

/-- LEASH_RECEIVED (R143, R145): an XOFF stops the transmitter at its next boundary, an XON lets it resume. -/
def leashReceived (s : State) (p : Nat) (ch : Byte) : State :=
  if ch == 0x11#8 then leashResume s p
  else
    let v := serial s p
    let s := setF s (Reg.spStatus p) 13 13 1
    let run := v.run.map fun r =>
      if r.pause.isSome then r
      else
        let b := nextBoundary s p r
        if b.2 < r.endAt then { r with pause := some b } else r
    setSerial s p { v with xoffTb := some s.time.tb, run := run }

/-- A further character received while an XOFF of the port stands: after every 16 the XOFF is sent again (R144). -/
def leashCount (s : State) (p : Nat) : State :=
  if regB s (Reg.spStatus p) 12 && leashGen s p then
    let n := (serial s p).sinceXoff + 1
    if 16 ≤ n then leashSend s p true else setSerial s p { serial s p with sinceXoff := n }
  else s

/-- A character goes to the raw FIFO, a raw record, or SP_DATA and the framer (R135, R136, R139). -/
def serialPass (s : State) (p : Nat) (c : RxChar) : State :=
  if spMode s p == 2 then
    if regB s (Reg.spCtrl p) 28 then
      let s := textPut s p c .hunt
      if 256 ≤ (serial s p).text.length then rawClose s p 1 else s
    else if 64 ≤ (serial s p).fifo.length then serialOverrun s p false
    else setSerial s p { serial s p with fifo := (serial s p).fifo ++ [⟨c.ch, c.fe, c.pe⟩] }
  else
    let s := setSerial s p { serial s p with lastChar := some ⟨c.ch, c.fe, c.pe⟩ }
    framerChar s p c

/-- A good character is passed on, unless the Leash takes it (R143). -/
def serialChar (s : State) (p : Nat) (c : RxChar) : State :=
  let s := leashCount s p
  if leashObey s p && (c.ch == 0x11#8 || c.ch == 0x13#8) then leashReceived s p c.ch else serialPass s p c

/-- The data bits of a received character (R124). -/
def charMask (s : State) (p : Nat) (ch : Byte) : Byte := BitVec.ofNat 8 (ch.toNat % 2 ^ (5 + regF s (Reg.spFormat p) 1 0))

/-- The parity bit that a character should have; none without parity (R124). -/
def parityBit (mode : Nat) (ch : Byte) : Option Bool :=
  let odd := (List.range 8).foldl (fun a i => a ^^ ch.getLsbD i) false
  if mode == 1 then some odd else if mode == 2 then some (!odd) else if mode == 3 then some true else if mode == 4 then some false else none

/-- The number of the bit period at which the low level began that the first stop bit of a character lies in: 0 is its start bit. -/
def lowFrom (bits : List Bool) : Nat := 1 + bits.length - (bits.reverse.takeWhile (fun b => !b)).length

/-- The data and parity bits of a character in the order of the line. -/
def lineBits (s : State) (p : Nat) (ch : Byte) (parityBit : Bool) : List Bool :=
  (List.range (5 + regF s (Reg.spFormat p) 1 0)).map (fun i => ch.getLsbD i)
    ++ (if regF s (Reg.spFormat p) 4 2 == 0 then [] else [parityBit])

/-- The first stop bit was low: the line is low since the last falling edge within the character (R149). -/
def lineLow (s : State) (p : Nat) (bits : List Bool) (e : Edge) : State :=
  let n := lowFrom bits
  let n := if n == 1 then 0 else n
  setSerial s p { serial s p with low := some (s.time.tb + ceilDiv (bitsTime s p n) 262144, some e) }

/-- A start edge at a receiver's TDC. A TDC forced to switch first discards the partial sentence (R82, R127, R137). DEDUCED (log 156): a
region that has fallen back to the production table ends a partial record of the table before it in the same way. -/
def serialEdge (s : State) (p k : Nat) : State × Edge :=
  let (s, e) := convert (if tdcOverdue s p && spMode s p != 2 then framerDiscard s p else s) p k
  (if (serial s p).first.any (fun f => f.epoch != e.epoch) then framerDiscard s p else s, e)

/-- A watch receiver of a port still receives its characters (R152, R363). -/
def watching (s : State) (p : Nat) : Bool := s.power.watches.any fun w => w.port == p

/-- The receiver of a port runs: enabled, not wedged, TB running, no level is stuck, and no watch receiver still has the line. -/
def rxOn (s : State) (p : Nat) : Bool :=
  ticking s && portEn s 0 p && !isWedged s (unitSerial p) && (serial s p).low.isNone && !watching s p

/-- The line is not idle until so many ticks from now. -/
def lineBusy (s : State) (p n : Nat) : State := setSerial s p { serial s p with idleTb := s.time.tb + n }

/-- The receiver may take a start bit: it need not wait for idle, or the line has been idle for one character time (R142). -/
def rxHunts (s : State) (p : Nat) : Bool :=
  !(serial s p).needIdle || decide (charsTicks s p 1 ≤ sinceTb s (serial s p).idleTb)

/-- The occurrences that a received character is for the detectors of its port, in the order of their numbers (R340): framing, parity,
overrun, and the check of a held line, which is reported only: it marks the record that the character joins (R341). -/
def charInject (s : State) (p : Nat) : State × Bool × Bool × Bool × Bool :=
  let u := unitSerial p
  let (s, fe) := injected s 0x10 [u]
  let (s, pe) := injected s 0x11 [u]
  let (s, oe) := injected s 0x12 [u]
  let (s, held) := injected s 0x13 [u]
  (if held then fire s 0x13 u 0 0 true none else s, fe, pe, oe, held)

/-- SERIAL_CHARACTER (R124): a character whose start edge lies at this instant. -/
def execSerialCharacter (p : Fin 128) (ch : Byte) (pBit stopLow : Bool) (taps : Fin 256) (s : State) :
    Host.Outcome State Fault Refusal :=
  let p := p.val
  if !rxOn s p then .next s
  else if !rxHunts s p then .next (lineBusy s p (charsTicks s p 1))
  else
    let (s, e) := serialEdge s p taps.val
    let s := lineBusy (setSerial s p { serial s p with needIdle := false }) p (charsTicks s p 1)
    if spMode s p == 1 && (serial s p).run.isSome then .next s
    else
      let (s, fi, pi, oi, hi) := charInject s p
      let d := charMask s p ch
      let fe := stopLow || fi
      let want := parityBit (regF s (Reg.spFormat p) 4 2) d
      let pe := (want.isSome && want != some pBit) || pi
      let u := unitSerial p
      let s := if fe then fire (count (spFlag s p 31) (Reg.spRxErr p) 31 24 1) 0x10 u 0 0 fi (some (limitKey 0x10 u 0)) else s
      let s := if pe then fire (count (spFlag s p 30) (Reg.spRxErr p) 23 16 1) 0x11 u 0 0 pi (some (limitKey 0x11 u 0)) else s
      let s := if oi then serialOverrun s p true else serialChar s p ⟨d, fe, pe, fi || pi || hi, e, false⟩
      .next (if stopLow then lineLow s p (lineBits s p d pBit) e else s)

/-- SERIAL_FALSE_START (R126, R127): only the hit of its edge counts. -/
def execSerialFalseStart (p : Fin 128) (taps : Fin 256) (s : State) : Host.Outcome State Fault Refusal :=
  let p := p.val
  if !rxOn s p then .next s
  else if !rxHunts s p then .next (lineBusy s p 0)
  else
    let (s, _) := serialEdge s p taps.val
    .next (lineBusy (setSerial s p { serial s p with needIdle := false }) p 0)

/-- RAW_GAP_CLOSE (R139): the line has been idle for RAW_GAP character times. -/
def execRawGapClose (p : Fin 128) (s : State) : Host.Outcome State Fault Refusal :=
  let p := p.val
  let v := serial s p
  let gap := max 1 (regF s (Reg.spCtrl p) 15 8)
  if rxOn s p && spMode s p == 2 && !v.text.isEmpty && decide (v.idleTb ≤ s.time.tb) && decide (charsTicks s p gap ≤ sinceTb s v.idleTb) then
    .next (rawClose s p 0)
  else .next s

/-! ## Break and a stuck line (R149) -/

/-- A stamp whose value the spec does not state (log 20). -/
def freeStamp (s : State) : State × Stamp :=
  let (s, a) := takeWord s
  let (s, b) := takeWord s
  let (s, c) := takeWord s
  let (s, d) := takeWord s
  (s, (((a.toNat * 2 ^ 32 + b.toNat) % 2 ^ 48) * 1000000000 + c.toNat % 1000000000) * 65536 + d.toNat % 65536)

/-- The break record of a low level that began at an edge; where the port was enabled with its line low there is no such edge, and
FIRST, its epoch and STAMP_LOST are free (log 20). -/
def breakRecord (s : State) (p : Nat) (e : Option Edge) : State :=
  let (s, first, epoch, lost, steps) := match e with
    | some e => (s, e.stamp, e.epoch, false, e.steps)
    | none =>
      let (s, t) := freeStamp s
      let (s, b) := takeBit s
      let (s, w) := takeWord s
      (s, t, w.toNat % 16, b, s.time.steps)
  serialRecord s p
    { typ := 2, src := unitSerial p, key := rawKey p, stage := some (serialStage p), epoch := epoch, lost := lost, inj := false,
      charErr := false, woke := false, sum := 3, rxq0 := false, first := first, last := tickStamp s, aux0 := 0, aux1 := 0, aux2 := 0,
      payload := [], steps := steps }

/-- The low level that a row of R149 speaks of: the one whose falling edge the receiver saw; or, while it waits for idle and has seen no
character, one that it found at PORT_ENABLE, which counts from there (R142). -/
def lowLevel (s : State) (p : Nat) : Option (Nat × Option Edge) :=
  let v := serial s p
  match v.low with
  | some l => some l
  | none => if v.needIdle && decide (v.idleTb ≤ s.time.tb) then some (v.idleTb, none) else none

/-- The checks of R149 run on a port. -/
def lineChecked (s : State) (p : Nat) : Bool := ticking s && portEn s 0 p && !isWedged s (unitSerial p)

/-- LINE_BREAK (R149): the line has been low for 2 character times, and is not held. -/
def execLineBreak (p : Fin 128) (s : State) : Host.Outcome State Fault Refusal :=
  let p := p.val
  match lowLevel s p with
  | none => .next s
  | some (tb, e) =>
    if !lineChecked s p || regB s (Reg.spStatus p) 14 || regB s (Reg.spStatus p) 15 || decide (sinceTb s tb < charsTicks s p 2) then .next s
    else
      let s := setSerial s p { serial s p with low := some (tb, e) }
      let s := if spMode s p == 2 then rawClose s p 2 else framerDiscard s p
      let s := count (setF s (Reg.spStatus p) 14 14 1) (Reg.spRxDiscard p) 15 0 1
      let v := serial s p
      let s := if v.staged.isNone && v.run.isNone then setSerial s p { v with gapTb := s.time.tb } else s
      .next (breakRecord s p e)

/-- LINE_HELD (R149): the line has been low for SP_HOLD. -/
def execLineHeld (p : Fin 128) (s : State) : Host.Outcome State Fault Refusal :=
  let p := p.val
  let hold := regF s (Reg.spHold p) 15 0
  match lowLevel s p with
  | none => .next s
  | some (tb, e) =>
    if !lineChecked s p || regB s (Reg.spStatus p) 15 || hold == 0 || decide (sinceTb s tb < hold * Config.tickMs) then .next s
    else
      let s := setSerial s p { serial s p with low := some (tb, e) }
      let (s, inj) := injected s 0x13 [unitSerial p]
      .next (fire (setF s (Reg.spStatus p) 15 15 1) 0x13 (unitSerial p) 0 0 inj none)

/-- LINE_RELEASE (R149): a low line goes high; the idle time of R142 counts from there. -/
def execLineRelease (p : Fin 128) (s : State) : Host.Outcome State Fault Refusal :=
  let p := p.val
  let v := serial s p
  if ticking s && portEn s 0 p && (lowLevel s p).isSome then
    .next (setF (setSerial s p { v with low := none, needIdle := true, idleTb := s.time.tb }) (Reg.spStatus p) 15 14 0)
  else .next s

/-! ## Status and data reads (R133, R135) -/

/-- SP_STATUS_READ (R133). -/
def execSpStatusRead (p : Fin 128) (s : State) : Host.Outcome State Fault Refusal :=
  if !bar0Ok s then .next (emit s (.readReply 0 (Reg.spStatus p) (wordBytes 0xFFFFFFFF#32)))
  else
    let (s, w) := spStatusRead s p
    .next (emit s (.readReply 0 (Reg.spStatus p) (wordBytes w)))

/-- SP_DATA_READ (R135). -/
def execSpDataRead (p : Fin 128) (s : State) : Host.Outcome State Fault Refusal :=
  if !bar0Ok s then .next (emit s (.readReply 0 (Reg.spData p) (wordBytes 0xFFFFFFFF#32)))
  else
    let (s, w) := spDataRead s p
    .next (emit s (.readReply 0 (Reg.spData p) (wordBytes w)))

end Sys2Proof.Machine
end

