-- ==== Sys2Proof/Machine/Ethernet.lean ====
section
/-! DEFINITION. Ethernet ports and IEC 61162-450 (12_ethernet_ports.md R268 to R288). -/

namespace Sys2Proof.Machine

/-! ## Link (R268, R269) -/

/-- Pending ETH_LAUNCH frames complete with a status; LINK_FAILED is counted per frame (R269, R279). -/
def ethDropLaunches (s : State) (n status : Nat) : State :=
  let v := eth s n
  let s := setEth s n { v with launches := [] }
  v.launches.foldl (fun s f =>
    finish (if status == stLinkFailed then count s (Reg.ethTxErr n) 23 16 1 else s) f.slot status 0 0) s

/-- The frame in transmission is abandoned (R269). -/
def ethAbandon (s : State) (n : Nat) : State :=
  let v := eth s n
  let s' := setEth s n { v with tx := none }
  match v.tx with
  | none => s
  | some (.launch f, _, _) => finish (count s' (Reg.ethTxErr n) 23 16 1) f.slot stLinkFailed 0 0
  | some (.copy _, _, _) => releaseDone (count s' (Reg.ethTxErr n) 23 16 1) (epEth n)
  | some (.ptp _, _, _) => s'

/-- The link goes down (R269). -/
def ethLinkDown (s : State) (n : Nat) : State :=
  if !(eth s n).link then s
  else
    let v := eth s n
    let s := setEth s n { v with link := false, ptp := { v.ptp with queue := [] } }
    let s := ethDropLaunches (ethAbandon s n) n stLinkFailed
    event s 2 0 (unitEth n) 0 0 false (now s)

/-- The port stops at PORT_DISABLE (R285). -/
def ethStop (s : State) (n slot : Nat) : State :=
  let v := eth s n
  let s := setEth (setF s (Reg.ethCtrl n) 31 31 0) n { v with buffer := [], closing := none, speedFault := false }
  let s := ethDropLaunches s n stDiscarded
  let (s, m) := flushEndpoint s 3 n
  finish (ethLinkDown (releaseDone s (epEth n)) n) slot stDone (v.launches.length + m) v.buffer.length

/-- What waits for the end of a frame: a release, a PORT_DISABLE (R285, R367). -/
def ethFrameEnd (s : State) (n : Nat) : State :=
  let s := releaseDone s (epEth n)
  match (eth s n).closing with
  | some slot => ethStop s n slot
  | none => s

/-- LINK_CHANGE (R268, R269): the PCS reports the link up or down; a PHY in a mode that is not supported leaves it down. -/
def execLinkChange (n : Fin 4) (up speedFault : Bool) (s : State) : Host.Outcome State Fault Refusal :=
  let n := n.val
  if !ethOn s n || s.integ.lost.contains n then .next s
  else
    let bad := speedFault && regB s (Reg.ethCtrl n) 30
    let s := setEth s n { eth s n with speedFault := bad }
    if up && !bad then
      (if (eth s n).link then .next s
       else
         let s := setEth s n { eth s n with link := true }
         .next (event s 2 0 (unitEth n) 1 0 false (now s)))
    else .next (ethFrameEnd (ethLinkDown s n) n)

/-! ## Receive (R270 to R272) -/

/-- The group entry that serves receive for an address and port: the lowest (R272). -/
def ethGroup (s : State) (n : Nat) (dst : Nat × Nat) : Option Nat :=
  (List.range 64).find? fun g => regB s (Reg.ethGrpPort n g) 31 && (reg s (Reg.ethGrpAddr n g)).toNat == dst.1
    && regF s (Reg.ethGrpPort n g) 15 0 == dst.2

/-- The destination address is one that the port accepts (R270). -/
def ethAccepts (s : State) (n : Nat) (bs : List Byte) : Bool :=
  let dst := bs.take 6
  regB s (Reg.ethRxCfg n) 29 || dst == ethMac s n || dst == List.replicate 6 0xFF#8
    || [0x011B19000000, 0x0180C200000E].contains (beNat dst) || dst == groupMac 0xE0000181 || dst == groupMac 0xE000006B
    || (List.range 64).any (fun g => regB s (Reg.ethGrpPort n g) 31 && dst == groupMac (reg s (Reg.ethGrpAddr n g)).toNat)

/-- A frame for the host goes to a ring as a frame entry, or is lost (R53, R271). -/
def ethToHost (s : State) (n ring : Nat) (bs : List Byte) (e : Edge) : State :=
  let payload := wordsBytes (stampField e.stamp e.epoch false) ++ bs
  if hrRoom s ring payload.length then hrWrite s ring 4 0 false payload else count s (Reg.ethRxDrop n) 15 8 1

/-- DET_EN_UDP, limited per port (R271, R274). -/
def ethUdpFire (s : State) (n : Nat) (inj : Bool) : State :=
  fire s 0x29 (unitEth n) 0 0 inj (some (limitKey 0x29 (unitEth n) 0))

/-- The group of a 61162-450 frame, which the intake takes (R271). -/
def eth450 (s : State) (n : Nat) (bs : List Byte) : Option Nat :=
  let tagGood := if regB s (Reg.ethRxCfg n) 28 then ethTag bs == some (regF s (Reg.ethRxCfg n) 11 0) else (ethTag bs).isNone
  if regB s (Reg.ethRxCfg n) 31 && ethUdp bs && tagGood && ((udpBytes bs).drop 8).take 6 == ascii "UdPbC" ++ [0] then
    ethGroup s n (udpDst bs)
  else none

/-- An accepted frame goes to the PTP engine, to the 61162-450 intake or to the host (R271). -/
def ethRoute (s : State) (n : Nat) (bs : List Byte) (e : Edge) (size : Nat) : State :=
  let host (s : State) : State := ethToHost s n (regF s (Reg.ptpPortId n) 19 16) bs e
  match isPtp bs, ptpPlace bs with
  | true, some (p, udp) =>
    if !ptpMine s n bs p udp then host s
    else if ptpTakes s n bs p then ptpReceive s n bs p e
    else
      let foreign := ptpState s n == 2 && (ptpType bs p == 0 || ptpType bs p == 8)
      host (if foreign then count s (Reg.ptpCounts n) 31 16 1 else s)
  | true, none => host s
  | false, _ => match eth450 s n bs with
    | some g =>
      let (s, inj) := injected s 0x29 [unitEth n]
      if inj || !ipSumGood bs || !udpSumGood bs then ethUdpFire (count s (Reg.eth450Err n) 7 0 1) n inj
      else
        let v := eth s n
        let d : Datagram := ⟨bs, e, g, size, reg s (Reg.ethGrpName n g), regF s (Reg.ethRxCfg n) 27 26, reg s (Reg.ethDupCfg n)⟩
        setEth s n { v with buffer := v.buffer ++ [d] }
    | none =>
      if regB s (Reg.ethRxCfg n) 30 then ethToHost s n (regF s (Reg.ethRxCfg n) 19 16) bs e
      else count s (Reg.ethRxDrop n) 15 8 1

/-- ETH_FRAME_RECEIVED (R269 to R271): a frame whose SFD passes the lane at this tick is stamped, judged and routed. -/
def execEthFrameReceived (n : Fin 4) (bytes : List Byte) (fcs : Word) (taps : Fin 256) (s : State) : Host.Outcome State Fault Refusal :=
  let n := n.val
  if !(ethOn s n && (eth s n).link && !s.integ.lost.contains n) then .next s
  else
    let (s, e) := convert s (160 + n) taps.val
    let size := bytes.length + 4
    let long := decide ((if (ethTag bytes).isSome then 1522 else 1518) < size)
    let (s, inj) := injected s 0x28 [unitEth n]
    let bad (s : State) : State := fire s 0x28 (unitEth n) 0 0 inj (some (limitKey 0x28 (unitEth n) 0))
    if inj then .next (bad (count s (Reg.ethRxErr n) 31 16 1))
    else if size < 64 || long then .next (bad (count s (Reg.ethRxErr n) 15 8 1))
    else if fcs != crc32 bytes then .next (bad (count s (Reg.ethRxErr n) 31 16 1))
    else if ethType bytes == 0x8808 then .next (count s (Reg.ethRxDrop n) 7 0 1)
    else if !ethAccepts s n bytes then .next (count s (Reg.ethRxDrop n) 31 16 1)
    else
      let s := count s (Reg.ethRxFrames n) 31 0 1
      if 16384 < (eth s n).buffer.foldl (fun a d => a + d.size) size then .next (count s (Reg.ethRxErr n) 7 0 1)
      else .next (ethRoute s n bytes e size)

/-! ## Parts (R273 to R276) -/

/-- A piece of a datagram: a well-formed part, a malformed one, or one without LF. -/
inductive Piece where
  | part (bytes : List Byte)
  | malformed
  deriving DecidableEq, Repr

/-- Where the reading of a part stands: before a start character, in a TAG block, behind a block, in the sentence proper, or in bytes to be
discarded up to the next LF. -/
inductive PartAt where
  | start
  | tag
  | afterTag
  | sentence
  | bad
  deriving DecidableEq, Repr

/-- The state behind a byte of a part other than the LF of a sentence (R136, R273, R274). -/
def partStep (st : PartAt) (b : Byte) : PartAt :=
  match st with
  | .start => if b == 0x5C#8 then .tag else if b == 0x24#8 || b == 0x21#8 then .sentence else .bad
  | .tag => if b == 0x5C#8 then .afterTag else .tag
  | .afterTag => if b == 0x5C#8 then .tag else if b == 0x24#8 || b == 0x21#8 then .sentence else .bad
  | .sentence => .sentence
  | .bad => .bad

/-- A payload split into pieces: each ends at an LF, or with the payload; the bytes of the present one are held in acc, last first. -/
def splitParts : List Byte → PartAt → List Byte → List Piece
  | [], _, acc => if acc.isEmpty then [] else [.malformed]
  | b :: bs, st, acc =>
    if b == 0x0A#8 then (if st == .sentence then .part (b :: acc).reverse else .malformed) :: splitParts bs .start []
    else splitParts bs (partStep st b) (b :: acc)

/-- The fields of the TAG blocks at the head of a part, with a bound on the number of blocks. -/
def partFields : Nat → List Byte → List (List Byte)
  | 0, _ => []
  | fuel + 1, bs =>
    match bs with
    | b :: rest =>
      if b == 0x5C#8 then
        let inside := rest.takeWhile (fun c => c != 0x5C#8)
        splitComma (inside.takeWhile (fun c => c != 0x2A#8)) [] ++ partFields fuel (rest.drop (inside.length + 1))
      else []
    | [] => []
where
  /-- Text split at commas. -/
  splitComma : List Byte → List Byte → List (List Byte)
    | [], acc => [acc.reverse]
    | c :: cs, acc => if c == 0x2C#8 then acc.reverse :: splitComma cs [] else splitComma cs (c :: acc)

/-- The value of the first field of a name. -/
def tagValue (name : String) (fs : List (List Byte)) : Option (List Byte) :=
  (fs.find? fun f => f.take 2 == ascii name).map (·.drop 2)

/-- The line count of a part: 1 to 999, or 0 (R275). -/
def partLine (fs : List (List Byte)) : Nat :=
  match tagValue "n:" fs with
  | none => 0
  | some t => match decVal t with
    | some v => if t.isEmpty || decide (999 < v) then 0 else v
    | none => 0

/-- The SFI that a part itself carries. -/
def partSfi (fs : List (List Byte)) : Option (List Byte) := (tagValue "s:" fs).filter fun t => !t.isEmpty

/-- The parts of a datagram that pass R274 under a checksum policy, each with its SFI and line count: the SFI comes from the nearest earlier
part where it has none (R275). k of them have passed; those behind the 255th are discarded, and count once as malformed. -/
def judgeParts (s : State) (n sum : Nat) : List Piece → Nat → Option (List Byte) → State × List (List Byte × Option (List Byte) × Nat)
  | [], _, _ => (s, [])
  | .malformed :: ps, k, sfi => judgeParts (ethUdpFire (count s (Reg.eth450Err n) 31 24 1) n false) n sum ps k sfi
  | .part bs :: ps, k, sfi =>
    let (s, inj) := injected s 0x29 [unitEth n]
    if inj then judgeParts (ethUdpFire (count s (Reg.eth450Err n) 23 16 1) n true) n sum ps k sfi
    else if 256 < bs.length then judgeParts (ethUdpFire (count s (Reg.eth450Err n) 15 8 1) n false) n sum ps k sfi
    else if (sumPolicy sum (judgeText bs).verdict).isNone then
      judgeParts (ethUdpFire (count s (Reg.eth450Err n) 23 16 1) n false) n sum ps k sfi
    else if 255 ≤ k then judgeParts (if k == 255 then count s (Reg.eth450Err n) 31 24 1 else s) n sum ps (k + 1) sfi
    else
      let fs := partFields 256 bs
      let sfi := (partSfi fs).or sfi
      match judgeParts s n sum ps (k + 1) sfi with
      | (s, rest) => (s, (bs, sfi, partLine fs) :: rest)

/-- The duplicate table enters a line count for a source, or finds it seen within the window (R276): true for a duplicate. -/
def dupCheck (s : State) (window : Nat) (sfi : List Byte) (group : Word) (line : Nat) : State × Bool :=
  let t := s.time.tb
  match s.dups.find? (fun d => d.sfi == sfi && d.group == group) with
  | some d =>
    let seen := (d.counts.find? (fun c => c.1 == line)).filter fun c => decide (t ≤ c.2 + window * Config.tickMs)
    let counts := if seen.isSome then d.counts
      else ((d.counts.filter fun c => c.1 != line).drop
        (if d.counts.any (fun c => c.1 == line) then 0 else d.counts.length - 31)) ++ [(line, t)]
    let d' := { d with counts := counts, seenTb := t }
    ({ s with dups := s.dups.map fun x => if x.sfi == sfi && x.group == group then d' else x }, seen.isSome)
  | none =>
    let d : DupSource := ⟨sfi, group, [(line, t)], t⟩
    if s.dups.length < 256 then ({ s with dups := s.dups ++ [d] }, false)
    else match minBy (·.seenTb) s.dups with
      | some old => (count { s with dups := s.dups.erase old ++ [d] } Reg.ethDupStatus 15 0 1, false)
      | none => (s, false)

/-- A part of a datagram goes to duplicate checking and then to admission (R273, R276). -/
def partArrives (s : State) (n : Nat) (d : Datagram) (total k : Nat) (p : List Byte × Option (List Byte) × Nat) : State :=
  let (bs, sfi, line) := p
  let name := d.name
  let key6 := (sfi.getD []).take 6
  let key := 2 * 2 ^ 92 + beNat (key6 ++ List.replicate (6 - key6.length) 0) * 2 ^ 32 + name.toNat
  let s := if sfi.isNone then count s (Reg.eth450Counts n) 7 0 1 else s
  let drop (s : State) (inj : Bool) : State :=
    let s := count s (Reg.eth450Counts n) 15 8 1
    if bit d.dup 30 then fire s 0x2A (unitEth n) 0 0 inj (some (limitKey 0x2A (unitEth n) 0)) else s
  let pass (s : State) : State :=
    let a : Arrived := {
      typ := 4, src := unitEth n, key := key, stage := some (130996 + 19 * n), epoch := d.stamp.epoch, lost := false, inj := false,
      charErr := false, woke := false, sum := 3, rxq0 := false, first := d.stamp.stamp, last := d.stamp.stamp,
      aux0 := line + k * 65536 + total * 2 ^ 24, aux1 := beAt d.bytes (ethOff d.bytes + 12) 4,
      aux2 := beAt d.bytes (ethOff d.bytes + 20) 2 + n * 65536, payload := bs, steps := d.stamp.steps }
    admitRecord (count s (Reg.eth450Counts n) 31 16 1) a
  match sfi with
  | some f =>
    if line == 0 || !bit d.dup 31 then pass s
    else
      let (s, inj) := injected s 0x2A [unitEth n]
      let (s, dup) := dupCheck s (max 1 (fld d.dup 15 0)) f name line
      if inj || dup then drop s inj else pass s
  | none => pass s

/-- Parts in order, numbered from k. -/
def partsArrive (s : State) (n : Nat) (d : Datagram) (total : Nat) : Nat → List (List Byte × Option (List Byte) × Nat) → State
  | _, [] => s
  | k, p :: ps => partsArrive (partArrives s n d total k p) n d total (k + 1) ps

/-- ETH_DATAGRAM_SPLIT (R273 to R276): the oldest datagram of the buffer is split, and its parts are admitted. -/
def execEthDatagramSplit (n : Fin 4) (s : State) : Host.Outcome State Fault Refusal :=
  let n := n.val
  match (eth s n).buffer with
  | [] => .next s
  | d :: rest =>
    if !ticking s then .next s
    else
      let s := setEth s n { eth s n with buffer := rest }
      let pieces := splitParts (((udpBytes d.bytes).drop 14)) .start []
      let (s, parts) := judgeParts s n d.sum pieces 0 none
      .next (partsArrive s n d parts.length 0 parts)

/-! ## Transmit (R277 to R282) -/

/-- The MAC can start a frame (R277): link up, enabled, not wedged, and 96 ns since the last FCS. -/
def ethIdle (s : State) (n : Nat) : Bool :=
  let v := eth s n
  ethOn s n && v.link && v.tx.isNone && v.closing.isNone && decide (v.endTb + 24 ≤ s.time.tb)

/-- How far ahead the message timestamp point of a frame chosen now leaves, in units of 2^-16 ns: at the first instant of the 8 ns symbol grid
that lies at least 96 ns on (R278). -/
def ethGrid (s : State) : Nat := 96 * 65536 + (((s.time.gridPhase : Int) - tbTime s) % 524288).toNat

/-- The departure stamp of that frame (R102, R278). -/
def ethStamp (s : State) (n d : Nat) : Edge :=
  ⟨stMove (now s) ((d + regF s (Reg.ptpLat n) 31 16 * 4096 : Nat) : Int), newestEpoch s n, s.time.steps⟩

/-- A frame enters transmission. -/
def ethBegin (s : State) (n d : Nat) (f : TxFrame) (bs : List Byte) (e : Edge) (launch : Option (Word × Word)) : State :=
  let late := match launch with
    | some (sec, ns) => decide (108 * 65536 < dNow s sec ns * 65536 + (stFrac (now s) : Int) + (d : Nat))
    | none => false
  let s := if late then count s (Reg.ethTxErr n) 31 24 1 else s
  setEth s n { eth s n with tx := some (f, bs, e), endTb := s.time.tb + ceilDiv (d + (bs.length + 4) * 524288) 262144 }

/-- The frame of a listener copy (R281, R282): an inserted block carries the departure stamp. -/
def ethDatagram (s : State) (n : Nat) (c : Copy) (t : Stamp) : State × List Byte :=
  let v := eth s n
  let g := fld c.w0 13 8
  let (s, tag) := if tagWanted c then tagBlock s c.listener c.w1 c.src t (fun _ => 0) else (s, [])
  let dst := (reg s (Reg.ethGrpAddr n g)).toNat
  let src := (reg s (Reg.ethIpv4 n)).toNat
  let tx := Reg.ethTxCfg n
  let udp := udpDatagram src dst (regF s (Reg.ethUdpSrc n) 15 0) (regF s (Reg.ethGrpPort n g) 15 0) true
    (ascii "UdPbC" ++ [0] ++ tag ++ c.body)
  let ip := ipHeader (regF s tx 27 22) (20 + udp.length) v.ident (max 1 (regF s tx 15 8)) src dst
  let vlan := tagBytes (regB s tx 31) (regF s tx 30 28) (regF s (Reg.ethRxCfg n) 11 0)
  (setEth s n { v with ident := (v.ident + 1) % 65536 },
    padFrame (groupMac dst ++ ethMac s n ++ vlan ++ natBe 2 0x0800 ++ ip ++ udp))

/-- The head frame of a launch queue, where it is eligible (R277). -/
def ethHead (s : State) (n q : Nat) : Option LaunchFrame :=
  ((eth s n).launches.find? (fun f => f.queue == q)).filter fun f => launched s f.launch f.setTb f.released

/-- The first queue that has something eligible starts it (R277). With a queue named, only a copy of that queue starts, and only when its
turn has come. -/
def ethQueues (s : State) (n : Nat) (only : Option Nat) : List Nat → State
  | [] => s
  | q :: qs =>
    match ethHead s n q with
    | some f =>
      if only.isSome then s
      else
        let s := setEth s n { eth s n with launches := (eth s n).launches.erase f }
        let d := ethGrid s
        ethBegin s n d (.launch f) f.bytes (ethStamp s n d) f.launch
    | none =>
      if s.pair.releasing.contains (epEth n) then ethQueues s n only qs
      else if only.isSome && only != some q then
        (if (candidates s 3 n (some q) 0 []).isEmpty then ethQueues s n only qs else s)
      else match lqNext s 3 n (some q) 0 with
        | (s, some c) =>
          let d := ethGrid s
          let e := ethStamp s n d
          let (s, bs) := ethDatagram s n c e.stamp
          ethBegin s n d (.copy c) bs e c.launch
        | (s, none) => if only.isSome then s else ethQueues s n only qs

/-- The MAC starts a frame: of the PTP engine, or of the first queue that has something eligible (R277). -/
def ethStart (s : State) (n : Nat) (only : Option Nat) : State :=
  if !ethIdle s n then s
  else match (eth s n).ptp.queue with
    | f :: fs =>
      if only.isSome then s
      else
        let v := eth s n
        let s := setEth s n { v with ptp := { v.ptp with queue := fs } }
        let d := ethGrid s
        let e := ethStamp s n d
        ethBegin s n d (.ptp f) (ptpDepart f e.stamp) e none
    | [] => ethQueues s n only (List.range 8)

/-- ETH_FRAME_START (R277). -/
def execEthFrameStart (n : Fin 4) (s : State) : Host.Outcome State Fault Refusal := .next (ethStart s n.val none)

/-- The echo of an ETH_LAUNCH frame (R279). -/
def ethEcho (s : State) (n : Nat) (f : LaunchFrame) (e : Edge) : State :=
  let payload := wordsBytes (stampField e.stamp e.epoch false) ++ f.bytes
  if !f.echo then s
  else if hrRoom s f.ring payload.length then hrWrite s f.ring 3 0 false payload
  else count s (Reg.ethTxErr n) 15 8 1

/-- ETH_FRAME_DEPARTED (R102, R103, R239, R279): the frame in transmission has ended, with the FCS over its bytes behind them. -/
def execEthFrameDeparted (n : Fin 4) (s : State) : Host.Outcome State Fault Refusal :=
  let n := n.val
  let v := eth s n
  match v.tx with
  | none => .next s
  | some (f, bs, e) =>
    if !(ticking s && decide (v.endTb ≤ s.time.tb)) then .next s
    else
      let s := setEth s n { v with tx := none }
      let s := emit (count s (Reg.ethTxFrames n) 31 0 1) (.ethFrame n (bs ++ natLe 4 (crc32 bs).toNat))
      let s := match f with
        | .ptp f => ptpDeparted s n f e
        | .launch f => ethEcho (finishAt s f.slot stDone (bs.length + 4) 0 e.stamp) n f e
        | .copy c => echoCopy s c e bs
      .next (ethFrameEnd s n)

/-! ## Commands (R277, R279, R283 to R285) -/

/-- What keeps an ETH_LAUNCH from becoming pending: the port is wedged, or disabled, or its link is down (R344, R279, R269). -/
def ethRefusal (s : State) (n : Nat) : Option Nat :=
  if isWedged s (unitEth n) then some stWedged
  else if !portEn s 2 n then some stDiscarded
  else if !(eth s n).link then some stLinkFailed
  else none

/-- An ETH_LAUNCH that cannot become pending completes. -/
def ethRefused (s : State) (slot n status : Nat) : State :=
  finish (if status == stLinkFailed then count s (Reg.ethTxErr n) 23 16 1 else s) slot status 0 0

/-- The frame of an ETH_LAUNCH has been read: it becomes pending in its queue (R277). -/
def ethPend (s : State) (slot : Nat) (c : HostCmd) (data : List Byte) : State :=
  let w1 := cmdW c 1
  let n := fld w1 1 0
  match ethRefusal s n with
  | some st => ethRefused s slot n st
  | none =>
    let f : LaunchFrame := {
      slot := slot, queue := fld w1 10 8, bytes := data, launch := if bit w1 16 then some (cmdW c 5, cmdW c 6 &&& 0x3FFFFFFF#32) else none,
      released := false, setTb := s.time.tb, echo := bit w1 17, ring := fld w1 27 24 }
    let v := eth s n
    cmdOpen (setEth s n { v with launches := v.launches ++ [f] }) slot

/-- The frames of ETH_LAUNCH that are pending in a launch queue. -/
def ethPending (s : State) (n q : Nat) : Nat := ((eth s n).launches.filter (fun f => f.queue == q)).length

/-- ETH_LAUNCH (R269, R277, R279): the frame is read from host memory. With 32 frames pending in its queue the command waits before it, and
later commands on the port wait behind it (R40). -/
def execEthLaunch (slot : Fin 256) (s : State) : Host.Outcome State Fault Refusal :=
  match cmdReady s slot.val 0x70 with
  | none => .next s
  | some c =>
    let n := fld (cmdW c 1) 1 0
    match ethRefusal s n with
    | some st => .next (ethRefused s slot.val n st)
    | none =>
      .next (if dmaFree s && decide (ethPending s n (fld (cmdW c 1) 10 8) < 32) then
        startFetch s slot.val (addr64 (cmdW c 2) (cmdW c 3)) (cmdW c 4).toNat else s)

/-- PORT_SET of an Ethernet port (R283). -/
def ethPortSet (s : State) (n slot : Nat) (w : Nat → Word) : State :=
  if fld (w 3) 27 26 == 3 then finish s slot stBadParam 0 0
  else
    let was := regF s (Reg.ethCtrl n) 30 29
    let s := setF s (Reg.ethCtrl n) 30 29 (fld (w 2) 30 29)
    let s := setReg (setReg s (Reg.ethRxCfg n) (w 3 &&& 0xFC0F0FFF#32)) (Reg.ethTxCfg n) (w 4 &&& 0xFFC0FF00#32)
    let s := setReg (setReg s (Reg.ethUdpSrc n) (w 5 &&& 0xFFFF#32)) (Reg.ethDupCfg n) (w 6 &&& 0xC000FFFF#32)
    finish (if was == fld (w 2) 30 29 then s else ethLinkDown s n) slot stDone 0 0

/-- PORT_ENABLE of an Ethernet port (R284). -/
def ethPortEnable (s : State) (n slot : Nat) : State := finish (setF s (Reg.ethCtrl n) 31 31 1) slot stDone 0 0

/-- PORT_DISABLE of an Ethernet port (R285): it waits for the frame in transmission. -/
def ethPortDisable (s : State) (n slot : Nat) : State :=
  if (eth s n).tx.isNone then ethStop s n slot
  else setCmd (setEth s n { eth s n with closing := some slot }) slot (fun c => { c with phase := .running })

/-- ETH_STATUS as read. -/
def ethStatus (s : State) (n : Nat) : Word :=
  let v := eth s n
  let pend := v.launches.length
  BitVec.ofNat 32 (b2n v.link * 2 ^ 31 + b2n (shown s (owns s (epEth n))) * 2 ^ 30 + b2n v.speedFault * 2 ^ 29 + b2n v.tx.isSome * 2 ^ 28 + pend)

/-! ## PHY management (R288) -/

/-- A write of ETH_MDIO_CMD starts a frame, unless one is in progress. -/
def mdioWrite (s : State) (v : Word) : State :=
  if regB s Reg.ethMdioCmd 31 then s
  else
    let cmd := v &&& 0x73FFFFFF#32
    emit (setF (setReg s Reg.ethMdioCmd (cmd ||| 0x80000000#32)) Reg.ethMdioData 31 31 0) (.mdio cmd)

/-- ETH_MDIO_CMD (R288). -/
def execEthMdioCmd (val : Word) (s : State) : Host.Outcome State Fault Refusal := .next (if bar0Writes s then mdioWrite s val else s)

/-- MDIO_FRAME_DONE (R288): a read leaves its value. -/
def execMdioFrameDone (data : BitVec 16) (s : State) : Host.Outcome State Fault Refusal :=
  if !(alive s && regB s Reg.ethMdioCmd 31) then .next s
  else
    let read := 2 ≤ regF s Reg.ethMdioCmd 29 28
    let s := setF s Reg.ethMdioCmd 31 31 0
    .next (if read then setReg s Reg.ethMdioData (BitVec.ofNat 32 (2 ^ 31 + data.toNat)) else s)

end Sys2Proof.Machine
end

