-- ==== Sys2Proof/Machine/EventIn.lean ====
section
/-! DEFINITION. Event inputs: the filter, the dead time, records and coalescing, the hold check and the FIFO
(05_event_io.md R106 to R115). -/

namespace Sys2Proof.Machine

/-- An event input beside its registers. -/
def evIn (s : State) (i : Nat) : EvIn := sget EvIn.init s.evIn i

/-- An event input changes. -/
def setEvIn (s : State) (i : Nat) (v : EvIn) : State := { s with evIn := sset EvIn.init s.evIn i v }

/-- The unit of an event input. -/
def unitEvIn (i : Nat) : Nat := unitOf 3 i

/-- ROUTE (R110). -/
def eiRoute (s : State) (i : Nat) : Nat := regF s (Reg.eiCtrl i) 27 26

/-- A level at the ball is active (R106). -/
def eiActive (s : State) (i : Nat) (high : Bool) : Bool := high != regB s (Reg.eiCtrl i) 30

/-- The input stamps and records. -/
def eiOn (s : State) (i : Nat) : Bool := ticking s && portEn s 3 i && !isWedged s (unitEvIn i)

/-- The FIFO has room (R110, R111); with ROUTE 0 it keeps nothing. -/
def eiRoom (s : State) (i : Nat) : Bool := eiRoute s i == 0 || decide ((evIn s i).fifo.length < 64)

/-! ## Records (R109) -/

/-- A record of an input is written to its FIFO; with ROUTE 0 it is discarded. DESIGN CHOICE (log 165): a record keeps the ROUTE of its
writing, and goes to the RING in force when it drains. -/
def eiPush (s : State) (i kind : Nat) (first last : Edge) (nostamp : Bool) (lost : Nat) (inj : Bool) : State :=
  let route := eiRoute s i
  if route == 0 then s
  else
    let v := evIn s i
    let w0 := kind * 2 ^ 28 + first.epoch % 16 * 2 ^ 24 + b2n nostamp * 2 ^ 23 + b2n (eiActive s i v.ball) * 2 ^ 22 + i
    let words := [BitVec.ofNat 32 w0] ++ stampWords first.stamp ++ stampWords last.stamp ++ [BitVec.ofNat 32 (min lost 0xFFFFFFFF)]
    let r : EvRec := {
      words := words, edge := first, last := last, toKennel := route % 2 == 1, toRing := decide (2 ≤ route), taken := none, inj := inj }
    setEvIn s i { v with fifo := v.fifo ++ [r] }

/-- The open coalesced record closes as a BURST (R111). DESIGN CHOICE (log 164): a record without an edge stamp names the epoch of the table
that the TDC uses as it closes. -/
def burstClose (s : State) (i : Nat) : State :=
  match (evIn s i).burst with
  | none => s
  | some b =>
    let s := setEvIn s i { evIn s i with burst := none }
    let s := count (count s (Reg.eiCounts i) 15 0 1) (Reg.eiLost i) 31 0 b.lost
    let u := unitEvIn i
    let s := fire s 0x39 u 0 0 false (some (limitKey 0x39 u 0))
    match b.first with
    | some f => eiPush s i 2 f (b.last.getD f) false b.lost b.inj
    | none =>
      let t : Edge := ⟨b.openStamp, tdcEpoch s (128 + i), b.openSteps⟩
      eiPush s i 2 t t true b.lost b.inj

/-- The open coalesced record holds stamps of a table other than the one that stamped this edge. -/
def burstOther (s : State) (i : Nat) (e : Option Edge) : Bool :=
  match e, (evIn s i).burst.bind Burst.first with
  | some e, some f => f.epoch != e.epoch
  | _, _ => false

/-- An edge joins the open coalesced record, or opens one (R111). A record holds stamps of one table (R82): an edge of another, as after a
fallback, closes it and opens the next (DEDUCED, log 156). -/
def burstEdge (s : State) (i : Nat) (e : Option Edge) (inj : Bool) : State :=
  let s := if burstOther s i e then burstClose s i else s
  let v := { evIn s i with burstNext := false }
  let b : Burst := v.burst.getD ⟨none, none, 0, s.time.tb, tickStamp s, s.time.steps, s.time.tb, false⟩
  let b := match e, b.first with
    | none, _ => { b with lost := b.lost + 1 }
    | some e, none => { b with first := some e }
    | some e, some _ => { b with last := some e, lost := b.lost + b2n b.last.isSome }
  setEvIn s i { v with burst := some { b with lastTb := s.time.tb, inj := b.inj || inj } }

/-- An accepted edge is recorded (R111); true when it did not go into a coalesced record. One whose kind is not written (a release edge with
RELEASE 0) gets no record of its own. -/
def eiRecord (s : State) (i kind : Nat) (written : Bool) (e : Option Edge) (inj : Bool) : State × Bool :=
  let v := evIn s i
  match e with
  | some f =>
    if v.burst.isNone && !v.burstNext && eiRoom s i then (if written then eiPush s i kind f f false 0 inj else s, true)
    else (burstEdge s i e inj, false)
  | none => (burstEdge s i e inj, false)

/-! ## Edges and the filter (R106 to R108) -/

/-- The candidate level is accepted (R107, R111, R112, R114). Each acceptance is an occurrence for the two detectors of the input. DESIGN
CHOICE (log 162): a burst or lost edge of the PPS input is no PPS edge for HOLD_TIMEOUT. -/
def eiAccept (s : State) (i : Nat) (e : Option Edge) : State :=
  let u := unitEvIn i
  let (s, h) := injected s 0x38 [u]
  let s := if h then fire s 0x38 u 0 0 true none else s
  let (s, b) := injected s 0x39 [u]
  let s := if b then fire s 0x39 u 0 0 true none else s
  let v := evIn s i
  let v := { v with level := !v.level, cand := none }
  if eiActive s i v.level then
    let s := setEvIn s i { v with activeTb := some s.time.tb, activeEdge := e, activeStamp := tickStamp s }
    let (s, own) := eiRecord s i 0 true e (h || b)
    match e with
    | some f => if own && ppsInput s == some i then ppsEdge s f else s
    | none => s
  else
    let s := setEvIn s i { v with activeTb := none, activeEdge := none, held := false }
    (eiRecord s i 1 (regB s (Reg.eiCtrl i) 29) e (h || b)).1

/-- WIDTH in units of 2^-16 ns. -/
def eiWidthUnits (s : State) (i : Nat) : Int := (eiWidth s i * 262144 : Nat)

/-- A candidate level ends at a time: held for the width or longer it is accepted, held for less than the width minus 4 ns it is rejected,
and between them either (R107, log 20). -/
def eiJudge (s : State) (i : Nat) (at_ : Int) : State :=
  match (evIn s i).cand with
  | none => s
  | some (from_, e) =>
    let reject (s : State) : State := count (setEvIn s i { evIn s i with cand := none }) (Reg.eiCounts i) 31 16 1
    if eiWidthUnits s i ≤ at_ - from_ then eiAccept s i e
    else if at_ - from_ < eiWidthUnits s i - 262144 then reject s
    else
      let (s, b) := takeBit s
      if b then eiAccept s i e else reject s

/-- A TDC that is overdue is forced to switch by this conversion: the open coalesced record closes, and the edges that follow open a new
one (R82, R111). -/
def eiForced (s : State) (i : Nat) : State :=
  if tdcOverdue s (128 + i) && (evIn s i).burst.isSome then
    let s := burstClose s i
    setEvIn s i { evIn s i with burstNext := true }
  else s

/-- EI_EDGE (R108): an edge at the ball, at this tick or before it by the taps it passed. It ends the level that the filter was judging. -/
def execEiEdge (i : Fin 32) (level : Bool) (taps : Fin 256) (s : State) : Host.Outcome State Fault Refusal :=
  let i := i.val
  let v := evIn s i
  if v.ball == level then .next s
  else if !eiOn s i then .next (setEvIn s i { v with ball := level })
  else
    let t := 128 + i
    let at_ : Int := tbTime s - ((tdcPos s t taps.val).2.1 : Int)
    let dead := match v.convAt with
      | some c => decide (at_ < c + 262144)
      | none => false
    let s := eiJudge s i at_
    let (s, e) : State × Option Edge :=
      if dead then (s, none)
      else
        let (s, e) := convert (eiForced s i) t taps.val
        (setEvIn s i { evIn s i with convAt := some at_ }, some e)
    let v := { evIn s i with ball := level }
    .next (setEvIn s i (if level == v.level then v else { v with cand := some (at_, e) }))

/-- EI_LEVEL_ACCEPTED (R107): the candidate level has held for the filter width. -/
def execEiLevelAccepted (i : Fin 32) (s : State) : Host.Outcome State Fault Refusal :=
  let i := i.val
  match (evIn s i).cand with
  | none => .next s
  | some (from_, e) => if eiOn s i && decide (eiWidthUnits s i ≤ tbTime s - from_) then .next (eiAccept s i e) else .next s

/-- BURST_CLOSE (R111): 1 µs without an accepted edge, or 10 ms open, and room in the FIFO. -/
def execBurstClose (i : Fin 32) (s : State) : Host.Outcome State Fault Refusal :=
  let i := i.val
  match (evIn s i).burst with
  | none => .next s
  | some b =>
    if eiOn s i && eiRoom s i
        && (decide (Config.tickUs ≤ sinceTb s b.lastTb) || decide (10 * Config.tickMs ≤ sinceTb s b.openTb)) then
      .next (burstClose s i)
    else .next s

/-- EI_HELD (R112, R113): the active level has held for EI_HOLD. A record without an edge stamp names the epoch of the table that the TDC
uses (log 164). -/
def execEiHeld (i : Fin 32) (s : State) : Host.Outcome State Fault Refusal :=
  let i := i.val
  let hold := regF s (Reg.eiHold i) 15 0
  match (evIn s i).activeTb with
  | none => .next s
  | some tb =>
    if eiOn s i && !(evIn s i).held && hold != 0 && decide (hold * Config.tickMs ≤ sinceTb s tb) then
      let s := burstClose s i
      let v := evIn s i
      let s := setEvIn s i { v with held := true }
      let last : Edge := ⟨tickStamp s, 0, s.time.steps⟩
      let s := match v.activeEdge with
        | some f => eiPush s i 3 f last false 0 false
        | none => eiPush s i 3 ⟨v.activeStamp, tdcEpoch s (128 + i), s.time.steps⟩ last true 0 false
      .next (fire s 0x38 (unitEvIn i) 0 0 false none)
    else .next s

/-! ## The FIFO (R110) -/

/-- The record of R157 that an entry of the FIFO is. -/
def eiArrived (i : Nat) (r : EvRec) : Arrived :=
  { typ := 5, src := unitEvIn i, key := 3 * 2 ^ 92 + i * 2 ^ 80, stage := none, epoch := r.edge.epoch, lost := false, inj := r.inj,
    charErr := false, woke := false, sum := 3, rxq0 := false, first := r.edge.stamp, last := r.last.stamp, aux0 := 0, aux1 := 0, aux2 := 0,
    payload := wordsBytes r.words, steps := r.edge.steps }

/-- The Kennel takes the head of the FIFO, at its commit or its refusal. -/
def eiToKennel (s : State) (i : Nat) (r : EvRec) : State × EvRec :=
  if !r.toKennel then (s, r)
  else
    let n := s.herder.nextSeq
    let s := admitRecord s (eiArrived i r)
    let taken := if s.herder.nextSeq == n then none else (s.herder.waiting.getLast?).map fun q => (q.seq, q.talker)
    (s, { r with toKennel := false, taken := taken })

/-- The host ring takes the head of the FIFO where it has room. SEQ and TALKER of a record that was not committed are not stated by the
spec: they are free (log 20). -/
def eiToRing (s : State) (i : Nat) (r : EvRec) : State × EvRec :=
  let ring := regF s (Reg.eiCtrl i) 19 16
  if !r.toRing || !hrRoom s ring 80 then (s, r)
  else
    let (s, seq, talker) := match r.taken with
      | some (q, t) => (s, q, t)
      | none =>
        let (s, a) := takeWord s
        let (s, b) := takeWord s
        (s, a.toNat, b.toNat % 4096)
    (hrWrite s ring 2 0 r.inj (wordsBytes (recWords (eiArrived i r) seq talker)), { r with toRing := false })

/-- EI_FIFO_DRAIN (R110): the oldest record goes to its destinations, and leaves when each has taken it. -/
def execEiFifoDrain (i : Fin 32) (s : State) : Host.Outcome State Fault Refusal :=
  let i := i.val
  match (evIn s i).fifo with
  | [] => .next s
  | r :: rs =>
    if !alive s then .next s
    else
      let (s, r) := eiToKennel s i r
      let (s, r) := eiToRing s i r
      .next (setEvIn s i { evIn s i with fifo := if r.toKennel || r.toRing then r :: rs else rs })

/-! ## Port commands (R113, R115) -/

/-- EI_STATUS as read. -/
def eiStatus (s : State) (i : Nat) : Word :=
  let v := evIn s i
  BitVec.ofNat 32 (b2n (portEn s 3 i && eiActive s i v.level) * 2 ^ 31 + b2n v.held * 2 ^ 30 + b2n v.burst.isSome * 2 ^ 29
    + min 64 v.fifo.length)

/-- PORT_SET of an event input (R115). DESIGN CHOICE (log 166): the coalesced record that it closes takes the new POL and ROUTE. -/
def eiPortSet (s : State) (i slot : Nat) (w : Nat → Word) : State :=
  if isWedged s (unitEvIn i) then finish s slot stWedged 0 0
  else
    let en := reg s (Reg.eiCtrl i) &&& 0x80000000#32
    let s := setReg s (Reg.eiCtrl i) ((w 2 &&& 0x6C0F0000#32) ||| en)
    let s := setReg (setReg s (Reg.eiFilt i) (w 3 &&& 0x8000FFFF#32)) (Reg.eiHold i) (w 4 &&& 0xFFFF#32)
    finish (burstClose s i) slot stDone 0 0

/-- PORT_ENABLE of an event input (R113): the level at the ball is the accepted level, and an active one is held from this tick. -/
def eiPortEnable (s : State) (i slot : Nat) : State :=
  if isWedged s (unitEvIn i) then finish s slot stWedged 0 0
  else if portEn s 3 i then finish s slot stDone 0 0
  else
    let s := setF s (Reg.eiCtrl i) 31 31 1
    let v := evIn s i
    let v := { v with level := v.ball, cand := none, convAt := none, held := false, activeEdge := none, activeStamp := tickStamp s }
    let s := setEvIn s i { v with activeTb := if eiActive s i v.ball then some s.time.tb else none }
    finish s slot stDone 0 0

/-- An input is disabled: its FIFO and its open record are discarded; their number (R115). -/
def eiStop (s : State) (i : Nat) : State × Nat :=
  let v := evIn s i
  let n := v.fifo.length + b2n v.burst.isSome
  (setEvIn s i { v with fifo := [], burst := none, burstNext := false, cand := none, held := false, activeTb := none, activeEdge := none }, n)

/-- PORT_DISABLE of an event input (R115). -/
def eiPortDisable (s : State) (i slot : Nat) : State :=
  let (s, n) := eiStop s i
  finish (setF s (Reg.eiCtrl i) 31 31 0) slot stDone 0 n

end Sys2Proof.Machine
end

