-- ==== Sys2Proof/Machine/SerialTx.lean ====
section
/-! DEFINITION. Serial transmitters: staging, start and end of items, the Leash, half duplex, and the port commands
(06_serial_ports.md R122, R128 to R131, R140 to R148). -/

namespace Sys2Proof.Machine

/-! ## Items (R128 to R131, R231, R232) -/

/-- A copy as the transmitter takes it. A block is wanted where R236 inserts one. -/
def txItem (c : Copy) (late : Bool) : TxItem :=
  { listener := c.listener, echo := bit c.w0 25, echoRing := fld c.w0 23 20, body := c.body,
    tag := if tagWanted c then some (c.w1, c.src) else none, launch := c.launch, late := late, inj := c.inj }

/-- D(clock, t) as it was one TB tick earlier. -/
def dBefore (s : State) (sec ns : Word) : Int :=
  let clk := (((s.time.clk : Int) - (2 ^ 40 : Nat) - (reg s Reg.rate).toInt) % (clkMod : Int)).toNat
  dNow { s with time := { s.time with clk := clk } } sec ns

/-- A launched item that is taken now was not staged at the first tick of R129: it is late (R130). -/
def stageLate (s : State) (c : Copy) : Bool :=
  match c.launch with
  | none => false
  | some (sec, ns) => decide (-256 ≤ dBefore s sec ns)

/-- The transmitter of a port can take an item: open, not busy, not stopped by the Leash, no settings pending. -/
def txFree (s : State) (p : Nat) : Bool :=
  let v := serial s p
  ticking s && epOpen s 1 p && v.staged.isNone && v.run.isNone && v.setTx.isNone && !regB s (Reg.spStatus p) 13

/-- The transmitter takes the next item of its queue (R231, R232): staged, or waiting for its start edge. -/
def serialTake (s : State) (p : Nat) : State :=
  match lqNext s 1 p none 256 with
  | (s, none) => s
  | (s, some c) => setSerial s p { serial s p with staged := some (txItem c (stageLate s c)), attempts := 0, gap := 1, collInj := false }

/-- An item goes onto the line with its start edge at a TB time, to the nearest 50 ps: its block is built against that edge, and its bytes are
cut to the data bits of a character (R124, R128, R131, R236, R237). -/
def txBegin (s : State) (p : Nat) (it : TxItem) (at_ : Int) (late : Bool) : State :=
  let (s, q) := round50ps s at_
  let at_ := q * 16384 / 5
  let adj := sext 24 (regF s (Reg.spTxAdj p) 23 0)
  let st := stMove (now s) (at_ - tbTime s - adj)
  let (s, block) := match it.tag with
    | some (w1, src) => if spMode s p == 2 then (s, []) else tagBlock s it.listener w1 src st (charsTime s p)
    | none => (s, [])
  let bytes := (block ++ it.body).map (charMask s p)
  let r : TxRun := {
    item := it, bytes := bytes, start := ⟨st, newestEpoch s (p / 16), s.time.steps⟩, startAt := at_, base := at_, sent := 0,
    endAt := at_ + (charsTime s p bytes.length : Nat), pause := none }
  let s := if late then count s (Reg.spTxErr p) 15 8 1 else s
  emit (setSerial s p { serial s p with staged := none, run := some r }) (.serialItem p bytes st)

/-- The first PS edge from a TB time on: less than one PS period later, the offset free (R128, log 20). -/
def psEdge (s : State) (t : Int) : State × Int :=
  let (s, w) := takeWord s
  (s, t + (w.toNat % 555556 : Nat))

/-- Where the start edge of a staged item goes (R128, R129, R130): its TB time, and whether it is late; none while it is still ahead. -/
def txPlace (s : State) (p : Nat) (it : TxItem) : State × Option (Int × Bool) :=
  let t := tbTime s
  let free := (serial s p).freeAt
  let soon : State × Int := if decide (free ≤ t) && decide (t < free + 262144) && decide (0 < free) then (s, free) else psEdge s t
  match it.launch with
  | none => (soon.1, some (soon.2, false))
  | some (sec, ns) =>
    if it.late then (soon.1, some (soon.2, true))
    else
      let at_ := t - dNow s sec ns * 65536 - (stFrac (now s) : Int) + sext 24 (regF s (Reg.spTxAdj p) 23 0)
      if t + 262144 < at_ then (s, none)
      else if at_ + 262144 ≤ t || at_ < free then (soon.1, some (soon.2, true))
      else (s, some (at_, false))

/-- SERIAL_ITEM_STAGE (R129): at staging time the scheduler hands over the item that it would choose. -/
def execSerialItemStage (p : Fin 128) (s : State) : Host.Outcome State Fault Refusal :=
  let p := p.val
  let due := s.lq.copies.any fun c => boundTo c.w0 1 p none && c.launch.isSome && copyReady s 256 c
  if txFree s p && spMode s p != 1 && due then .next (serialTake s p) else .next s

/-- SERIAL_ITEM_START (R128): the transmitter places the start edge of the item it holds. -/
def execSerialItemStart (p : Fin 128) (s : State) : Host.Outcome State Fault Refusal :=
  let p := p.val
  let v := serial s p
  match v.staged with
  | none => .next s
  | some it =>
    if !(ticking s && portEn s 0 p && owns s (epSerial p) && spMode s p != 1 && v.run.isNone && !regB s (Reg.spStatus p) 13
        && decide (v.freeAt ≤ tbTime s)) then .next s
    else match txPlace s p it with
      | (_, none) => .next s
      | (s, some (at_, late)) => .next (txBegin s p it at_ late)

/-- The departure of an item is written, with its echo (R131, R239). -/
def txDeparted (s : State) (p : Nat) (r : TxRun) : State :=
  let s := count s (Reg.spTxCount p) 31 0 1
  let s := setReg (setReg s (Reg.spTxStampSec p) (shortSec r.start.stamp)) (Reg.spTxStampNs p) (shortNs r.start.stamp)
  if r.item.echo then echoWrite s r.item.listener r.item.echoRing r.start r.bytes r.item.inj else s

/-- SERIAL_ITEM_END (R131): the last stop bit of the item has ended; a release that waited for it takes place (R367). -/
def execSerialItemEnd (p : Fin 128) (s : State) : Host.Outcome State Fault Refusal :=
  let p := p.val
  let v := serial s p
  match v.run with
  | none => .next s
  | some r =>
    if !ticking s || r.pause.isSome || v.setTx.isSome || decide (tbTime s < r.endAt) then .next s
    else
      let v := { v with run := none, freeAt := r.endAt, attempts := 0, gapTb := s.time.tb }
      let s := setSerial s p (if spMode s p == 1 then { v with idleTb := s.time.tb, lag := true } else v)
      .next (releaseDone (txDeparted s p r) (epSerial p))

/-- LEASH_TIMEOUT (R143): no XON within SP_LEASH_TIMEOUT of the XOFF. -/
def execLeashTimeout (p : Fin 128) (s : State) : Host.Outcome State Fault Refusal :=
  let p := p.val
  let limit := regF s (Reg.spLeashTimeout p) 15 0
  match (serial s p).xoffTb with
  | none => .next s
  | some tb =>
    if ticking s && limit != 0 && decide (limit * Config.tickMs ≤ sinceTb s tb) then
      .next (count (leashResume s p) (Reg.spTxErr p) 7 0 1)
    else .next s

/-! ## Half duplex (R146 to R148) -/

/-- The dice of a port are rolled: a value from 1 to 16 (R147, R148). -/
def rollDice (s : State) (p : Nat) : State × Nat :=
  let v := serial s p
  let w := Config.diceNext ((v.dice.getD (Config.diceSeed p)) ^^^ (region s (p / 16)).stir)
  (setSerial s p { v with dice := some w }, w.toNat % 16 + 1)

/-- An attempt collides (R147): the dice give the gap to the next, or the item fails after the eighth. -/
def txCollide (s : State) (p : Nat) (it : TxItem) (inj : Bool) : State :=
  let s := emit (framerDiscard (count s (Reg.spTxErr p) 31 24 1) p) (.serialStop p)
  let v := { serial s p with run := none, needIdle := true, lag := false, idleTb := s.time.tb, gapTb := s.time.tb }
  let v := { v with attempts := v.attempts + 1, collInj := v.collInj || inj }
  if 8 ≤ v.attempts then
    let s := setSerial s p { v with staged := none, attempts := 0, collInj := false }
    let s := fire (count s (Reg.spTxErr p) 23 16 1) 0x14 (unitSerial p) 0 0 v.collInj none
    releaseDone s (epSerial p)
  else
    let (s, g) := rollDice (setSerial s p { v with staged := some it }) p
    setSerial s p { serial s p with gap := g }

/-- The line allows an attempt of gap G (R146): idle for G character times, or, on a stuck line, G character times after a tick. -/
def gapOver (s : State) (p g since_ : Nat) : Bool :=
  let v := serial s p
  if regB s (Reg.spStatus p) 14 || regB s (Reg.spStatus p) 15 then decide (charsTicks s p g ≤ sinceTb s since_)
  else v.low.isNone && decide (v.idleTb ≤ s.time.tb) && decide (charsTicks s p g ≤ sinceTb s v.idleTb)

/-- An attempt starts: it is an occurrence of DET_SP_COLL, which collides at its first sample when injected (R340). -/
def txAttempt (s : State) (p : Nat) (it : TxItem) : State :=
  match txPlace s p it with
  | (_, none) => s
  | (s, some (at_, late)) =>
    let (s, inj) := injected s 0x14 [unitSerial p]
    let s := txBegin s p it at_ late
    if inj then txCollide s p { it with late := false, launch := none } true else s

/-- The half-duplex transmitter may begin an attempt: a retry of the item held, or the first attempt of the next item (R146). -/
def attemptDue (s : State) (p : Nat) : Bool :=
  let v := serial s p
  ticking s && epOpen s 1 p && spMode s p == 1 && v.run.isNone && v.setTx.isNone
    && (match v.staged with
        | some _ => gapOver s p v.gap v.gapTb
        | none =>
          match bestCand s (candidates s 1 p none 256 []) with
          | none => false
          | some (.copy c) => gapOver s p 1 (max v.gapTb c.setTb)
          | some (.drain _) => gapOver s p 1 v.gapTb)

/-- HALF_DUPLEX_ATTEMPT (R146, R232): a retry of the item held, or the first attempt of the next item, which has then started. One staged
256 ns ahead starts with a later attempt, at its launch time (R129, R130). -/
def halfDuplex (s : State) (p : Nat) : State :=
  if !attemptDue s p then s
  else
    let s := if (serial s p).staged.isSome then s else serialTake s p
    match (serial s p).staged with
    | some it => txAttempt s p it
    | none => s

/-- HALF_DUPLEX_ATTEMPT (R146). -/
def execHalfDuplexAttempt (p : Fin 128) (s : State) : Host.Outcome State Fault Refusal := .next (halfDuplex s p.val)

/-- COLLISION (R147): a read-back sample of the attempt differs from the bit sent. -/
def execCollision (p : Fin 128) (s : State) : Host.Outcome State Fault Refusal :=
  let p := p.val
  match (serial s p).run with
  | none => .next s
  | some r => if ticking s && spMode s p == 1 then .next (txCollide s p { r.item with late := false, launch := none } false) else .next s

/-- A serial endpoint starts its next copy (R231): in half duplex, by its first attempt. -/
def serialStart (s : State) (p : Nat) : State :=
  if spMode s p == 1 then halfDuplex s p else if txFree s p then serialTake s p else s

/-! ## Port commands (R140 to R142) -/

/-- The words of a serial PORT_SET are refused (R140); a HI above 100 acts as 100. -/
def serialBad (w : Nat → Word) : Bool :=
  fld (w 2) 30 29 == 3 || decide (5 ≤ fld (w 3) 4 2) || decide (fld (w 4) 18 0 < 128)
    || decide (393216 < fld (w 4) 18 0)
    || fld (w 5) 1 0 == 3 || decide (min 100 (fld (w 8) 22 16) ≤ fld (w 8) 14 8)

/-- The registers take the settings (R140); EN stays. -/
def serialSettings (s : State) (p : Nat) (w : Nat → Word) : State :=
  let en := reg s (Reg.spCtrl p) &&& 0x80000000#32
  let s := setReg s (Reg.spCtrl p) ((w 2 &&& 0x7000FF00#32) ||| en)
  let s := setReg (setReg s (Reg.spFormat p) (w 3 &&& 0x3F#32)) (Reg.spDiv p) (w 4 &&& 0x7FFFF#32)
  let s := setReg (setReg s (Reg.spFramer p) (w 5 &&& 0x13#32)) (Reg.spHold p) (w 6 &&& 0xFFFF#32)
  let s := setReg (setReg s (Reg.spDe p) (w 7 &&& 0x03FF03FF#32)) (Reg.spLeash p) (w 8 &&& 0xC07F7F00#32)
  let s := setReg (setReg s (Reg.spLeashTimeout p) (w 9 &&& 0xFFFF#32)) (Reg.spWatchPatLo p) (w 10)
  setReg (setReg s (Reg.spWatchPatHi p) (w 11)) (Reg.spWatchCfg p) (w 12 &&& 0xFFF#32)

/-- A PORT_SET completes when both directions run under its settings (R141). -/
def settingsDone (s : State) (p slot : Nat) : State :=
  if (serial s p).setTx.isNone && (serial s p).setRx.isNone then finish (leashUpdate s p) slot stDone 0 0 else s

/-- PORT_SET of a serial port (R140, R141): a character in either shifter completes at the old settings. The character in the receive
shifter was received with its start edge, so that the new settings apply from the next start bit. -/
def serialPortSet (s : State) (p slot : Nat) (w : Nat → Word) : State :=
  if serialBad w then finish s slot stBadParam 0 0
  else if isWedged s (unitSerial p) then finish s slot stWedged 0 0
  else
    let bound := match (serial s p).run with
      | some r => if r.pause.isSome then none else some (slot, (charBoundary s p r).2, (charBoundary s p r).1)
      | none => none
    let v := serial s p
    let rx := if portEn s 0 p && !v.needIdle && decide (s.time.tb < v.idleTb) then some (slot, v.idleTb) else none
    let old := (regF s (Reg.spCtrl p) 30 28, reg s (Reg.spFormat p), tagEn s p)
    let s := serialSettings s p w
    let s := if old == (regF s (Reg.spCtrl p) 30 28, reg s (Reg.spFormat p), tagEn s p) then s else framerDiscard s p
    let s := if leashObey s p then s else if regB s (Reg.spStatus p) 13 then leashResume s p else s
    let s := setSerial s p { serial s p with setTx := bound, setRx := rx }
    settingsDone (setCmd s slot (fun c => { c with phase := .running })) p slot

/-- The rest of an item from character k on, whose boundary is at a time, or behind a Leash character sent there. -/
def txRest (s : State) (p k : Nat) (at_ : Int) (r : TxRun) : TxRun :=
  let base := if r.sent == k then max at_ r.base else at_
  { r with base := base, sent := k, endAt := base + (charsTime s p (r.bytes.length - k) : Nat) }

/-- SERIAL_SETTINGS_APPLY (R141): a direction reaches its character boundary; the rest of an item follows at the new settings. -/
def execSerialSettingsApply (p : Fin 128) (rx : Bool) (s : State) : Host.Outcome State Fault Refusal :=
  let p := p.val
  let v := serial s p
  if rx then
    match v.setRx with
    | some (slot, tb) =>
      if ticking s && decide (tb ≤ s.time.tb) then .next (settingsDone (setSerial s p { v with setRx := none }) p slot) else .next s
    | none => .next s
  else
    match v.setTx with
    | some (slot, at_, k) =>
      if ticking s && decide (at_ ≤ tbTime s) then
        .next (settingsDone (setSerial s p { v with run := v.run.map (txRest s p k at_), setTx := none }) p slot)
      else .next s
    | none => .next s

/-- PORT_ENABLE of a serial port (R142): an enabled port stays as it is. -/
def serialPortEnable (s : State) (p slot : Nat) : State :=
  if isWedged s (unitSerial p) then finish s slot stWedged 0 0
  else if portEn s 0 p then finish s slot stDone 0 0
  else
    let v := framerClear (serial s p)
    let s := setSerial s p { v with needIdle := true, idleTb := s.time.tb, low := none, gapTb := s.time.tb, attempts := 0 }
    let s := setF s (Reg.spCtrl p) 31 31 1
    finish (leashUpdate s p) slot stDone 0 0

/-- The transmitter stops: what it held is gone; the number of items that it had not begun to send. -/
def serialTxStop (s : State) (p : Nat) : State × Nat :=
  let v := serial s p
  let n := b2n v.staged.isSome
  (setSerial s p { v with staged := none, run := none, attempts := 0, xoffTb := none, sinceXoff := 0, leash := [], setTx := none }, n)

/-- The transmitter completes the character in its shifter, and is free from there on: where that is the last of an item, the item departs
(R142). -/
def shifterEnd (s : State) (p : Nat) : State :=
  match (serial s p).run with
  | none => s
  | some r =>
    if r.pause.isSome then s
    else
      let (k, at_) := charBoundary s p r
      let s := setSerial s p { serial s p with freeAt := at_ }
      if k == r.bytes.length then txDeparted s p r else s

/-- PORT_DISABLE of a serial port (R142). -/
def serialPortDisable (s : State) (p slot : Nat) : State :=
  let partials := b2n (!(serial s p).text.isEmpty)
  let s := shifterEnd s p
  let (s, n) := serialTxStop s p
  let s := setSerial s p { framerClear (serial s p) with low := none }
  let s := setF (setF s (Reg.spStatus p) 15 12 0) (Reg.spCtrl p) 31 31 0
  let (s, m) := flushEndpoint s 1 p
  let s := releaseDone s (epSerial p)
  finish s slot stDone (n + m) partials

end Sys2Proof.Machine
end

