-- ==== Sys2Proof/Machine/Ports.lean ====
section
/-! DEFINITION. The port commands of every class (02_host_interface.md R45, R47, R344), and the start of a copy at an endpoint
(10_listeners_output.md R231, R232). -/

namespace Sys2Proof.Machine

/-- PORT_SET of a panel port (R325): it applies at the next boundary; a port that is not enabled has none. -/
def panelPortSet (s : State) (n slot : Nat) (ws : List Word) : State :=
  if portEn s 5 n then
    setCmd (setPanel s n { panel s n with pendSet := some (ws, slot) }) slot (fun c => { c with phase := .running })
  else finish (panelSettings s n ws) slot stDone 0 0

/-- PORT_DISABLE of a panel port (R325): it acts at the next boundary; a port that is not enabled has none. -/
def panelPortDisable (s : State) (n slot : Nat) : State :=
  if portEn s 5 n then
    setCmd (setPanel s n { panel s n with closing := some (some slot) }) slot (fun c => { c with phase := .running })
  else finish s slot stDone 0 0

/-- PORT_SET takes effect on a port of a class, from its words (R140, R266, R283, R115, R120, R325). -/
def portSet (s : State) (cls num slot : Nat) (ws : List Word) : State :=
  let w (k : Nat) : Word := ws.getD k 0
  if isWedged s (unitOf cls num) then finish s slot stWedged 0 0
  else if cls == 0 then serialPortSet s num slot w
  else if cls == 1 then canPortSet s num slot ws
  else if cls == 2 then ethPortSet s num slot w
  else if cls == 3 then eiPortSet s num slot w
  else if cls == 4 then eoPortSet s num slot w
  else panelPortSet s num slot ws

/-- PORT_ENABLE takes effect on a port of a class (R142, R266, R284, R113, R120, R325). -/
def portEnable (s : State) (cls num slot : Nat) : State :=
  if isWedged s (unitOf cls num) then finish s slot stWedged 0 0
  else if cls == 0 then serialPortEnable s num slot
  else if cls == 1 then canPortEnable s num slot
  else if cls == 2 then ethPortEnable s num slot
  else if cls == 3 then eiPortEnable s num slot
  else finish (setF s (portCtrl cls num) 31 31 1) slot stDone 0 0

/-- PORT_DISABLE takes effect on a port of a class (R142, R266, R285, R115, R120, R325). -/
def portDisable (s : State) (cls num slot : Nat) : State :=
  if isWedged s (unitOf cls num) then finish s slot stWedged 0 0
  else if cls == 0 then serialPortDisable s num slot
  else if cls == 1 then canPortDisable s num slot
  else if cls == 2 then ethPortDisable s num slot
  else if cls == 3 then eiPortDisable s num slot
  else if cls == 4 then eoPortDisable s num slot
  else panelPortDisable s num slot

/-- Class and number of a port selector (R45). -/
def selClass (w : Word) : Nat := fld w 15 12
def selNum (w : Word) : Nat := fld w 6 0

/-- PORT_SET (R47). -/
def execPortSet (slot : Fin 256) (s : State) : Host.Outcome State Fault Refusal :=
  match cmdReady s slot.val 0x20 with
  | none => .next s
  | some c => .next (portSet s (selClass (cmdW c 1)) (selNum (cmdW c 1)) slot.val c.words)

/-- PORT_ENABLE (R47). -/
def execPortEnable (slot : Fin 256) (s : State) : Host.Outcome State Fault Refusal :=
  match cmdReady s slot.val 0x21 with
  | none => .next s
  | some c => .next (portEnable s (selClass (cmdW c 1)) (selNum (cmdW c 1)) slot.val)

/-- PORT_DISABLE (R47). -/
def execPortDisable (slot : Fin 256) (s : State) : Host.Outcome State Fault Refusal :=
  match cmdReady s slot.val 0x22 with
  | none => .next s
  | some c => .next (portDisable s (selClass (cmdW c 1)) (selNum (cmdW c 1)) slot.val)

/-- An endpoint that can start takes its next copy or drain item (R231, R232). -/
def startCopy (s : State) : Endpoint → State
  | .serial p => serialStart s p.val
  | .can n => canStart s n.val
  | .ethernet n q => ethStart s n.val (some q.val)
  | .hostRing r => ringStart s r.val
  | .panel n => if panelOpen s n.val then panelTake s n.val else s

/-- The endpoint that a copy is bound to. -/
def endpointOf (c : Copy) : Endpoint :=
  let n := lstNum c.w0
  if lstKind c.w0 == 1 then .serial (Fin.ofNat 128 n) else if lstKind c.w0 == 2 then .can (Fin.ofNat 8 n)
  else if lstKind c.w0 == 3 then .ethernet (Fin.ofNat 4 n) (Fin.ofNat 8 (lstQueue c.w0))
  else if lstKind c.w0 == 4 then .hostRing (Fin.ofNat 16 n) else .panel (Fin.ofNat 8 n)

/-- DEADLINE_MISS (R234, R244): the deadline of a queued copy is reached. Where its endpoint starts it at this very tick, it has not missed;
else it is discarded or kept as late. -/
def execDeadlineMiss (arrival : Word) (s : State) : Host.Outcome State Fault Refusal :=
  match copyNamed s arrival with
  | none => .next s
  | some c =>
    if !(ticking s && deadlineDue s c) then .next s
    else
      let t := startCopy s (endpointOf c)
      .next (if t.lq.copies.any (fun x => x.arrival == c.arrival) then lqMiss s c false else t)

/-- ENDPOINT_START_COPY (R231, R232). -/
def execEndpointStartCopy (ep : Endpoint) (s : State) : Host.Outcome State Fault Refusal :=
  .next (if ticking s then startCopy s ep else s)

end Sys2Proof.Machine
end

