-- ==== Sys2Proof/Machine/Integrity.lean ====
section
/-! DEFINITION. Injection, hounds, wedges and monitors (15_integrity.md R339 to R348). Unit numbers that the spec does not give are in
log 41: the bridge as class 9 number 0x20, the shared units as class 13, the flash master as class 14. -/

namespace Sys2Proof.Machine

/-! ## Injection (R339, R342) -/

/-- The ID is that of a detector (R329). -/
def detKnown (d : Nat) : Bool :=
  decide (d ≤ 0x05) || (decide (0x10 ≤ d) && decide (d ≤ 0x15)) || (decide (0x20 ≤ d) && decide (d ≤ 0x26))
    || (decide (0x28 ≤ d) && decide (d ≤ 0x2A))
    || [0x30, 0x31, 0x32, 0x38, 0x39, 0x40, 0x41, 0x42, 0x58, 0x59, 0x5A, 0x60, 0x61, 0x68, 0x69, 0x70, 0x71].contains d

/-- A port, or a host ring, at which copies start (R224). -/
def isEndpoint (c n : Nat) : Bool :=
  (c == 0 && decide (n < 128)) || (c == 1 && decide (n < 8)) || (c == 2 && decide (n < 4)) || (c == 5 && decide (n < 8))
    || (c == 11 && decide (n < 16))

/-- A source of records. -/
def isSource (c n : Nat) : Bool :=
  (c == 0 && decide (n < 128)) || (c == 1 && decide (n < 8)) || (c == 2 && decide (n < 4)) || (c == 3 && decide (n < 32))

/-- A unit that a crossing hound may wedge (R344). -/
def isCrossing (c n : Nat) : Bool :=
  isSource c n || (c == 4 && decide (n < 8)) || (c == 5 && decide (n < 8)) || (c == 6 && decide (n < 32)) || (c == 9 && n == 0x20)
    || (c == 13 && decide (n < 5)) || (c == 14 && n == 0)

/-- The unit of class c and number n exists for a detector (R329, R339). -/
def detUnit (d c n : Nat) : Bool :=
  let engine := c == 6 && decide (n < 32)
  let memory := c == 10
  if d == 0x00 then (memory && n == 0) || isSource c n
  else if d == 0x01 then (memory && n == 1) || engine
  else if d == 0x02 then memory && n == 2
  else if d == 0x03 then (memory && n == 3) || isEndpoint c n
  else if d == 0x04 then (memory && decide (4 ≤ n) && decide (n ≤ 7)) || engine
  else if d == 0x05 then memory && n == 8
  else if d ≤ 0x15 then c == 0 && decide (n < 128)
  else if d ≤ 0x26 then c == 1 && decide (n < 8)
  else if d ≤ 0x2A then c == 2 && decide (n < 4)
  else if d ≤ 0x31 then c == 8 && n == 0
  else if d == 0x32 || d == 0x68 || d == 0x69 then c == 8 && decide (n < 8)
  else if d ≤ 0x39 then c == 3 && decide (n < 32)
  else if d == 0x40 || d == 0x70 then engine
  else if d == 0x41 then isSource c n || isEndpoint c n
  else if d == 0x42 then isEndpoint c n
  else if d ≤ 0x5A then c == 9 && (decide (n < 8) || n == 0x20)
  else if d ≤ 0x61 then c == 5 && decide (n < 8)
  else isCrossing c n

/-- INJECT_ARM cannot be carried out (R339). -/
def armBad (s : State) (d mode n unit : Nat) (isolate : Bool) : Bool :=
  let hound := d == 0x70 || d == 0x71
  let others := ((List.range 16).filter fun a => match sget none s.integ.arms a with
    | some arm => arm.det != d
    | none => false).length
  !detKnown d || (decide (2 ≤ mode) && n == 0) || (unit != 0xFFFF && !detUnit d (unit / 4096) (unit % 4096))
    || (hound && isolate && unit == 0xFFFF) || others == 16

/-- Where an arm of a detector goes: over its own, else the lowest free. -/
def armPlace (s : State) (d : Nat) : Nat :=
  match armOf s d with
  | some (a, _) => a
  | none => ((List.range 16).find? fun a => sget none s.integ.arms a == none).getD 0

/-- An arm as W1 to W3 give it; ISOLATE on a unit already wedged clears at once, on an engine without a record it wedges the engine
(R339, R342). -/
def armSet (s : State) (d mode n unit : Nat) (isolate : Bool) : State :=
  let s := armClear s d
  let u := unitOf (unit / 4096) (unit % 4096)
  let hound := (d == 0x70 || d == 0x71) && isolate
  if mode == 0 then s
  else if hound && isWedged s u then s
  else if hound && d == 0x70 && (engine s (unit % 4096)).recd.isNone then
    engWedge s (unit % 4096) 0x70 (engine s (unit % 4096)).lastTalker (houndDetail s (unit % 4096)) true
  else
    let arm : Arm := ⟨d, mode, n, n, unit, hound, s.time.tb⟩
    setArm s (armPlace s d) (some arm)

/-- INJECT_ARM (R339). -/
def execInjectArm (slot : Fin 256) (s : State) : Host.Outcome State Fault Refusal :=
  match cmdReady s slot.val 0x03 with
  | none => .next s
  | some c =>
    let d := fld (cmdW c 1) 6 0
    let mode := fld (cmdW c 1) 9 8
    let n := (cmdW c 2).toNat
    let unit := fld (cmdW c 3) 15 0
    let isolate := bit (cmdW c 1) 12
    if armBad s d mode n unit isolate then .next (finish s slot.val stBadParam 0 0)
    else .next (finish (armSet s d mode n unit isolate) slot.val stDone 0 0)

/-- INJECTION_DURATION_END (R339): the duration of a mode 3 arm has run out. -/
def execInjectionDurationEnd (d : BitVec 7) (s : State) : Host.Outcome State Fault Refusal :=
  match armOf s d.toNat with
  | none => .next s
  | some (a, arm) =>
    if ticking s && arm.mode == 3 && decide (arm.n * Config.tickUs ≤ sinceTb s arm.startTb) then .next (setArm s a none) else .next s

/-- An arm as INJ_ARM shows it: words 0 to 2. -/
def armWord (s : State) (a k : Nat) : Word :=
  match sget none s.integ.arms a with
  | none => 0
  | some arm =>
    if k == 0 then BitVec.ofNat 32 (2 ^ 31 + b2n arm.isolate * 2 ^ 12 + arm.mode * 256 + arm.det)
    else if k == 1 then BitVec.ofNat 32 arm.unit
    else if arm.mode == 2 then BitVec.ofNat 32 arm.left
    else if arm.mode == 3 then BitVec.ofNat 32 (arm.n - sinceTb s arm.startTb / Config.tickUs)
    else 0

/-- Detectors armed. -/
def armCount (s : State) : Nat := ((List.range 16).filter fun a => (sget none s.integ.arms a).isSome).length

/-! ## Wedges (R343 to R345) -/

/-- The unit of a crossing (R344). -/
def crossUnit : Crossing → Nat
  | .serial p => unitOf 0 p.val
  | .watch p => unitOf 0 p.val
  | .can n => unitOf 1 n.val
  | .ethernet n _ => unitOf 2 n.val
  | .eventIn i => unitOf 3 i.val
  | .eventOut m => unitOf 4 m.val
  | .panel n => unitOf 5 n.val
  | .bridge => unitOf 9 0x20
  | .flash => unitFlash
  | .engine e => unitEngine e.val
  | .kennel => unitOf 13 0
  | .herder => unitOf 13 1
  | .copier => unitOf 13 2
  | .timeCore => unitOf 13 3
  | .hostInterface => unitOf 13 4

/-- The domain field of a crossing's report: the order of R9, 0xFF between two blocks of the core (R343). -/
def crossDomain : Crossing → Nat
  | .serial _ => 1
  | .watch _ => 2
  | .can _ => 9
  | .ethernet n tx => if tx then 3 else 4 + n.val
  | .eventIn _ => 0
  | .eventOut _ => 0
  | .panel _ => 1
  | .bridge => 10
  | .flash => 0
  | .engine _ => 0xFF
  | .kennel => 0xFF
  | .herder => 0xFF
  | .copier => 0xFF
  | .timeCore => 0
  | .hostInterface => 8

/-- Every endpoint is given up, and what is queued for the endpoints is discarded (R345, R361, R367). -/
def releaseAll (s : State) : State :=
  let p := s.pair
  let s := { s with pair := { p with owned := [], taken := [], releasing := [] } }
  let s := (flushCopies s (fun c => lstKind c.w0 != 4)).1
  setLq s { s.lq with drains := s.lq.drains.filter (fun d => lstKind d.w0 == 4) }

/-- PAIR_ALIVE_OUT is high: a heartbeat has started within the last 2 ms (R364). -/
def aliveOut (s : State) : Bool :=
  ticking s && pairEn s && decide (0 < s.pair.beatTb) && decide (s.time.tb ≤ s.pair.beatTb - 1 + 2 * Config.tickMs)

/-- PAIR_ALIVE_OUT falls. -/
def aliveLow (s : State) : State :=
  let was := aliveOut s
  let s := { s with pair := { s.pair with beatTb := 0 } }
  if was then emit s (.pairAliveOut false) else s

/-- The hub stops (R345). -/
def hubStop (s : State) (px : Bool) : State :=
  let s := releaseAll (aliveLow s)
  { s with integ := { s.integ with stopped := true, pxWedged := s.integ.pxWedged || px } }

/-- A serial port is wedged: what it was sending is gone, and a PORT_SET that waits completes WEDGED (R344). -/
def wedgeSerial (s : State) (p : Nat) : State :=
  let v := serial s p
  let waits := (v.setTx.map (·.1)).or (v.setRx.map (·.1))
  let s := (serialTxStop s p).1
  let s := setSerial s p { serial s p with setRx := none }
  let s := match waits with
    | some slot => finish s slot stWedged 0 0
    | none => s
  releaseNow s (epSerial p)

/-- A CAN port is wedged: its pending frames fail (R257), and commands that wait complete. -/
def wedgeCan (s : State) (n : Nat) : State :=
  let v := can s n
  match v.closing with
  | some slot => releaseNow (canStop s n slot) (epCan n)
  | none =>
    let s := setCan s n { v with attempt := .none, sends := [], pendSet := none, pendApplied := none }
    let s := v.sends.foldl (fun s x => finish s x.slot stLinkFailed x.attempts 0) (laneDrop s n)
    let s := match v.pendSet with
      | some (_, slot) => finish s slot stWedged 0 0
      | none => s
    let s := match v.pendApplied with
      | some slot => finish s slot stWedged 0 0
      | none => s
    releaseNow s (epCan n)

/-- An event output is wedged: its pulse ends with the ball high-impedance. -/
def wedgeEventOut (s : State) (m : Nat) : State :=
  let o := evOut s m
  let s := setEvOut s m { o with active := [], closing := none }
  let s := match o.closing with
    | some (slot, n) => finish (setF s (Reg.eoCtrl m) 31 31 0) slot stDone n 0
    | none => s
  releaseNow s (epOut m)

/-- A panel port is wedged: it stops as at a loss of ownership (R326). -/
def wedgePanel (s : State) (n : Nat) : State :=
  let p := panel s n
  let s := match p.pendSet with
    | some (_, slot) => finish (setPanel s n { p with pendSet := none }) slot stWedged 0 0
    | none => s
  releaseNow (panelStop s n 0 (p.closing.getD none)) (epPanel n)

/-- The flash master is wedged: a flash command in progress completes WEDGED, a FLASH_WRITE that reads host memory as that read ends, and
a LOAD_PROGRAM that reads the flash meets a flash error (log 42). -/
def wedgeFlash (s : State) : State :=
  let end_ (s : State) (c : HostCmd) : State :=
    if 0x80 ≤ cmdOp c && cmdOp c ≤ 0x82 && (c.flash || c.fetch.isNone) then finish s c.slot stWedged 0 0
    else if cmdOp c == 0x10 && c.flash then loadFault s c stFlashFault
    else s
  (s.host.cmds.filter fun c => c.phase == .running).foldl end_ s

/-- What the wedge of a unit does beyond marking it (R344). -/
def wedgeUnit (s : State) : Crossing → State
  | .serial p => wedgeSerial s p.val
  | .watch p => wedgeSerial { s with power := { s.power with watches := s.power.watches.filter (fun w => w.port != p.val) } } p.val
  | .can n => wedgeCan s n.val
  | .ethernet n _ => releaseNow (ethFrameEnd (ethLinkDown s n.val) n.val) (epEth n.val)
  | .eventIn _ => s
  | .eventOut m => wedgeEventOut s m.val
  | .panel n => wedgePanel s n.val
  | .bridge => bridgeOff s false
  | .flash => wedgeFlash s
  | .engine e =>
    let s := engAbandon s e.val
    setEngine s e.val { engine s e.val with wedged := true }
  | .kennel => hubStop s false
  | .herder => hubStop s false
  | .copier => hubStop s false
  | .timeCore => hubStop s false
  | .hostInterface => hubStop s true

/-- A trip is entered in WEDGE_LOG, which holds 16. -/
def wedgeLog (s : State) (unit d2 : Nat) : State :=
  if 16 ≤ s.integ.wedges.length then s
  else { s with integ := { s.integ with wedges := s.integ.wedges ++ [⟨unit, d2, stSec (now s) % 2 ^ 32, stNs (now s)⟩] } }

/-- A crossing hound trips: the unit is marked wedged, the report and the wedge event are written, the trip is logged, and the wedge
acts (R343 to R345). A wedged PX crossing leaves no path to the host. -/
def crossTrip (s : State) (x : Crossing) (d2 d3 : Nat) (inj : Bool) : State :=
  let u := crossUnit x
  let s := { s with integ := { s.integ with wedged := s.integ.wedged ++ [u], pxWedged := s.integ.pxWedged || x == .hostInterface } }
  let s := fire s 0x71 u d2 d3 inj none
  let s := event s 3 0 u d2 d3 inj (now s)
  wedgeUnit (wedgeLog s u d2) x

/-- The clock of a crossing is absent, and its hound is disarmed (R14). -/
def crossAbsent (s : State) : Crossing → Bool
  | .ethernet n tx => !tx && s.integ.lost.contains n.val
  | .hostInterface => s.integ.lost.contains 8
  | _ => false

/-- Eight periods of the domain clock of a crossing, in ps (R9, R13); a crossing between two blocks of the core has no such clock. -/
def crossFloor (x : Crossing) : Nat :=
  let d := crossDomain x
  if d == 0 || d == 8 then 32000 else if d == 1 then 67817 else if d == 2 then 244140625 else if 3 ≤ d && d ≤ 7 then 64000
  else if d == 9 then 100000 else if d == 10 then 160000 else 0

/-- The hound limit of a crossing in ps (R13): HOUND_CTRL.LIMIT, where 0 acts as 1 µs, or eight periods of its domain clock. -/
def crossLimit (s : State) (x : Crossing) : Nat := max (max 1 (regF s Reg.houndCtrl 15 0) * 1000000) (crossFloor x)

/-- A phase that has waited for so many TB ticks is past the limit; one that began before the first tick counts from there (R27). -/
def crossPast (s : State) (x : Crossing) (waited : Nat) : Bool := decide (crossLimit s x < 4000 * min waited s.time.tb)

/-- CROSSING_HOUND_TRIP (R343, R340): a phase of a handshake of the crossing has waited for so many TB ticks. At 0 the phase begins, which
is an occurrence of DET_HOUND_XING; past the limit the hound trips. -/
def execCrossingHoundTrip (ph : CrossPhase) (out idle : Bool) (s : State) : Host.Outcome State Fault Refusal :=
  let x := ph.crossing
  let u := crossUnit x
  if !ticking s || isWedged s u || crossAbsent s x then .next s
  else
    let d2 := crossDomain x + (if crossDomain x == 0xFF then 0 else b2n out * 256)
    if ph.waited == 0 then
      let isolate := armIsolates s 0x71
      let (s, inj) := injected s 0x71 [u]
      if !inj then .next s
      else if isolate then .next (crossTrip (armClear s 0x71) x d2 (b2n idle) true)
      else .next (fire s 0x71 u d2 (b2n idle) true none)
    else .next (if crossPast s x ph.waited then crossTrip s x d2 (b2n idle) false else s)

/-- A word of WEDGE_LOG. -/
def wedgeWord (s : State) (i k : Nat) : Word :=
  match s.integ.wedges[i]? with
  | none => 0
  | some w => if k == 0 then BitVec.ofNat 32 w.unit else if k == 1 then BitVec.ofNat 32 w.detail
    else if k == 2 then BitVec.ofNat 32 w.sec else BitVec.ofNat 32 w.ns

/-- WEDGE_STATUS as read. -/
def wedgeStatus (s : State) : Word := BitVec.ofNat 32 (b2n s.integ.stopped * 2 ^ 31 + s.integ.wedges.length)

/-! ## Monitors (R347, R348) -/

/-- TEMP_MONITOR_SAMPLE (R347): a sample in units of 0.125 °C; each limit reports once until a sample lies 5 °C inside it. -/
def execTempMonitorSample (g : Fin 8) (temp : BitVec 16) (s : State) : Host.Outcome State Fault Refusal :=
  let g := g.val
  if !ticking s then .next s
  else
    let t := temp.toInt
    let hi := 8 * sext 16 (regF s Reg.monTemp 31 16)
    let lo := 8 * sext 16 (regF s Reg.monTemp 15 0)
    let (s, inj) := injected s 0x68 [unitOf 8 g]
    let r := region s g
    let above := decide (hi < t)
    let below := decide (t < lo)
    let say (s : State) (inj : Bool) (d3 : Nat) : State := fire s 0x68 (unitOf 8 g) temp.toNat d3 inj none
    let s := setF s (Reg.monRegion g) 15 0 temp.toNat
    let s := setRegion s g { r with
      temp := temp, tempHi := if above then true else if t ≤ hi - 40 then false else r.tempHi,
      tempLo := if below then true else if lo + 40 ≤ t then false else r.tempLo }
    let s := if above && !r.tempHi then say s inj 1 else if below && !r.tempLo then say s inj 0
      else if inj then say s true (b2n above) else s
    .next s

/-- The requested core voltage in mV (R22). -/
def vidMv (s : State) : Nat := 810 + 10 * regF s Reg.vidStatus 3 0

/-- VCORE_MONITOR_SAMPLE (R348): two consecutive samples outside the band on one side report, once per excursion. -/
def execVcoreMonitorSample (g : Fin 8) (mv : BitVec 16) (s : State) : Host.Outcome State Fault Refusal :=
  let g := g.val
  if !ticking s then .next s
  else
    let s := setF s (Reg.monRegion g) 31 16 mv.toNat
    let s := setRegion s g { region s g with mv := mv }
    if s.vid.changed && decide (sinceTb s s.vid.changeTb < 20 * Config.tickUs) then .next s
    else
      let (s, inj) := injected s 0x69 [unitOf 8 g]
      let r := region s g
      let req := vidMv s
      let above := decide (req + max 1 (regF s Reg.monVcore 31 16) < mv.toNat)
      let below := decide (mv.toNat + max 1 (regF s Reg.monVcore 15 0) < req)
      let n : Int := if above then (if 0 < r.vcoreOut then 2 else 1) else if below then (if r.vcoreOut < 0 then -2 else -1) else 0
      let due := (n == 2 || n == -2) && !r.vcoreSaid
      let s := setRegion s g { r with vcoreOut := n, vcoreSaid := n != 0 && (r.vcoreSaid || due) }
      .next (if due || inj then fire s 0x69 (unitOf 8 g) (mv.toNat * 65536 + req) g inj none else s)

end Sys2Proof.Machine
end

