-- ==== Sys2Proof/Machine/Pairing.lean ====
section
/-! DEFINITION. The pair link and ownership (16_reset_power_pairing.md R364 to R368). -/

namespace Sys2Proof.Machine

/-- The pair link changes. -/
def setPair (s : State) (p : Pair) : State := { s with pair := p }

/-- Endpoint numbers of R365: 0 to 155. -/
def endpoints : List Nat := List.range 156

/-- A bit of an endpoint map of five words. -/
def mapBit (w : Nat → Word) (e : Nat) : Bool := bit (w (e / 32)) (e % 32)

/-- The endpoints that a map names. -/
def mapList (w : Nat → Word) : List Nat := endpoints.filter (mapBit w)

/-- Word k of the map that names endpoints. -/
def mapWord (es : List Nat) (k : Nat) : Word :=
  BitVec.ofNat 32 (es.foldl (fun a e => if e / 32 == k then a + 2 ^ (e % 32) else a) 0)

/-- The endpoints that the hub owns now (R367). -/
def ownedNow (s : State) : List Nat := endpoints.filter (owns s)

/-- The hub counts an endpoint as its own home: the home side that PAIR_HOME gives it is the hub's (R367). -/
def homeHere (s : State) (e : Nat) : Bool := mapBit (fun k => reg s (Reg.pairHome k)) e == s.power.sideB

/-- The HOME maps disagree about an endpoint: both hubs claim it, or neither does (R368). -/
def homeClash (s : State) (e : Nat) : Bool := s.pair.heard && homeHere s e == s.pair.partnerHome.contains e

/-- The endpoint has its home here; one about which the maps disagree is home of side A (R368). -/
def homeOf (s : State) (e : Nat) : Bool := if homeClash s e then !s.power.sideB else homeHere s e

/-- PAIR_CTRL.SILENCE and BACK_DELAY in ticks. -/
def silenceTicks (s : State) : Nat := max 3 (regF s Reg.pairCtrl 15 0) * Config.tickMs
def backTicks (s : State) : Nat := max 1 (regF s Reg.pairCtrl 30 16) * Config.tickMs

/-- The unit of the pair link (R368). -/
def unitPair : Nat := unitOf 12 0

/-- A link-change event of the pair link (R368). -/
def pairEvent (s : State) (d2 d3 : Nat) : State := event s 2 0 unitPair d2 d3 false (now s)

/-- An endpoint that the hub may take: its unit is not wedged, for a wedged one stays released (R344). -/
def mayTake (s : State) (e : Nat) : Bool := !isWedged s (endpointUnit e)

/-- A panel port that was to stop because its endpoint was being released goes on. -/
def panelKeep (s : State) (e : Nat) : State :=
  if 148 ≤ e && (panel s (e - 148)).closing == some none then setPanel s (e - 148) { panel s (e - 148) with closing := none } else s

/-- Endpoints are taken; a release that waits is withdrawn. -/
def takeAll (s : State) (es : List Nat) : State :=
  let s := es.foldl panelKeep s
  let p := s.pair
  setPair s { p with owned := endpoints.filter (fun e => p.owned.contains e || es.contains e), releasing := p.releasing.filter (fun e => !es.contains e) }

/-! ## PAIR_CTRL (R367) -/

/-- A write that changes PAIR_CTRL.EN: every endpoint is released, and the cases of R368 start again. With EN cleared the hub owns every
endpoint afterwards. -/
def pairRestart (s : State) (en : Bool) (val : Word) : State :=
  let s := if en then setPair s { s.pair with owned := endpoints, taken := [], releasing := [] } else aliveLow s
  let s := if en then setReg s Reg.pairCtrl val else s
  let s := (endpoints.filter fun e => s.pair.owned.contains e).foldl release s
  let p := s.pair
  let s := if en then s else
    let s := (p.releasing).foldl flushOwner s
    setReg s Reg.pairCtrl val
  setPair s { Pair.init with owned := if en then s.pair.owned else [], releasing := if en then s.pair.releasing else [],
                             aliveIn := p.aliveIn, heardTb := s.time.tb, sinceTb := s.time.tb }

/-- A write of PAIR_CTRL. -/
def pairCtrlWrite (s : State) (val : Word) : State :=
  if bit val 31 != pairEn s then pairRestart s (bit val 31) val else setReg s Reg.pairCtrl val

/-- PAIR_CTRL_EN_CHANGE (R367): a write of PAIR_CTRL. -/
def execPairCtrlEnChange (val : Word) (s : State) : Host.Outcome State Fault Refusal :=
  .next (if bar0Writes s then pairCtrlWrite s val else s)

/-! ## Heartbeats (R365, R366) -/

/-- The words of a stamp in a message: seconds, nanoseconds, and the fraction with a sequence number; zeros where there is none. -/
def beatStamp : Option (Nat × Edge) → List Word
  | none => [0, 0, 0]
  | some (n, e) => [shortSec e.stamp, shortNs e.stamp, BitVec.ofNat 32 (stFrac e.stamp + n % 65536 * 65536)]

/-- The message of a heartbeat (R365). -/
def beatWords (s : State) : List Word :=
  let p := s.pair
  let w0 := BitVec.ofNat 32 (1 + 16 + b2n s.power.sideB * 256 + p.seq * 65536)
  let ws := w0 :: beatStamp p.departs.head? ++ beatStamp p.arrivals.head?
    ++ (List.range 5).map (mapWord (ownedNow s)) ++ (List.range 5).map (mapWord (endpoints.filter (homeHere s)))
  ws ++ [crc32 (wordsBytes ws)]

/-- HEARTBEAT_SEND (R365): a heartbeat starts every millisecond, whether or not the last was acknowledged; its first symbol edge is
stamped, and the last four departures are kept (R366). -/
def execHeartbeatSend (s : State) : Host.Outcome State Fault Refusal :=
  let p := s.pair
  if !(ticking s && pairEn s && (p.beatTb == 0 || decide (p.beatTb - 1 + Config.tickMs ≤ s.time.tb))) then .next s
  else
    let was := aliveOut s
    let s := emit s (.heartbeat (beatWords s))
    let s := setPair s
      { p with
        seq := (p.seq + 1) % 65536, departs := (p.seq, edgeNow s 0) :: p.departs.take 3, beatTb := s.time.tb + 1,
        sending := some s.time.tb }
    .next (if was then s else emit s (.pairAliveOut true))

/-- A message is good (R365): its length, TYPE, VERSION and CRC are right. -/
def beatGood (m : List Word) : Bool :=
  m.length == 18 && fld (m.getD 0 0) 7 0 == 0x11 && crc32 (wordsBytes (m.take 17)) == m.getD 17 0

/-- The stamp in words k to k + 2 of a message with its sequence number; none where all three are 0 (log 43). -/
def beatRead (m : List Word) (k : Nat) : Option (Nat × Word × Word × Nat) :=
  let a := m.getD k 0
  let b := m.getD (k + 1) 0
  let c := m.getD (k + 2) 0
  if a == 0 && b == 0 && c == 0 then none else some (fld c 31 16, a, b &&& 0x3FFFFFFF#32, fld c 15 0)

/-- A stamp of this hub less a stamp of the partner, in units of 2^-16 ns. -/
def beatDiff (e : Edge) (sec ns : Word) (frac : Nat) : Int :=
  dDiff (shortSec e.stamp) (shortNs e.stamp) sec ns * 65536 + ((stFrac e.stamp : Int) - (frac : Int))

/-- The pair-link sample of a heartbeat heard (R87, R366): none where a stamp is missing; half a unit is free (log 20). -/
def beatSample (s : State) (m : List Word) : State :=
  let find (es : List (Nat × Edge)) (n : Nat) : Option Edge := (es.find? (fun e => e.1 == n)).map (·.2)
  match beatRead m 1, beatRead m 4 with
  | some (n1, s1, ns1, f1), some (n4, s4, ns4, f4) =>
    match find s.pair.arrivals n1, find s.pair.departs n4 with
    | some t2, some t3 =>
      let (s, half) := roundFree s (beatDiff t2 s1 ns1 f1 + beatDiff t3 s4 ns4 f4) 1
      followerSample s 2 (half - (reg s Reg.pairAsym).toInt) [t2.steps, t3.steps]
    | _, _ => s
  | _, _ => s

/-- The endpoints of this hub's home that the partner's latest heartbeat shows not owned are taken (R368). -/
def takeHome (s : State) : State :=
  takeAll s (endpoints.filter fun e => homeOf s e && !s.pair.partnerOwn.contains e && !s.pair.owned.contains e && mayTake s e)

/-- HEARTBEAT_HEARD (R365, R366, R368). -/
def execHeartbeatHeard (msg : List Word) (s : State) : Host.Outcome State Fault Refusal :=
  if !(ticking s && pairEn s) then .next s
  else if !beatGood msg then .next (count s Reg.pairCounts 15 8 1)
  else
    let s := beatSample (count s Reg.pairCounts 31 16 1) msg
    let p := s.pair
    let back := p.silent
    let s := setPair s
      { p with
        heard := true, heardTb := s.time.tb, sinceTb := if back || !p.heard then s.time.tb else p.sinceTb, silent := false, acted := none,
        fault := false, arrivals := (fld (msg.getD 0 0) 31 16, edgeNow s 0) :: p.arrivals.take 3,
        partnerOwn := mapList (fun k => msg.getD (7 + k) 0), partnerHome := mapList (fun k => msg.getD (12 + k) 0) }
    let s := setPair s { s.pair with mismatch := endpoints.any (homeClash s) }
    .next (takeHome (if back then pairEvent s 1 0 else s))

/-- PAIR_SYMBOL_TIMEOUT (R364): a symbol that is not acknowledged within 100 µs abandons the message that is being sent; a message that is
interrupted on its way in is discarded. -/
def execPairSymbolTimeout (tx : Bool) (s : State) : Host.Outcome State Fault Refusal :=
  match s.pair.sending with
  | none => .next s
  | some t =>
    if tx && decide (100 * Config.tickUs ≤ sinceTb s t) then .next (setPair s { s.pair with sending := none }) else .next s

/-! ## Silence and handback (R368) -/

/-- The partner is silent and PAIR_ALIVE_IN is low: takeover. -/
def takeover (s : State) : State :=
  let home := endpoints.filter fun e => homeOf s e && mayTake s e
  let far := endpoints.filter fun e => !homeOf s e && mapBit (fun k => reg s (Reg.pairTake k)) e && mayTake s e
  let new := (home ++ far).filter fun e => !s.pair.owned.contains e
  let s := takeAll s (home ++ far)
  let s := setPair s { s.pair with taken := endpoints.filter (fun e => s.pair.taken.contains e || far.contains e), fault := false }
  pairEvent (count s Reg.pairCounts 7 0 1) 0 new.length

/-- The partner is silent and PAIR_ALIVE_IN is high: what is held by takeover is released, and the home endpoints are taken, but for those
that the partner's latest heartbeat shows owned (log 122). -/
def silentFault (s : State) : State :=
  let s := s.pair.taken.foldl release s
  let s := takeAll s (endpoints.filter fun e => homeOf s e && !s.pair.partnerOwn.contains e && mayTake s e)
  pairEvent (setPair s { s.pair with taken := [], fault := true }) 2 0

/-- The silence is acted on with the present level of PAIR_ALIVE_IN. -/
def silenceAct (s : State) : State :=
  let s := setPair s { s.pair with silent := true, acted := some s.pair.aliveIn }
  if s.pair.aliveIn then silentFault s else takeover s

/-- PARTNER_SILENT (R368): no message has been heard for SILENCE ms. -/
def execPartnerSilent (s : State) : Host.Outcome State Fault Refusal :=
  if ticking s && pairEn s && !s.pair.silent && decide (silenceTicks s ≤ sinceTb s s.pair.heardTb) then .next (silenceAct s) else .next s

/-- PAIR_ALIVE_IN_CHANGE (R368): a hub whose partner is already silent acts at that moment. -/
def execPairAliveInChange (level : Bool) (s : State) : Host.Outcome State Fault Refusal :=
  let s := setPair s { s.pair with aliveIn := level }
  if ticking s && pairEn s && s.pair.silent && s.pair.acted != some level then .next (silenceAct s) else .next s

/-- HANDBACK_DELAY (R368): the partner has been heard without silence for BACK_DELAY ms, and what is held of its home side is released. -/
def execHandbackDelay (s : State) : Host.Outcome State Fault Refusal :=
  let p := s.pair
  let held := p.owned.filter fun e => !homeOf s e && !p.releasing.contains e
  if ticking s && pairEn s && p.heard && !p.silent && !held.isEmpty && decide (backTicks s ≤ sinceTb s p.sinceTb) then
    let s := held.foldl release s
    .next (pairEvent (setPair s { s.pair with taken := [] }) 3 0)
  else .next s

/-! ## What the registers show -/

/-- The endpoints that PAIR_OWNED and PAIR_STATUS show (log 155). -/
def ownedShown (s : State) : List Nat := if s.time.locked then ownedNow s else []

/-- PAIR_STATUS as read. -/
def pairStatus (s : State) : Word :=
  let p := s.pair
  BitVec.ofNat 32 (b2n (pairEn s && p.heard && !p.silent) * 2 ^ 31 + b2n (shown s p.aliveIn) * 2 ^ 30 + b2n p.fault * 2 ^ 29
    + b2n p.mismatch * 2 ^ 28 + b2n s.power.sideB * 2 ^ 27 + min 255 (ownedShown s).length)

end Sys2Proof.Machine
end

