-- ==== Sys2Proof/Machine/Vid.lean ====
section
/-! DEFINITION. The core voltage request and its automatic control (01_architecture.md R22 to R26). -/

namespace Sys2Proof.Machine

/-- A code field of VID_CTRL; 15 acts as 14. -/
def vidField (s : State) (hi lo : Nat) : Nat := min 14 (regF s Reg.vidCtrl hi lo)

/-- VID_STATUS.CODE. -/
def vidCode (s : State) : Nat := regF s Reg.vidStatus 3 0

/-- From a code toward another: 0 none, 1 raise, 2 lower. -/
def vidToward (cur target : Nat) : Nat := if cur < target then 1 else if target < cur then 2 else 0

/-- Automatic control may move the code in this direction (R25): 1 raise, below MAX_CODE; 2 lower, above MIN_CODE; with the code in its
range. -/
def vidMay (s : State) (want : Nat) : Bool :=
  let cur := vidCode s
  let least := vidField s 11 8
  let most := vidField s 15 12
  regB s Reg.vidCtrl 0 && decide (least ≤ cur) && decide (cur ≤ most)
    && ((want == 1 && decide (cur < most)) || (want == 2 && decide (least < cur)))

/-- The direction in which the hub would move the code (R25): toward FIXED_CODE without AUTO; toward MAX_CODE where MIN_CODE is above it;
into the range; else as the window judged last asked, which is kept while R24 holds the change back. -/
def vidWant (s : State) : Nat :=
  let cur := vidCode s
  let least := vidField s 11 8
  let most := vidField s 15 12
  if !regB s Reg.vidCtrl 0 then vidToward cur (vidField s 7 4)
  else if most < least then vidToward cur most
  else if cur < least then 1
  else if most < cur then 2
  else if vidMay s s.vid.want then s.vid.want
  else 0

/-- R24 lets the code change: it has not changed yet, or every region has committed since it did. -/
def vidFree (s : State) : Bool := !s.vid.changed || (List.range 8).all fun g => s.vid.committed.contains g

/-- VID_CODE_CHANGE (R24): the code moves by one. -/
def execVidCodeChange (s : State) : Host.Outcome State Fault Refusal :=
  let w := vidWant s
  if !powered s || w == 0 || !vidFree s then .next s
  else
    let code := if w == 1 then vidCode s + 1 else vidCode s - 1
    let s := { s with vid := { s.vid with committed := [], changed := true, changeTb := s.time.tb, want := 0 } }
    let s := setF (setF s Reg.vidStatus 3 0 code) Reg.vidStatus 31 16 (regF s Reg.vidStatus 31 16 + 1)
    let key := 32 * Reg.vidStatus + 16
    .next (emit { s with totals := sset 0 s.totals key ((sget 0 s.totals key + 1) % 2 ^ 32) } (.vid code))

/-- OCCUPANCY_WINDOW_END (R25): the window's occupancy is shown in percent, where it is no whole number free between its two neighbours
(log 20), and judged once: it asks for a change only where automatic control may make it then. -/
def execOccupancyWindowEnd (s : State) : Host.Outcome State Fault Refusal :=
  if !(ticking s && decide (s.vid.windows < drainMs s / 10)) then .next s
  else
    let v := s.vid
    let n := 100 * v.busy
    let (s, up) := if v.online == 0 || n % v.online == 0 then (s, false) else takeBit s
    let occ := if v.online == 0 then 0 else n / v.online + b2n up
    let hi := min 100 (regF s Reg.vidCtrl 30 24)
    let lo := min 100 (regF s Reg.vidCtrl 22 16)
    let want := if hi * v.online < n then 1 else if n < lo * v.online || (v.online == 0 && decide (0 < lo)) then 2 else 0
    let s := { s with vid := { v with busy := 0, online := 0, want := if vidMay s want then want else 0, windows := v.windows + 1 } }
    .next (setF s Reg.vidStatus 15 9 occ)

/-- VID_STATUS as read (R24, R26). -/
def vidStatus (s : State) : Word :=
  let trim := decide (vidCode s < 14) || (List.range 8).any fun g => sget 2 s.pack.groups g != 2
  setFld (setFld (reg s Reg.vidStatus) 8 8 (b2n (vidWant s != 0 && !vidFree s))) 4 4 (b2n trim)

end Sys2Proof.Machine
end

