-- ==== Sys2Proof/Machine/Statistics.lean ====
section
/-! DEFINITION. The statistics block (02_host_interface.md R36), STATS_SNAPSHOT, and the accesses of BAR2 (R35). -/

namespace Sys2Proof.Machine

/-! ## Levels that registers and the block show -/

/-- Handle slots in use (R42, R44). -/
def slotsUsed (s : State) : Nat := 256 - s.host.free.length

/-- Copies queued for a listener. -/
def lqItems (s : State) (n : Nat) : Nat := (s.lq.copies.filter (fun c => c.listener == n)).length

/-! ## The layout (R36) -/

/-- The counter fields of the hub totals, by register and low bit. -/
def statHub : List (Nat × Nat) :=
  [(Reg.hostErrors, 16), (Reg.hostErrors, 0), (Reg.admitRefuseA, 16), (Reg.admitRefuseA, 0), (Reg.admitRefuseB, 16),
   (Reg.admitRefuseB, 0), (Reg.admitRefuseC, 16), (Reg.admitRefuseC, 0), (Reg.admitRefuseD, 0), (Reg.ttEvents, 16), (Reg.ttEvents, 0),
   (Reg.ttAged, 0), (Reg.herderDispatch, 0), (Reg.packCounts, 16), (Reg.packCounts, 0), (Reg.packAbandon, 0), (Reg.copierCount, 0),
   (Reg.slotCounts, 16), (Reg.slotCounts, 0), (Reg.retrCountA, 24), (Reg.retrCountA, 16), (Reg.retrCountA, 0), (Reg.retrCountB, 16),
   (Reg.retrCountB, 0), (Reg.retrCountC, 16), (Reg.retrCountC, 0), (Reg.injStatus, 16), (Reg.progEvtLost, 0)]

/-- The levels behind the hub totals. -/
def statLevels (s : State) : List Nat :=
  [s.pack.plies % 2 ^ 32, s.pack.plies / 2 ^ 32 % 2 ^ 32, kennelFree s, inFlight s, s.herder.waiting.length, lqFree s, slotsUsed s, vidCode s]

/-- The counter fields of a serial port. -/
def statSerial (n : Nat) : List (Nat × Nat) :=
  [(Reg.spRxCount n, 0), (Reg.spRxErr n, 24), (Reg.spRxErr n, 16), (Reg.spRxErr n, 8), (Reg.spRxErr n, 0), (Reg.spRxDiscard n, 16),
   (Reg.spRxDiscard n, 0), (Reg.spTxCount n, 0), (Reg.spTxErr n, 24), (Reg.spTxErr n, 16), (Reg.spTxErr n, 8), (Reg.spTxErr n, 0)]

/-- The counter fields of a CAN port. -/
def statCan (n : Nat) : List (Nat × Nat) :=
  [(Reg.cnRxCounts n, 16), (Reg.cnRxCounts n, 0), (Reg.cnRxLost n, 16), (Reg.cnRxLost n, 8), (Reg.cnRxFiltered n, 0), (Reg.cnFpCounts n, 24),
   (Reg.cnFpCounts n, 16), (Reg.cnFpCounts n, 8), (Reg.cnFpCounts n, 0), (Reg.cnTxCounts n, 16), (Reg.cnTxCounts n, 0),
   (Reg.cnErrCountsA n, 24), (Reg.cnErrCountsA n, 16), (Reg.cnErrCountsA n, 8), (Reg.cnErrCountsA n, 0), (Reg.cnErrCountsB n, 24),
   (Reg.cnErrCountsB n, 16), (Reg.cnErrCountsB n, 8), (Reg.cnErrCountsB n, 0)]

/-- The counter fields of an Ethernet port with its PTP port; the duplicate table's come behind those of EN0. -/
def statEth (n : Nat) : List (Nat × Nat) :=
  [(Reg.ethRxFrames n, 0), (Reg.ethRxErr n, 16), (Reg.ethRxErr n, 8), (Reg.ethRxErr n, 0), (Reg.ethRxDrop n, 16), (Reg.ethRxDrop n, 8),
   (Reg.ethRxDrop n, 0), (Reg.eth450Counts n, 16), (Reg.eth450Counts n, 8), (Reg.eth450Counts n, 0), (Reg.eth450Err n, 24),
   (Reg.eth450Err n, 16), (Reg.eth450Err n, 8), (Reg.eth450Err n, 0), (Reg.ethTxFrames n, 0), (Reg.ethTxErr n, 24), (Reg.ethTxErr n, 16),
   (Reg.ethTxErr n, 8), (Reg.ptpCounts n, 16), (Reg.ptpCounts n, 0)] ++ (if n == 0 then [(Reg.ethDupStatus, 0)] else [])

/-- The counter fields of an event input, an event output and a panel port. -/
def statEvIn (n : Nat) : List (Nat × Nat) := [(Reg.eiCounts n, 16), (Reg.eiCounts n, 0), (Reg.eiLost n, 0)]
def statEvOut (m : Nat) : List (Nat × Nat) := [(Reg.eoCounts m, 24), (Reg.eoCounts m, 16), (Reg.eoCounts m, 8), (Reg.eoCounts m, 0)]
def statPanel (n : Nat) : List (Nat × Nat) := [(Reg.pnCounts n, 24), (Reg.pnCounts n, 16), (Reg.pnCounts n, 8), (Reg.pnCounts n, 0)]

/-- The counter fields of the bridge. -/
def statBridge : List (Nat × Nat) :=
  [(Reg.cbBadAccess, 0), (Reg.cbRevCounts, 16), (Reg.cbRevCounts, 8), (Reg.cbRevCounts, 0), (Reg.cbDropped, 0), (Reg.cbLogStatus, 24)]
    ++ (List.range 8).flatMap fun w => [(Reg.cbFwPrefDiscard w, 0), (Reg.cbFwFaults w, 16), (Reg.cbFwFaults w, 0)]

/-- The counter fields of the time core. -/
def statTime : List (Nat × Nat) :=
  [(Reg.timeCounts, 16), (Reg.timeCounts, 0), (Reg.timeDiscards, 16), (Reg.timeDiscards, 0), (Reg.timeStatus, 16)]
    ++ (List.range 4).map (fun n => (Reg.cmpCtrl n, 16)) ++ (List.range 8).map (fun g => (Reg.calRefused g, 0))

/-- The counter fields of the pair link and of power. -/
def statPower : List (Nat × Nat) :=
  [(Reg.pairCounts, 16), (Reg.pairCounts, 8), (Reg.pairCounts, 0), (Reg.vidStatus, 16), (Reg.watchWake, 24)]

/-- The counter fields of a listener. -/
def statListener (n : Nat) : List (Nat × Nat) :=
  [(Reg.lqSent n, 0), (Reg.lqLate n, 16), (Reg.lqLate n, 0), (Reg.lqRefused n, 16), (Reg.lqRefused n, 0), (Reg.lqFlushed n, 16),
   (Reg.lqFlushed n, 0), (Reg.lqDrain n, 16), (Reg.lqDrain n, 0), (Reg.lqEchoLost n, 0)]

/-- Word i of a region: the total of its i-th field, then its levels, then 0. -/
def statIn (s : State) (fs : List (Nat × Nat)) (levels : List Nat) (i : Nat) : Word :=
  match fs[i]? with
  | some (o, lo) => BitVec.ofNat 32 (total s o lo)
  | none => BitVec.ofNat 32 (levels.getD (i - fs.length) 0)

/-- The word of the statistics block at a byte offset (R36). -/
def statWord (s : State) (off : Nat) : Word :=
  let i (base size : Nat) : Nat := (off - base) % size / 4
  let n (base size : Nat) : Nat := (off - base) / size
  if off < 0x40 then ([0x00010400#32] ++ stampWords (now s) ++ [BitVec.ofNat 32 s.herder.nextSeq]).getD (off / 4) 0
  else if off < 0x240 then BitVec.ofNat 32 (total s (Reg.detCount ((off - 0x40) / 4)) 0)
  else if off < 0x400 then statIn s statHub (statLevels s) ((off - 0x240) / 4)
  else if off < 0x2400 then statIn s (statSerial (n 0x400 64)) [] (i 0x400 64)
  else if off < 0x2800 then statIn s (statCan (n 0x2400 128)) [] (i 0x2400 128)
  else if off < 0x2A00 then statIn s (statEth (n 0x2800 128)) [] (i 0x2800 128)
  else if off < 0x2C00 then statIn s (statEvIn (n 0x2A00 16)) [] (i 0x2A00 16)
  else if off < 0x2C80 then statIn s (statEvOut (n 0x2C00 16)) [] (i 0x2C00 16)
  else if off < 0x2D00 then statIn s (statPanel (n 0x2C80 16)) [] (i 0x2C80 16)
  else if off < 0x2E00 then statIn s statBridge [] (i 0x2D00 256)
  else if off < 0x2F00 then statIn s statTime [] (i 0x2E00 256)
  else if off < 0x3000 then statIn s statPower [] (i 0x2F00 256)
  else if off < 0xF000 then
    let l := n 0x3000 48
    statIn s (statListener l) [lqItems s l, lqUse s l] (i 0x3000 48)
  else if off < 0xF100 then BitVec.ofNat 32 (total s (Reg.progCount ((off - 0xF000) / 4)) 0)
  else 0#32

/-- STATS_SNAPSHOT (R36, R47): the first bytes of the block, as it stands, go to host memory. -/
def execStatsSnapshot (slot : Fin 256) (s : State) : Host.Outcome State Fault Refusal :=
  match cmdReady s slot.val 0x02 with
  | none => .next s
  | some c =>
    if !hostMem s then .next s
    else
      let n := (cmdW c 3).toNat
      let bytes := wordsBytes ((List.range (n / 4)).map fun i => statWord s (4 * i))
      .next (finish (dmaWrite s (addr64 (cmdW c 1) (cmdW c 2)) bytes) slot.val stDone (n / 64) 0)

/-! ## BAR2 (R31, R35) -/

/-- The DWORD of BAR2 at an offset: a failed word is returned as stored and reported, with no action. -/
def bar2Word (s : State) (off : Nat) : State × Word :=
  if off < 0x200000 then
    match hostWords s .kennel (fun _ => 0) (off / 4) 1 with
    | (s, ws) => (s, ws.headD 0)
  else if off < 0x240000 then
    match hostWords s .slots (fun a => a / 16) ((off - 0x200000) / 4) 1 with
    | (s, ws) => (s, ws.headD 0)
  else if off < 0x250000 then (s, statWord s (off - 0x240000))
  else (s, 0#32)

/-- n DWORDs of BAR2, each read at an instant of its own. -/
def bar2Words (s : State) : Nat → Nat → State × List Word
  | _, 0 => (s, [])
  | off, n + 1 =>
    let (s, w) := bar2Word s off
    let (s, ws) := bar2Words s (off + 4) n
    (s, w :: ws)

/-- Bytes in a BAR2 (R31). -/
def bar2Size : Nat := 2 ^ 24

/-- BAR2_READ (R35): any length and alignment; while the hub does not answer, all ones (log 44). -/
def execBar2Read (off len : Nat) (s : State) : Host.Outcome State Fault Refusal :=
  if bar2Size < off + len then .fault .outsideBar
  else if !bar0Ok s then .next (emit s (.readReply 2 off (List.replicate len 0xFF#8)))
  else
    let first := off / 4
    let n := if len == 0 then 0 else (off + len - 1) / 4 + 1 - first
    let (s, ws) := bar2Words s (4 * first) n
    .next (emit s (.readReply 2 off ((wordsBytes ws).drop (off % 4) |>.take len)))

/-- A malformed access of BAR0, or a write of BAR2, is counted (R32, R35). -/
def badAccess (s : State) : State := count s Reg.hostErrors 15 0 1

/-- BAR2_WRITE (R35): discarded and counted. -/
def execBar2Write (off len : Nat) (s : State) : Host.Outcome State Fault Refusal :=
  if bar2Size < off + len then .fault .outsideBar else .next (if bar0Writes s then badAccess s else s)

end Sys2Proof.Machine
end

