-- ==== Sys2Proof/Machine/Submit.lean ====
section
/-! DEFINITION. The submission windows: loading a window, the checks of CMD_ACCEPT, handles (02_host_interface.md R38 to R47, R358). -/

namespace Sys2Proof.Machine

/-! ## Loading a window (R32, R38) -/

/-- Words written to the buffer of a window from word k on. -/
def windowPut (s : State) (w : Nat) : Nat → List Word → State
  | _, [] => s
  | k, d :: ds => windowPut { s with host := { s.host with cmdBuf := sset 0 s.host.cmdBuf (16 * w + k) d } } w (k + 1) ds

/-- A window is loaded by any write to its buffer (R38). -/
def windowLoad (s : State) (w k : Nat) (data : List Word) : State :=
  let s := windowPut s w k data
  { s with host := { s.host with loaded := if s.host.loaded.contains w then s.host.loaded else s.host.loaded ++ [w] } }

/-- CMD_BUF_WRITE (R38): 4 to 64 bytes within the buffer; a longer write, or an empty one, is a malformed access (R32). -/
def execCmdBufWrite (w : Fin 8) (k : Fin 16) (data : List Word) (s : State) : Host.Outcome State Fault Refusal :=
  if !bar0Writes s then .next s
  else if data.isEmpty || decide (16 < k.val + data.length) then .next (badAccess s)
  else .next (windowLoad s w.val k.val data)

/-- The 16 words in a window; bytes not written since the last read are 0 (R38). -/
def windowWords (s : State) (w : Nat) : List Word := (List.range 16).map fun k => sget 0 s.host.cmdBuf (16 * w + k)

/-- A read of CMD_ACCEPT sets the 64 bytes of its window to 0, and the window is no longer loaded (R38). -/
def windowClear (s : State) (w : Nat) : State :=
  { s with host := { s.host with cmdBuf := s.host.cmdBuf.filter (fun e => e.1 / 16 != w), loaded := s.host.loaded.filter (· != w) } }

/-! ## The checks (R43) -/

/-- The opcodes of the catalogue (R47). -/
def catalogue : List Nat :=
  [0x00, 0x01, 0x02, 0x03, 0x04, 0x10, 0x11, 0x12, 0x13, 0x20, 0x21, 0x22, 0x23, 0x24, 0x25, 0x30, 0x31, 0x32, 0x33, 0x34, 0x40, 0x50,
   0x51, 0x60, 0x61, 0x70, 0x80, 0x81, 0x82]

/-- Port j that W1 and W2 of a SLEEP_ENTER name (R47). -/
def sleepPort (w : Nat → Word) (j : Nat) : Nat := fld (w (1 + j / 4)) (8 * (j % 4) + 7) (8 * (j % 4))

/-- The CAN frame of a CAN_SEND cannot exist (R260). -/
def canMalformed (w : Nat → Word) : Bool :=
  let n := fld (w 3) 6 0
  let fdf := bit (w 1) 9
  (bit (w 1) 12 && decide (32 < n)) || (!fdf && decide (8 < n)) || decide (64 < n)
    || (!bit (w 1) 11 && fld (w 2) 28 11 != 0)

/-- A field of a command lies outside its encoding (R43). -/
def malformed (w : Nat → Word) : Bool :=
  let op := fld (w 0) 7 0
  let n (k : Nat) : Nat := (w k).toNat
  if op == 0x01 then w 1 != 0x5E5E#32
  else if op == 0x02 then n 3 % 64 != 0 || decide (65536 < n 3)
  else if op == 0x04 then (List.range 8).any fun j => bit (w 3) j && decide (128 ≤ sleepPort w j)
  else if op == 0x10 then n 4 % 4 != 0 || (bit (w 1) 0 && n 2 % 4 != 0)
  else if op == 0x12 || op == 0x13 then decide (4 < fld (w 1) 7 0)
  else if op == 0x20 || op == 0x21 || op == 0x22 then decide (portCount (fld (w 1) 15 12) ≤ fld (w 1) 6 0)
  else if op == 0x30 then decide (1000000000 ≤ (w 2).toInt.natAbs)
  else if op == 0x31 then decide (n 2 < 10) || decide (1000000000 < n 2)
  else if op == 0x34 then n 4 % 64 != 0
  else if op == 0x50 then bit (w 1) 0
  else if op == 0x60 then canMalformed w
  else if op == 0x70 then decide (n 4 < 60) || decide (1514 < n 4)
  else if op == 0x80 || op == 0x81 then n 3 % 4 != 0 || n 4 % 4 != 0
  else if op == 0x82 then n 3 % 4096 != 0 || n 4 % 4096 != 0
  else false

/-- Commands that the boot sequencer keeps out (R43, R358). -/
def bootRefused (w : Nat → Word) : Bool :=
  let op := fld (w 0) 7 0
  op == 0x10 || op == 0x11 || (op == 0x12 && decide (fld (w 1) 7 0 < 3)) || (decide (0x80 ≤ op) && decide (op ≤ 0x82))

/-- Commands are not accepted (R43, R345). -/
def notEnabled (s : State) (op : Nat) : Bool :=
  !regB s Reg.hostCtrl 0 || !ringEn s 0 || (s.integ.stopped && op != 0x01)

/-- The refusal code of the command in a window, in the order of R43; 0 for none. -/
def refusal (s : State) (w : Nat) : Nat :=
  let ws := windowWords s w
  let g (k : Nat) : Word := ws.getD k 0
  let op := fld (g 0) 7 0
  if !s.host.loaded.contains w then 5
  else if notEnabled s op then 4
  else if !catalogue.contains op then 2
  else if malformed g then 3
  else if bootBusy s && bootRefused g then 6
  else if op != 0x01 && s.host.free.isEmpty then 1
  else 0

/-! ## Accepting (R41, R42, R47) -/

/-- A command takes the slot that has been free the longest, with the generation that follows its last (R41, R42). The commands of the
bridge note the posted writes that they wait for (R299, R305). -/
def allocate (s : State) (words : List Word) : State × Nat :=
  match s.host.free with
  | [] => (s, 1)
  | slot :: rest =>
    let gen := sget 0 s.host.gens slot % 255 + 1
    let op := fld (words.headD 0) 7 0
    let c : HostCmd :=
      { slot := slot, gen := gen, words := words, phase := .accepted, fetch := none, flash := false, got := [], done := 0,
        aux := if op == 0x50 || op == 0x51 then s.bridge.posted.length else 0 }
    let h := s.host
    ({ s with host := { h with free := rest, gens := sset 0 h.gens slot gen, cmds := h.cmds ++ [c] } }, gen * 256 + slot)

/-- A DEVICE_RESET is scheduled 2 µs after its acceptance; it takes no slot (R47). -/
def scheduleReset (s : State) : State :=
  { s with host := { s.host with resetAt := some (s.host.resetAt.getD s.time.tb) } }

/-- RESULT of a read of CMD_ACCEPT, and what the read does (R38 to R43, R47). -/
def acceptResult (s : State) (w : Nat) : State × Nat :=
  let r := refusal s w
  let ws := windowWords s w
  let s := windowClear s w
  if r != 0 then (s, r)
  else if fld (ws.headD 0) 7 0 == 0x01 then (scheduleReset s, 0xFFFF)
  else allocate s ws

/-- A read of CMD_ACCEPT. -/
def acceptRead (s : State) (w : Nat) : State × Word :=
  let (s, r) := acceptResult s w
  (s, BitVec.ofNat 32 r)

/-- A read of a BAR0 register is answered. -/
def replied (s : State) (off : Nat) (v : Word) : State := emit s (.readReply 0 off (wordBytes v))

/-- CMD_ACCEPT (R43): while BAR0 does not answer, the read returns all ones (R29). -/
def execCmdAccept (w : Fin 8) (s : State) : Host.Outcome State Fault Refusal :=
  if !bar0Ok s then .next (replied s (Reg.cmdAccept w.val) 0xFFFFFFFF#32)
  else
    let (s, v) := acceptRead s w.val
    .next (replied s (Reg.cmdAccept w.val) v)

/-- A window holds a DEVICE_RESET that its CMD_ACCEPT read accepts (R47). -/
def holdsReset (s : State) (w : Nat) : Bool := refusal s w == 0 && fld (sget 0 s.host.cmdBuf (16 * w)) 7 0 == 0x01

/-- DEVICE_RESET (R47): the accepting read of a DEVICE_RESET with the right key. -/
def execDeviceReset (w : Fin 8) (s : State) : Host.Outcome State Fault Refusal :=
  if !(bar0Ok s && holdsReset s w.val) then .next s
  else
    let (s, v) := acceptRead s w.val
    .next (replied s (Reg.cmdAccept w.val) v)

end Sys2Proof.Machine
end

