-- ==== Sys2Proof/Machine/HostRegs.lean ====
section
/-! DEFINITION. BAR0 as the host sees it: what each register reads as, what a read or a write of it does (00_scope.md R4 to R6, R395;
02_host_interface.md R32 to R34; 18_register_index.md R393). -/

namespace Sys2Proof.Machine

/-! ## What registers read as

Registers that show the state of a block, rather than hold a value of their own, are formed at the read. -/

/-- A map of engines with a property, engine n in bit n. -/
def engineMap (p : Nat → Bool) : Word := BitVec.ofNat 32 ((List.range 32).foldl (fun a e => a + b2n (p e) * 2 ^ e) 0)

/-- HOST_STATUS. -/
def viewHostStatus (s : State) : Word :=
  BitVec.ofNat 32 (slotsUsed s * 256 + b2n s.host.d3 * 16 + b2n (!s.host.held.isEmpty) * 8 + b2n s.host.usable)
    ||| (reg s Reg.hostStatus &&& 0x6#32)

/-- Valid entries of the talker table that are pinned. -/
def pinnedTalkers (s : State) : List Nat := (validTalkers s).filter fun i => bit (talkW s i 3) 30

/-- A LOAD_PROGRAM past its header, or a banked TABLE_WRITE, writes the inactive bank. -/
def loadBusy (s : State) : Bool :=
  s.host.cmds.any fun c => c.phase == .running && ((cmdOp c == 0x10 && loadOpen c) || (cmdOp c == 0x12 && decide (fld (cmdW c 1) 7 0 < 3)))

/-- The registers of the Kennel, the Herder and the Pack (0x4_0000 to 0x4_07FF). -/
def viewPack (s : State) (off : Nat) : Option Word :=
  let nat (n : Nat) : Option Word := some (BitVec.ofNat 32 n)
  if off == Reg.kennelFree then nat (kennelFree s)
  else if off == Reg.kennelLow then nat s.herder.low
  else if off == Reg.inflight then nat (s.herder.peak * 65536 + inFlight s)
  else if off == Reg.nextSeq then nat s.herder.nextSeq
  else if off == Reg.ttCount then nat ((pinnedTalkers s).length * 65536 + (validTalkers s).length)
  else if off == Reg.herderStatus then
    nat (s.herder.waiting.length * 65536 + ((List.range 32).filter fun e => shown s (engOnline s e && !engBusy s e)).length)
  else if off == Reg.packBank then nat (b2n (loadBusy s) * 4 + b2n s.pack.swapEnded.isSome * 2 + s.pack.active)
  else if off == Reg.engineOnline then some (engineMap (engOnline s))
  else if off == Reg.engineBusy then some (engineMap (engBusy s))
  else if off == Reg.engineWedged then some (engineMap fun e => (engine s e).wedged)
  else if off == Reg.groupState then nat ((List.range 8).foldl (fun a g => a + groupState s g * 4 ^ g) 0)
  else if off == Reg.packPliesLo then nat (s.pack.plies % 2 ^ 32)
  else if off == Reg.packPliesHi then nat (s.pack.pliesHi.getD (s.pack.plies / 2 ^ 32) % 2 ^ 32)
  else if within off 0x40400 0x200 then
    let g := engine s ((off - 0x40400) / 16)
    match off % 16 with
    | 0 => nat (b2n g.recd.isSome * 2 ^ 31 + b2n g.wedged * 2 ^ 30 + b2n (g.recd.isSome && g.bank == 1) * 2 ^ 29
        + (match g.recd with | some r => r.talker % 4096 | none => 0))
    | 4 => nat (match g.recd with | some r => r.seq | none => g.lastSeq)
    | 8 => nat (g.pc % 32768)
    | _ => nat (min 65535 g.budget * 65536 + min 65535 g.plies)
  else none

/-- The registers of the listeners (0x5_0000 to 0x5_FFFF). -/
def viewListeners (s : State) (off : Nat) : Option Word :=
  let nat (n : Nat) : Option Word := some (BitVec.ofNat 32 n)
  if off == Reg.lqPoolFree then nat (lqFree s)
  else if off == Reg.lqPoolLow then nat s.lq.low
  else if off == Reg.drainClock then nat (drainMs s)
  else if within off 0x51000 0x8000 && off % 32 == 4 then
    let n := (off - 0x51000) / 32
    nat (b2n (s.lq.drains.any fun d => d.listener == n) * 2 ^ 31 + lqItems s n * 65536 + lqUse s n)
  else none

/-- CAL_STATUS and CAL_COUNT of region g (R79 to R84). -/
def viewCal (s : State) (g k : Nat) : Option Word :=
  let r := region s g
  let lag := (regionTdcs g).filter fun t => tdcUse s t != r.newest
  let prev := if lag.isEmpty || lag.any (fun t => tdcUse s t == 0) then 0 else bufEpoch r (3 - r.newest)
  if k == 0 then
    some (BitVec.ofNat 32 (lag.length * 65536 + calModeNum r.mode * 256 + prev * 16 + bufEpoch r r.newest))
  else if k == 4 then some (BitVec.ofNat 32 r.hits)
  else none

/-- The state registers of event outputs and inputs, Ethernet ports, CAN ports and panels. -/
def viewPorts (s : State) (off : Nat) : Option Word :=
  let nat (n : Nat) : Option Word := some (BitVec.ofNat 32 n)
  if within off 0x8000 0x400 && off % 32 == 12 then some (eiStatus s ((off - 0x8000) / 32))
  else if within off 0x8800 0x200 && off % 64 == 0x24 then
    let m := (off - 0x8800) / 64
    let o := evOut s m
    nat (b2n (shown s (owns s (epOut m))) * 512 + b2n (o.active.head?.any fun p => decide (p.leadAt ≤ tbTime s)) * 256 + o.queue.length)
  else if within off 0x30000 0x8000 then
    let n := (off - 0x30000) / 0x1000
    let k := off % 0x1000
    if within k 0x7E0 32 then
      nat ((List.range 32).foldl (fun a i => a + b2n ((can s n).claims.any fun c => c.1 == 8 * (k - 0x7E0) + i) * 2 ^ i) 0)
    else if within k 0x800 2032 then
      let name := canName s n ((k - 0x800) / 8)
      nat (if k % 8 == 0 then name else name / 2 ^ 32)
    else none
  else if off == Reg.ethDupStatus then some (setFld (reg s off) 24 16 s.dups.length)
  else if within off 0x38000 0x8000 && off % 0x2000 == 0x40 then some (ethStatus s ((off - 0x38000) / 0x2000))
  else if within off 0x68000 0x8000 then
    let n := (off - 0x68000) / 0x1000
    let k := off % 0x1000
    if k == 8 then some (setFld (setFld (reg s off) 31 31 (b2n (shown s (owns s (epPanel n))))) 15 0 ((panelTemp s n) % 65536).toNat)
    else if within k 0x080 0x280 || within k 0x400 0x1E0 then some (memData (sget 0 s.panelSet off))
    else if within k 0x800 0x400 then some (memData (sget 0 s.ledgers (256 * n + (k - 0x800) / 4)))
    else none
  else none

/-- The state registers of the bridge, of integrity, of power and of the pair link. -/
def viewSystem (s : State) (off : Nat) : Option Word :=
  let nat (n : Nat) : Option Word := some (BitVec.ofNat 32 n)
  let b := s.bridge
  if off == Reg.cbStatus then
    nat (b2n b.grantTb.isSome * 2 ^ 31 + b2n (lockHeld b) * 2 ^ 30 + b2n b.backoff * 2 ^ 29 + b.reverse.length * 65536 + b.posted.length)
  else if off == Reg.cbIrqCtrl then some (if s.time.locked then reg s off else setFld (reg s off) 11 8 0)
  else if off == Reg.cbWseq then nat b.nextSeq
  else if off == Reg.injStatus then some (setFld (reg s off) 4 0 (armCount s))
  else if within off 0x70400 256 then (if off % 16 == 12 then none else some (armWord s ((off - 0x70400) / 16) (off % 16 / 4)))
  else if off == Reg.wedgeStatus then some (wedgeStatus s)
  else if within off 0x70700 256 then some (wedgeWord s ((off - 0x70700) / 16) (off % 16 / 4))
  else if off == Reg.vidStatus then some (vidStatus s)
  else if off == Reg.timeStatus then some (setFld (reg s off) 1 1 (b2n s.power.ref25))
  else if off == Reg.pairStatus then some (pairStatus s)
  else if within off 0x78140 20 then some (mapWord (ownedShown s) ((off - 0x78140) / 4))
  else if off == Reg.hostStatus then some (viewHostStatus s)
  else none

/-- The value that a register shows; an offset that no register occupies reads 0 (R393). -/
def view (s : State) (off : Nat) : Word :=
  let v := if within off 0x6100 256 then viewCal s ((off - 0x6100) / 32) (off % 32)
    else if off < 0x40000 then (viewPorts s off).or (viewSystem s off)
    else if off < 0x50000 then viewPack s off
    else if off < 0x60000 then viewListeners s off
    else (viewPorts s off).or (viewSystem s off)
  v.getD (reg s off)

/-! ## What a read does (R5, R34) -/

/-- The lowest and highest levels restart at the present level when they are read. -/
def levelRestart (s : State) (off : Nat) : State :=
  if off == Reg.kennelLow then { s with herder := { s.herder with low := kennelFree s } }
  else if off == Reg.inflight then { s with herder := { s.herder with peak := inFlight s } }
  else if off == Reg.lqPoolLow then { s with lq := { s.lq with low := lqFree s } }
  else s

/-- What a read of a register leaves beside clearing its RC fields: PACK_PLIES_LO holds the high half; HOST_ERRORS and
CB_FW_PREF_DISCARD let the next fault address be taken. -/
def readTouch (s : State) (off : Nat) : State :=
  if off == Reg.packPliesLo then { s with pack := { s.pack with pliesHi := some (s.pack.plies / 2 ^ 32) } }
  else if off == Reg.packPliesHi then { s with pack := { s.pack with pliesHi := none } }
  else if off == Reg.hostErrors then { s with host := { s.host with faultSeen := false } }
  else if within off 0x60100 256 && off % 32 == 12 then setF s (off + 4) 31 31 0
  else levelRestart s off

/-- The RC fields of a register (R5). -/
def rcMask (off : Nat) : Word := match regSpec off with
  | some r => r.rc
  | none => 0

/-- The RC fields of a register are cleared; a level restarts instead. -/
def rcClear (s : State) (off : Nat) : State :=
  if rcMask off == 0 || [Reg.kennelLow, Reg.inflight, Reg.lqPoolLow].contains off then s
  else setReg s off (reg s off &&& ~~~(rcMask off))

/-- The panel port whose PN_REGION, PN_BIND or PN_WAVE an offset lies in: a word of these is checked when it is read (R338). -/
def panelWordAt (off : Nat) : Option Nat :=
  if within off 0x68000 0x8000 && (within (off % 0x1000) 0x080 0x280 || within (off % 0x1000) 0x400 0x1E0) then some ((off - 0x68000) / 0x1000)
  else none

/-- A well-formed read of BAR0: its effect and its value. -/
def hostRead (s : State) (off : Nat) : State × Word :=
  if within off 0x1000 0x400 && off % 0x80 == 0x40 then acceptRead s ((off - 0x1000) / 0x80)
  else if within off 0x10000 0x20000 && off % 0x400 == 0x40 then spStatusRead s ((off - 0x10000) / 0x400)
  else if within off 0x10000 0x20000 && off % 0x400 == 0x44 then spDataRead s ((off - 0x10000) / 0x400)
  else if within off 0x30000 0x8000 && off % 0x1000 == 0x40 then canStatus s ((off - 0x30000) / 0x1000)
  else match panelWordAt off with
    | some n => panelWord s n off
    | none => (readTouch (rcClear s off) off, view s off)

/-- RC_REGISTER_READ (R34): a read of a register of BAR0. One at a misaligned offset is malformed (R32). -/
def execRcRegisterRead (off : BitVec 19) (s : State) : Host.Outcome State Fault Refusal :=
  let o := off.toNat
  if !bar0Ok s then .next (replied s o 0xFFFFFFFF#32)
  else if o % 4 != 0 then .next (replied (badAccess s) o 0xFFFFFFFF#32)
  else
    let (s, v) := hostRead s o
    .next (replied s o v)

/-! ## What a write does (R5, R6) -/

/-- A write by access type (R5): RW fields take the value, W1C bits clear where it has a 1, everything else stays; reserved bits are
ignored (R6), and so is an offset that no register occupies (R393). -/
def plainWrite (s : State) (off : Nat) (v : Word) : State :=
  match regSpec off with
  | none => s
  | some r => setReg s off ((reg s off &&& ~~~r.rw &&& ~~~(r.w1c &&& v)) ||| (v &&& r.rw))

/-- The ring whose block an offset lies in. -/
def ringAt (off : Nat) : Option Nat :=
  if within off 0x1400 0x20 then some 0 else if within off 0x2C00 0x20 then some 1
  else if within off 0x1800 0x200 then some (2 + (off - 0x1800) / 32) else none

/-- A write of TOD_CTRL: UTC_OFFSET applies to edges stamped after it (R94). -/
def todWrite (s : State) (v : Word) : State :=
  let old := utcOffset s
  let s := plainWrite s Reg.todCtrl v
  if utcOffset s == old then s else setTime s { s.time with utcOld := (now s, old) :: s.time.utcOld }

/-- A write in the block of the time base (0x0_4000 to 0x0_5FFF). -/
def timeWrite (s : State) (off : Nat) (v : Word) : State :=
  if off == Reg.timeLatch then (if bit v 0 then timeCapture s else s)
  else if off == Reg.todCtrl then todWrite s v
  else if within off 0x4100 0x80 then
    let n := (off - 0x4100) / 32
    match off % 32 with
    | 0 => setCmp s n { cmpUnit s n with heldSec := v }
    | 4 => cmpLoad s n v
    | 12 => cmpCtrl s n (bit v 0)
    | _ => plainWrite s off v
  else plainWrite s off v

/-- A write of VID_CTRL: a change that a window asked for, and that R24 still holds back, is dropped where the new settings do not allow
it (R25). -/
def vidCtrlWrite (s : State) (v : Word) : State :=
  let s := plainWrite s Reg.vidCtrl v
  { s with vid := { s.vid with want := if vidMay s s.vid.want then s.vid.want else 0 } }

/-- A write in the block of event output m. -/
def eoWrite (s : State) (off : Nat) (v : Word) : State :=
  let m := (off - 0x8800) / 64
  match off % 64 with
  | 0x18 => setEvOut s m { evOut s m with heldSec := v }
  | 0x1C => setEvOut s m { evOut s m with heldNs := v &&& 0x3FFFFFFF#32 }
  | 0x20 => eoPulseQueue s m v
  | _ => plainWrite s off v

/-- A write in the block of the bridge (0x6_0000 to 0x6_7FFF). -/
def bridgeWrite (s : State) (off : Nat) (v : Word) : State :=
  if off == Reg.cbCtrl then cbCtrlWrite s v
  else if off == Reg.cbIrqCtrl then irqCtrlWrite s v
  else if off == Reg.cbIrqAck then irqAck s v
  else if off == Reg.cbLogClear then (if bit v 0 then cbLogClear s else s)
  else if within off 0x60100 256 && decide (off % 32 < 12) then farWindowWrite s ((off - 0x60100) / 32) (off % 32 / 4) v
  else plainWrite s off v

/-- A write of a panel setting, which is kept with check bits (R338). -/
def panelWrite (s : State) (off : Nat) (v : Word) : State :=
  match regSpec off with
  | none => s
  | some r => { s with panelSet := sset 0 s.panelSet off (memFresh (v &&& r.rw)) }

/-- A write of PAIR_HOME or PAIR_TAKE: bits 156 to 159 read 0. -/
def pairMapWrite (s : State) (off : Nat) (v : Word) : State :=
  plainWrite s off (if off == Reg.pairHome 4 || off == Reg.pairTake 4 then v &&& 0x0FFFFFFF#32 else v)

/-- A write in the blocks below the time base: windows, rings, messages. -/
def hostBlockWrite (s : State) (off : Nat) (v : Word) : State :=
  if within off 0x1000 0x400 then (if off % 0x80 < 0x40 then windowLoad s ((off - 0x1000) / 0x80) (off % 0x80 / 4) [v] else s)
  else if within off 0x2000 512 && off % 16 == 12 then vectorControl s ((off - 0x2000) / 16) v
  else match ringAt off with
    | none => plainWrite s off v
    | some r =>
      if off == ringOff r + 8 then ringCtrlWrite s r v
      else if off == ringOff r + 12 then ringHeadWrite s r v
      else plainWrite s off v

/-- A well-formed write of BAR0. -/
def hostWrite (s : State) (off : Nat) (v : Word) : State :=
  if off < 0x4000 then hostBlockWrite s off v
  else if off < 0x6000 then timeWrite s off v
  else if within off 0x8800 0x200 then eoWrite s off v
  else if within off 0x30000 0x8000 && off % 0x1000 == 0x14 then (if bit v 0 then canRecover s ((off - 0x30000) / 0x1000) else s)
  else if off == Reg.ethMdioCmd then mdioWrite s v
  else if within off 0x50080 128 then listenerEnable s ((off - 0x50080) / 4) v
  else if within off 0x50100 128 then listenerDisable s ((off - 0x50100) / 4) v
  else if within off 0x60000 0x8000 then bridgeWrite s off v
  else if (panelWordAt off).isSome then panelWrite s off v
  else if off == Reg.vidCtrl then vidCtrlWrite s v
  else if off == Reg.pairCtrl then pairCtrlWrite s v
  else if within off 0x78100 0x40 then pairMapWrite s off v
  else plainWrite s off v

/-- REGISTER_WRITE (R5): a write of a register of BAR0. One at a misaligned offset is malformed (R32). -/
def execRegisterWrite (off : BitVec 19) (val : Word) (s : State) : Host.Outcome State Fault Refusal :=
  if !bar0Writes s then .next s
  else if off.toNat % 4 != 0 then .next (badAccess s)
  else .next (hostWrite s off.toNat val)

/-! ## Malformed accesses (R32) -/

/-- The access lies in the MSI-X table or the PBA, where an aligned QWORD is well formed. -/
def msixArea (off : Nat) : Bool := within off 0x2000 512 || within off 0x2800 8

/-- An access of BAR0, by its place and the byte enables of its bytes, is one that R32 accepts: every byte enabled, and a DWORD, a QWORD
of the MSI-X structures, or a write of 4 to 64 bytes into a command buffer. -/
def bar0WellFormed (isWrite : Bool) (off : Nat) (enables : List Bool) : Bool :=
  let len := enables.length
  enables.all id && ((len == 4 && off % 4 == 0) || (len == 8 && off % 8 == 0 && msixArea off)
    || (isWrite && within off 0x1000 0x400 && off % 4 == 0 && len % 4 == 0 && decide (0 < len) && decide (off % 0x80 + len ≤ 0x40)))

/-- BAR0_BAD_ACCESS (R32): a malformed read answers all ones, a malformed write is discarded, and both are counted. A well-formed access is
none of these, and has no effect here. -/
def execBar0BadAccess (isWrite : Bool) (off : Nat) (enables : List Bool) (s : State) : Host.Outcome State Fault Refusal :=
  if bar0WellFormed isWrite off enables then .next s
  else if isWrite then .next (if bar0Writes s then badAccess s else s)
  else
    let t := if bar0Ok s then badAccess s else s
    .next (emit t (.readReply 0 off (List.replicate enables.length 0xFF#8)))

end Sys2Proof.Machine
end

