-- ==== Sys2Proof/Machine/HostCmds.lean ====
section
/-! DEFINITION. Commands whose effect lies elsewhere: PANEL_UPDATE, FAR_RMW_LOCKED, FAR_FENCE; and the ends of DMA reads
(02_host_interface.md R46, R47, R60, R62, 13_cabinet_bus.md R299, R305, 14_repeater_panels.md R316). -/

namespace Sys2Proof.Machine

/-! ## Panels (R316, R317) -/

/-- The request of a PANEL_UPDATE is made; the command stays open (R40). -/
def panelCommand (s : State) (c : HostCmd) (src : PanelSrc) : State :=
  (panelRequest (cmdOpen s c.slot) (fld (cmdW c 1) 2 0) (fld (cmdW c 1) 12 8) src (some c.slot)).1

/-- PANEL_UPDATE (R316): a host image is read before the request is made. On a wedged port it completes WEDGED (R344). -/
def execPanelUpdate (slot : Fin 256) (s : State) : Host.Outcome State Fault Refusal :=
  match cmdReady s slot.val 0x40 with
  | none => .next s
  | some c =>
    if isWedged s (unitPanel (fld (cmdW c 1) 2 0)) then .next (finish s slot.val stWedged 0 0)
    else if !bit (cmdW c 2) 0 then .next (panelCommand s c .bindings)
    else .next (if dmaFree s then startFetch s slot.val (addr64 (cmdW c 3) (cmdW c 4)) 64 else s)

/-! ## The bridge (R299, R300, R305) -/

/-- A prefetch line that holds a far address, or that is being fetched, is invalidated. -/
def lineTouched (s : State) (addr : Nat) : State :=
  let holds (a : Nat) : Bool := decide (a ≤ addr) && decide (addr < a + 16)
  (List.range 8).foldl (fun s w =>
    let line := match prefLine s w with
      | some l => holds l.addr
      | none => false
    let run := match s.bridge.pref with
      | some p => p.window == w && holds p.addr
      | none => false
    if line || run then prefInvalidate s w false else s) s

/-- FAR_RMW_LOCKED (R299): behind the posted writes accepted before it. On a wedged bridge it completes WEDGED (R344), on one that is
disabled it cannot start (R308). -/
def execFarRmwLocked (slot : Fin 256) (s : State) : Host.Outcome State Fault Refusal :=
  match cmdReady s slot.val 0x50 with
  | none => .next s
  | some c =>
    if isWedged s (unitOf 9 0x20) then .next (finish s slot.val stWedged 0 0)
    else if !bridgeEn s || rmwDoomed c then .next (finish s slot.val stFarFault 0xFFFF 0)
    else
      let addr := fld (cmdW c 1) 23 0
      let s := lineTouched s addr
      let r : FarRmw := {
        slot := slot.val, addr := addr, andMask := fld (cmdW c 2) 15 0, orMask := fld (cmdW c 2) 31 16, after := c.aux, old := none, seq := 0,
        tb := s.time.tb }
      let s := setCmd s slot.val (fun c => { c with phase := .running })
      .next (bridgeWait (setBridge s { s.bridge with rmw := some r }))

/-- FAR_FENCE (R305): it completes when the write cycles accepted before it have finished. On a wedged bridge it completes WEDGED (R344,
log 128). -/
def execFarFence (slot : Fin 256) (s : State) : Host.Outcome State Fault Refusal :=
  match cmdReady s slot.val 0x51 with
  | none => .next s
  | some c =>
    if isWedged s (unitOf 9 0x20) then .next (finish s slot.val stWedged 0 0)
    else if c.aux == 0 then .next (fenceEnd s slot.val)
    else .next (setCmd s slot.val (fun c => { c with phase := .running }))

/-! ## Ends of DMA reads (R60, R62) -/

/-- A FLASH_WRITE whose flash has been wedged while it read host memory (R344). -/
def flashGone (s : State) (c : HostCmd) : Bool := cmdOp c == 0x81 && isWedged s unitFlash

/-- A DMA read faulted: the fault is counted and the command completes DMA_FAULT, with what it had done by then (R46, R47). -/
def fetchFault (s : State) (c : HostCmd) (f : Fetch) : State :=
  let s := dmaFault s f.addr
  if cmdOp c == 0x10 then loadFault s c stDmaFault
  else if flashGone s c then finish s c.slot stWedged 0 0
  else finish s c.slot stDmaFault (if cmdOp c == 0x12 then c.done else if cmdOp c == 0x81 then c.aux else 0) 0

/-- All bytes of a read that a command makes as a whole are there. -/
def fetchWhole (s : State) (c : HostCmd) (bytes : List Byte) : State :=
  let s := setCmd s c.slot (fun c => { c with fetch := none, got := [] })
  if cmdOp c == 0x60 then canPend s c.slot c bytes
  else if cmdOp c == 0x70 then ethPend s c.slot c bytes
  else panelCommand s c (.image bytes)

/-- Bytes of a DMA read have arrived: the command goes on with them. -/
def fetchData (s : State) (c : HostCmd) (f : Fetch) (data : List Byte) : State :=
  let bytes := c.got ++ data
  let s := gotBytes s c.slot data
  if flashGone s c then finish s c.slot stWedged 0 0
  else if cmdOp c == 0x10 then loadData s c.slot f
  else if cmdOp c == 0x12 then tableData s c.slot f
  else if f.rest != 0 then nextFetch s c.slot f
  else if cmdOp c == 0x81 then flashProgram s c.slot
  else fetchWhole s c bytes

/-- DMA_READ_COMPLETION (R62): the read that the command in a slot has outstanding returns its data, or faults; data of another length is
none of its completions. -/
def execDmaReadCompletion (slot : Fin 256) (data : Option (List Byte)) (s : State) : Host.Outcome State Fault Refusal :=
  match cmdAt s slot.val with
  | none => .next s
  | some c =>
    match c.fetch with
    | none => .next s
    | some f =>
      if !alive s || c.flash || f.len == 0 then .next s
      else match data with
        | none => .next (readPump (fetchFault s c f))
        | some bytes => if bytes.length == f.len then .next (readPump (fetchData s c f bytes)) else .next s

end Sys2Proof.Machine
end

