-- ==== Sys2Proof/Machine/Power.lean ====
section
/-! DEFINITION. Full resets, power, the monitored clocks and D3hot (16_reset_power_pairing.md R349 to R353, R360 to R362,
01_architecture.md R14, 02_host_interface.md R29, R30). Steps that SL times are taken when their command comes (log 45). -/

namespace Sys2Proof.Machine

/-- The power state changes. -/
def setPower (s : State) (p : Power) : State := { s with power := p }

/-! ## Full resets (R7, R352, R353) -/

/-- The always-on registers (R353). -/
def alwaysOn (off : Nat) : Bool :=
  [Reg.resetCause, Reg.pwrWake, Reg.sleepStampSec, Reg.sleepStampNs, Reg.slept, Reg.watchWake].contains off

/-- Levels at balls outlast a reset: those of the event inputs. -/
def keepBalls (m : SMap EvIn) : SMap EvIn := (m.filter fun e => e.2.ball).map fun e => (e.1, { EvIn.init with ball := true })

/-- CB_IRQ_CTRL.LEVEL shows levels at balls. -/
def keepIrq (s : State) (t : State) : State := setF t Reg.cbIrqCtrl 11 8 (regF s Reg.cbIrqCtrl 11 8)

/-- Every field takes its reset value, but for the always-on registers, what lives outside the core, and the model's own (R353). -/
def resetState (s : State) (p : Power) : State :=
  let t := {
    State.reset with
    pending := s.pending, power := p, out := s.out, freeCount := s.freeCount, regs := s.regs.filter (fun e => alwaysOn e.1),
    evIn := keepBalls s.evIn, bridge := { Bridge.init with breq := s.bridge.breq },
    pair := { Pair.init with aliveIn := s.pair.aliveIn }, integ := { Integrity.init with lost := s.integ.lost }, tap := s.tap }
  keepIrq s t

/-- A full reset with its cause (R352): 1 RESET_N, 2 DEVICE_RESET, 3 function-level reset, 4 wake. -/
def fullReset (s : State) (cause : Nat) (p : Power) : State :=
  let stopped := s.integ.stopped
  let s := aliveLow s
  setReg (resetState s p) Reg.resetCause (BitVec.ofNat 32 (cause + 256 * b2n stopped))

/-- Power with nothing of a harbour watch left. -/
def powerAwake (p : Power) (ph : Phase) : Power :=
  { p with phase := ph, watches := [], named := [], entryTb := 0, entrySlot := none, woke := false }

/-- A reset while the link stays trained: DEVICE_RESET keeps configuration space, and VID shows code 14 again (R22, R352). -/
def warmReset (s : State) (cause : Nat) (keepConfig : Bool) : State :=
  let h := s.host
  let t := emit (fullReset s cause (powerAwake s.power .boot)) (.vid 14)
  if keepConfig then { t with host := { t.host with d3 := h.d3, msix := h.msix, config := h.config } } else t

/-- DEVICE_RESET_START (R352): 2 µs of TB after the acceptance; before TB runs there is no time to wait for. -/
def execDeviceResetStart (s : State) : Host.Outcome State Fault Refusal :=
  match s.host.resetAt with
  | none => .next s
  | some t =>
    if powered s && (!s.time.locked || decide (2 * Config.tickUs ≤ sinceTb s t)) then .next (warmReset s 2 true) else .next s

/-- FUNCTION_LEVEL_RESET (R352). -/
def execFunctionLevelReset (s : State) : Host.Outcome State Fault Refusal :=
  .next (if powered s && !s.integ.lost.contains 8 then warmReset s 3 false else s)

/-- BAR0_USABLE (R29, R354): BAR0 answers again after a reset. -/
def execBar0Usable (s : State) : Host.Outcome State Fault Refusal :=
  .next (if powered s then { s with host := { s.host with usable := true } } else s)

/-- RESET_N acts in this state: out of reset, and before the last step of an entry into harbour watch (R361). -/
def resetActs (s : State) : Bool :=
  match s.power.phase with
  | .boot => true
  | .run => true
  | .sleeping _ => true
  | _ => false

/-- Power enables that a state lowered rise again. -/
def enablesUp (s : State) : State :=
  let p := s.power
  let s := if p.enIo then s else emit s (.powerEnable 0 true)
  let s := ((List.range 8).filter fun k => !p.enSc.contains k).foldl (fun s k => emit s (.powerEnable (8 + k) true)) s
  let s := if p.enCore then s else emit s (.powerEnable 1 true)
  let s := if p.enSd then s else emit s (.powerEnable 2 true)
  setPower s { p with enIo := true, enCore := true, enSd := true, enSc := List.range 8 }

/-- The RESET_N reset is taken: the hub is held in it, the VID balls are high-impedance, and the link trains again afterwards (R351,
R352). -/
def resetTaken (s : State) : State :=
  let s := emit (emit (enablesUp s) .linkDown) .vidReleased
  fullReset s 1 { powerAwake s.power .held with vidOn := false }

/-- RESET_N (R351): a low pulse by its length; between 1 µs and 10 µs either outcome may occur. -/
def execResetN (lowNs : Nat) (s : State) : Host.Outcome State Fault Refusal :=
  if !resetActs s || decide (lowNs < 1000) then .next s
  else if 10000 ≤ lowNs then .next (resetTaken s)
  else
    let (s, yes) := takeBit s
    .next (if yes then resetTaken s else s)

/-- RESET_N_RELEASE (R351, R354): the straps as last sampled count, the level of each VDDIO bank is sensed
(R371), the VID balls show code 14, and the boot sequencer starts. -/
def execResetNRelease (straps : Straps) (s : State) : Host.Outcome State Fault Refusal :=
  if s.power.phase == .held then
    let p : Power := { s.power with phase := .boot, ref25 := straps.refsel, sideB := straps.side, io33 := straps.io33, vidOn := true }
    .next (emit (setPower s p) (.vid 14))
  else .next s

/-! ## Supplies (R349 to R351, R360) -/

/-- VAON_REMOVED (R360): the hub is off, and nothing of its state lasts. -/
def execVaonRemoved (s : State) : Host.Outcome State Fault Refusal :=
  if s.power.phase == .off then .next s
  else
    let s := aliveLow s
    let p : Power := { Power.init with phase := .off, enIo := false, enCore := false, enSd := false, enSc := [] }
    .next { State.reset with pending := s.pending, power := p, out := s.out, freeCount := s.freeCount }

/-- POWER_ON_RESET (R352): VAON rises; the always-on registers take their reset values too. -/
def execPowerOnReset (straps : Straps) (s : State) : Host.Outcome State Fault Refusal :=
  if s.power.phase == .off then
    let p : Power := {
      Power.init with
      phase := .rails 0, enIo := false, enCore := false, enSd := false, enSc := [], ref25 := straps.refsel, sideB := straps.side }
    .next { State.reset with pending := s.pending, power := p, out := s.out ++ [.vidReleased], freeCount := s.freeCount }
  else .next s

/-- Power enables rise in three steps (R351, R362): PWR_EN_IO with every PWR_EN_SC, PWR_EN_CORE, PWR_EN_SD. -/
def enableStep (s : State) (k : Nat) : State :=
  let p := s.power
  if k == 0 then
    let s := if p.enIo then s else emit s (.powerEnable 0 true)
    let s := ((List.range 8).filter fun k => !p.enSc.contains k).foldl (fun s k => emit s (.powerEnable (8 + k) true)) s
    setPower s { p with enIo := true, enSc := List.range 8 }
  else if k == 1 then setPower (emit s (.powerEnable 1 true)) { p with enCore := true }
  else setPower (emit s (.powerEnable 2 true)) { p with enSd := true }

/-- PWR_EN_STEP (R351, R362): after the third step of a power-up the hub is held by RESET_N; after that of a wake it waits for its
release. -/
def execPwrEnStep (s : State) : Host.Outcome State Fault Refusal :=
  match s.power.phase with
  | .rails k =>
    let t := enableStep s k
    .next (setPower t { t.power with phase := if 2 ≤ k then .held else .rails (k + 1) })
  | .waking k =>
    if 3 ≤ k then .next s
    else
      let t := enableStep s k
      .next (setPower t { t.power with phase := .waking (k + 1) })
  | _ => .next s

/-! ## Monitored clocks and D3hot (R14, R30) -/

/-- The number of a monitored clock in State. -/
def clockNum : MonClock → Nat
  | .rx n => n.val
  | .pcie => 8
  | .jtag => 11

/-- Memory requests are allowed again: far writes that waited go out, then reads, and the messages whose pending bits are set (R30, R58,
R302). -/
def memResume (s : State) : State :=
  if !hostMem s then s else (List.range 32).foldl messageNow (readPump (reverseIssue s))

/-- D3HOT_TRANSITION (R30). -/
def execD3hotTransition (enter : Bool) (s : State) : Host.Outcome State Fault Refusal :=
  if !powered s then .next s
  else
    let s := { s with host := { s.host with d3 := enter } }
    .next (if enter then s else memResume s)

/-- A partial receive frame is discarded and counted in the drop counter of its port (R14); which of its three fields counts it is free
(log 169). -/
def partialDropped (s : State) (n : Nat) : State :=
  let (s, w) := takeWord s
  if w.toNat % 3 == 0 then count s (Reg.ethRxDrop n) 31 16 1
  else if w.toNat % 3 == 1 then count s (Reg.ethRxDrop n) 15 8 1 else count s (Reg.ethRxDrop n) 7 0 1

/-- MONITORED_CLOCK_LOSS (R14, R269): the clock counts as absent, and the hounds of its crossings are disarmed; the link of its Ethernet port
goes down, and a frame that it was receiving is discarded and counted. -/
def execMonitoredClockLoss (c : ClockStop) (s : State) : Host.Outcome State Fault Refusal :=
  let k := clockNum c.clock
  if !powered s || s.integ.lost.contains k then .next s
  else
    let s := { s with integ := { s.integ with lost := s.integ.lost ++ [k] } }
    let s := if k < 4 && c.midFrame && (eth s k).link then partialDropped s k else s
    .next (if k < 4 then ethFrameEnd (ethLinkDown s k) k else s)

/-- MONITORED_CLOCK_RETURN (R14). -/
def execMonitoredClockReturn (c : MonClock) (s : State) : Host.Outcome State Fault Refusal :=
  let k := clockNum c
  if !s.integ.lost.contains k then .next s
  else
    let s := { s with integ := { s.integ with lost := s.integ.lost.filter (· != k) } }
    .next (if k == 8 then memResume s else s)

end Sys2Proof.Machine
end

