-- ==== Sys2Proof/Machine/Sleep.lean ====
section
/-! DEFINITION. Harbour watch: entry, the watch receivers, wake and takeover (06_serial_ports.md R150 to R153,
16_reset_power_pairing.md R361 to R363). -/

namespace Sys2Proof.Machine

/-! ## Entry (R150, R361) -/

/-- A port can watch (R150). -/
def canWatch (s : State) (p : Nat) : Bool :=
  portEn s 0 p && decide (spMode s p ≤ 2) && [24576, 49152, 98304, 196608, 393216].contains (regF s (Reg.spDiv p) 18 0)

/-- The watch receivers that a SLEEP_ENTER names, with their ports; a port named again counts once (R361). -/
def sleepNamed (c : HostCmd) : List (Nat × Nat) :=
  (List.range 8).foldl (fun l j =>
    let p := sleepPort (cmdW c) j
    if bit (cmdW c 3) j && !(l.any fun x => x.2 == p) then l ++ [(j, p)] else l) []

/-- SLEEP_ENTER (R361): the entry is committed once the completion and its message are out. An entry already committed makes a second one
WRONG_STATE (log 46). -/
def execSleepEnter (slot : Fin 256) (s : State) : Host.Outcome State Fault Refusal :=
  match cmdReady s slot.val 0x04 with
  | none => .next s
  | some c =>
    let named := sleepNamed c
    if s.power.phase != .run || named.any (fun x => !canWatch s x.2) then .next (finish s slot.val stWrongState 0 0)
    else
      let s := finish s slot.val stDone 0 0
      let waits := if s.host.held.any (fun h => h.slot == slot.val) then some slot.val else none
      .next (setPower s
        { s.power with phase := .sleeping 0, watches := [], named := named, entryTb := s.time.tb, entrySlot := waits, woke := false })

/-- The watch receiver that a named port starts, with its settings as copied to VAON (R361). -/
def watchStart (s : State) (x : Nat × Nat) : Watch :=
  let r (f : Nat → Nat) : Word := reg s (f x.2)
  { num := x.1, port := x.2, ctrl := r Reg.spCtrl, div := r Reg.spDiv, format := r Reg.spFormat, framer := r Reg.spFramer,
    hold := r Reg.spHold, patLo := r Reg.spWatchPatLo, patHi := r Reg.spWatchPatHi, cfg := r Reg.spWatchCfg, buf := [], full := false,
    place := .hunt, pos := none, matched := false, started := false, needIdle := (serial s x.2).low.isSome }

/-- SLEEP_ENTRY_STOP (R361): 100 µs after the message, intake and endpoints stop, the clock is kept in SLEEP_STAMP, the link goes down, and
the watch receivers start. -/
def execSleepEntryStop (s : State) : Host.Outcome State Fault Refusal :=
  let p := s.power
  let due := !s.time.locked || decide (100 * Config.tickUs ≤ sinceTb s p.entryTb)
  if !(p.phase == .sleeping 0 && p.entrySlot.isNone && due) then .next s
  else
    let ws := p.named.map (watchStart s)
    let s := releaseAll (aliveLow s)
    let s := setReg (setReg s Reg.sleepStampSec (shortSec (now s))) Reg.sleepStampNs (shortNs (now s))
    .next (setPower (emit s .linkDown) { s.power with phase := .sleeping 1, watches := ws })

/-! ## Waking (R362) -/

/-- A source wakes the hub: MATCH bits, WAKE_N or TIMER of WATCH_WAKE. SLEPT takes the SL periods from the end of the entry to the wake, in
units of 32; a wake during the entry takes effect at its end. -/
def wakeBy (s : State) (bits : Nat) : State :=
  let w := reg s Reg.watchWake
  let s := setReg s Reg.watchWake (setFld w 9 0 (if s.power.woke then fld w 9 0 ||| bits else bits))
  let s := setPower s { s.power with woke := true }
  if s.power.phase == .watch then
    setPower (setReg s Reg.slept (BitVec.ofNat 32 (min (s.power.slPeriods / 32) 0xFFFFFFFF))) { s.power with phase := .waking 0 }
  else s

/-- The hub sleeps, or is on its way into harbour watch. -/
def asleep (s : State) : Bool :=
  match s.power.phase with
  | .sleeping _ => true
  | .watch => true
  | _ => false

/-- WAKE_N (R362). -/
def execWakeN (s : State) : Host.Outcome State Fault Refusal := .next (if asleep s then wakeBy s 256 else s)

/-- SL periods in a second (R9). -/
def slSecond : Nat := 32768

/-- WAKE_TIMER (R362): PWR_WAKE.TIMER seconds after the entry; nothing where TIMER is 0. -/
def execWakeTimer (s : State) : Host.Outcome State Fault Refusal :=
  let sec := regF s Reg.pwrWake 31 16
  .next (if s.power.phase == .watch && sec != 0 && decide (sec * slSecond ≤ s.power.slPeriods) then wakeBy s 512 else s)

/-- Clusters with a watching port keep their supply (R361). -/
def watchClusters (s : State) : List Nat := (List.range 8).filter fun k => s.power.watches.any fun w => w.port / 16 == k

/-- The last step of the entry: PWR_EN_IO and the unneeded PWR_EN_SC fall, and a wake that has occurred takes effect. -/
def entryEnd (s : State) : State :=
  let keep := watchClusters s
  let p := s.power
  let s := emit s (.powerEnable 0 false)
  let s := (p.enSc.filter fun k => !keep.contains k).foldl (fun s k => emit s (.powerEnable (8 + k) false)) s
  let s := setPower s { p with enIo := false, enSc := p.enSc.filter (fun k => keep.contains k) }
  if p.woke then setPower (setReg s Reg.slept 0) { s.power with phase := .waking 0 }
  else setPower s { s.power with phase := .watch, slPeriods := 0 }

/-- SLEEP_POWER_DOWN_STEP (R361): PWR_EN_SD falls, then PWR_EN_CORE, then PWR_EN_IO. -/
def execSleepPowerDownStep (s : State) : Host.Outcome State Fault Refusal :=
  let p := s.power
  match p.phase with
  | .sleeping 1 => .next (setPower (emit s (.powerEnable 2 false)) { p with phase := .sleeping 2, enSd := false })
  | .sleeping 2 => .next (setPower (emit s (.powerEnable 1 false)) { p with phase := .sleeping 3, enCore := false })
  | .sleeping 3 => .next (entryEnd s)
  | _ => .next s

/-- WAKE_RELEASE (R352, R362): the wake reset is taken and boot runs; the watch receivers go on. -/
def execWakeRelease (s : State) : Host.Outcome State Fault Refusal :=
  if s.power.phase == .waking 3 then
    let p := { s.power with phase := .boot, named := [], entryTb := 0, entrySlot := none, woke := false }
    .next (emit (fullReset s 4 p) (.vid 14))
  else .next s

/-! ## The watch receivers (R151 to R153) -/

/-- The receiver watches in raw mode. -/
def watchRaw (w : Watch) : Bool := fld w.ctrl 30 29 == 2

/-- A start character (R151). -/
def watchStartChar (w : Watch) (ch : Byte) : Bool := ch == 0x24#8 || ch == 0x21#8 || (bit w.framer 4 && ch == 0x5C#8)

/-- The sentence, or the raw text, starts with this character (R151, R153). -/
def watchOpens (w : Watch) (c : RawChar) (idle : Nat) : Bool :=
  if watchRaw w then !w.started || decide (max 1 (fld w.ctrl 15 8) ≤ idle) else watchStartChar w c.ch

/-- Positions compared (R151). -/
def watchLen (w : Watch) : Nat := clampNat 1 8 (fld w.cfg 11 8)

/-- A character matches a position: any at a wildcard, else the same one received without error (R151). -/
def watchFits (w : Watch) (k : Nat) (c : RawChar) : Bool :=
  let pat := if k < 4 then fld w.patLo (8 * k + 7) (8 * k) else fld w.patHi (8 * (k - 4) + 7) (8 * (k - 4))
  bit w.cfg k || (!c.fe && !c.pe && c.ch.toNat == pat)

/-- The comparison takes a character: where it stands afterwards, and whether all positions have matched. -/
def watchCompare (w : Watch) (c : RawChar) (idle : Nat) : Option Nat × Bool :=
  match if watchOpens w c idle then some 0 else w.pos with
  | none => (none, false)
  | some k => if !watchFits w k c then (none, false) else if k + 1 == watchLen w then (none, true) else (some (k + 1), false)

/-- A character joins the buffer of 256 characters (R152). -/
def watchAdd (w : Watch) (c : RawChar) (f : Framer) : Watch :=
  if 256 ≤ w.buf.length then { w with full := true, place := f } else { w with buf := w.buf ++ [c], place := f }

/-- The buffer starts with a character. -/
def watchOpen (w : Watch) (c : RawChar) (f : Framer) : Watch := { w with buf := [c], full := false, place := f }

/-- Nothing is in progress. -/
def watchDrop (w : Watch) : Watch := { w with buf := [], full := false, place := .hunt }

/-- The buffer of a receiver that has not woken the hub keeps the sentence in progress, as the framer would (R136, R137, R152). -/
def watchText (w : Watch) (c : RawChar) : Watch :=
  let open_ := watchOpen w c (if c.ch == 0x5C#8 then .tag else .sentence)
  match w.place with
  | .hunt => if watchStartChar w c.ch then open_ else w
  | .tag =>
    if c.ch == 0x5C#8 then watchAdd w c .afterTag
    else if c.ch == 0x0A#8 then watchDrop w
    else if watchStartChar w c.ch then open_ else watchAdd w c .tag
  | .afterTag =>
    if c.ch == 0x24#8 || c.ch == 0x21#8 then watchAdd w c .sentence
    else if c.ch == 0x5C#8 then watchAdd w c .tag
    else watchDrop w
  | .sentence => if watchStartChar w c.ch then open_ else if c.ch == 0x0A#8 then watchDrop w else watchAdd w c .sentence

/-- The buffer takes a character: all of them once the hub is awake or the pattern has matched. -/
def watchKeep (w : Watch) (awake hit : Bool) (c : RawChar) (idle : Nat) : Watch :=
  if awake || w.matched then watchAdd w c w.place
  else if watchRaw w then (if watchOpens w c idle then watchOpen w c .hunt else watchAdd w c .hunt)
  else if hit && c.ch == 0x0A#8 then watchAdd w c .hunt
  else watchText w c

/-- A watch receiver changes. -/
def setWatch (s : State) (j : Nat) (v : Watch) : State :=
  setPower s { s.power with watches := s.power.watches.map fun w => if w.num == j then v else w }

/-- A watch receiver receives a character behind so many character times of idle line. -/
def watchChar (s : State) (w : Watch) (c : RawChar) (idle : Nat) : State :=
  let (pos, hit) := watchCompare w c idle
  let v := watchKeep w (s.power.woke || !asleep s) hit c idle
  let s := setWatch s w.num { v with pos := pos, matched := w.matched || hit, started := true, needIdle := c.fe }
  let waking := match s.power.phase with | .waking _ => true | _ => false
  if hit && (asleep s || waking) then wakeBy s (2 ^ w.num) else s

/-- The watch receivers run: from their start in the entry until the PS receivers take over. -/
def watchRuns (s : State) : Bool := powered s || asleep s || (match s.power.phase with | .waking _ => true | _ => false)

/-- WATCH_CHARACTER (R151 to R153): a receiver that waits for one character time of idle receives nothing before it. -/
def execWatchCharacter (j : Fin 8) (ch : Byte) (stopLow parityBad : Bool) (idleChars : Nat) (s : State) : Host.Outcome State Fault Refusal :=
  match s.power.watches.find? (fun w => w.num == j.val) with
  | none => .next s
  | some w =>
    if !watchRuns s || (w.needIdle && idleChars == 0) then .next s
    else
      let d : Byte := BitVec.ofNat 8 (ch.toNat % 2 ^ (5 + fld w.format 1 0))
      .next (watchChar s w ⟨d, stopLow, parityBad⟩ idleChars)

/-! ## Takeover (R152, R153, R363) -/

/-- A watch receiver stops. -/
def watchEnd (s : State) (j : Nat) : State :=
  setPower s { s.power with watches := s.power.watches.filter fun w => w.num != j }

/-- A character of a watch buffer, as the receiver of its port takes it: without a stamp of its own (R152). -/
def watchRx (s : State) (c : RawChar) : RxChar := ⟨c.ch, c.fe, c.pe, false, edgeNow s 0, true⟩

/-- WATCH_TAKEOVER (R152, R153): the buffered characters are handed on in order, and the receiver of the port goes on from there. A
character discarded for want of room counts as an overrun. -/
def execWatchTakeover (p : Fin 128) (s : State) : Host.Outcome State Fault Refusal :=
  let p := p.val
  match s.power.watches.find? (fun w => w.port == p) with
  | none => .next s
  | some w =>
    if !(ticking s && portEn s 0 p && !isWedged s (unitSerial p)) then .next s
    else
      let s := watchEnd s w.num
      let s := setSerial s p { serial s p with needIdle := false, idleTb := s.time.tb }
      let s := w.buf.foldl (fun s c => serialPass s p (watchRx s c)) s
      .next (if w.full then serialOverrun s p false else s)

/-- WATCH_RECEIVER_TIMEOUT (R363): the port of a receiver has not been enabled in time. -/
def execWatchReceiverTimeout (j : Fin 8) (s : State) : Host.Outcome State Fault Refusal :=
  match s.power.watches.find? (fun w => w.num == j.val) with
  | none => .next s
  | some w =>
    if powered s && !asleep s && !portEn s 0 w.port then .next (count (watchEnd s j.val) Reg.watchWake 31 24 1) else .next s

end Sys2Proof.Machine
end

