-- ==== Sys2Proof/Machine/Boot.lean ====
section
/-! DEFINITION. The boot sequencer (16_reset_power_pairing.md R354 to R358). What the flash returns is the command's operand. -/

namespace Sys2Proof.Machine

/-! ## The image (R355, R357) -/

/-- The word of an image at a byte offset; bytes beyond its end count as 0. -/
def imageWord (img : List Byte) (off : Nat) : Word := bytesWord ((img.drop off).take 4)

/-- The header fails its checks: MAGIC, VERSION, TOTAL_LEN or HDR_CRC. -/
def headerBad (img : List Byte) : Bool :=
  let w (k : Nat) : Word := imageWord img (4 * k)
  w 0 != 0x53564231#32 || fld (w 1) 15 0 != 1 || decide ((w 2).toNat < 128) || decide (1048576 < (w 2).toNat) || (w 2).toNat % 4 != 0
    || crc32 ((img ++ List.replicate 60 0).take 60) != w 15

/-- TOTAL_LEN. -/
def totalLen (img : List Byte) : Nat := (imageWord img 8).toNat

/-- The body is not as BODY_CRC says, or not all of it could be read. -/
def bodyBad (img : List Byte) : Bool :=
  decide (img.length < totalLen img) || crc32 ((img.drop 64).take (totalLen img - 64)) != imageWord img 12

/-- PROG_OFFSET and PROG_LEN. -/
def progOffset (img : List Byte) : Nat := (imageWord img 16).toNat
def progLen (img : List Byte) : Nat := (imageWord img 20).toNat

/-- Word k of the header of the program section. -/
def progHead (img : List Byte) (k : Nat) : Word := imageWord img (progOffset img + 4 * k)

/-- The program section fails the checks of R179; one that does not lie in the image as a whole, or is shorter than its header, is no
program image (log 47). -/
def progBad (img : List Byte) : Bool :=
  progOffset img % 4 != 0 || decide (progLen img < 64) || decide (totalLen img < progOffset img + progLen img)
    || imageBad (progHead img) (progLen img)

/-- The result of the boot (R357): 2 header, 3 body, 4 program section, 0 none of these. -/
def bootResult (img : List Byte) : Nat :=
  if headerBad img then 2 else if bodyBad img then 3 else if progLen img != 0 && progBad img then 4 else 0

/-! ## The program section (R354 step 5) -/

/-- The program section goes into bank A, with its place in the flash as source. -/
def bootProgram (s : State) (img : List Byte) : State :=
  if progLen img == 0 then s
  else
    let h := progHead img
    let n := (imageLen h - 64) / 4
    let s := loadWords (loadBegin s 0 h) 0 h 0 (bytesWords n (img.drop (progOffset img + 64)))
    loadSource s 0 true (progOffset img)

/-! ## Setting records (R356) -/

/-- A setting record works as a command in a slot that does not exist, so that it has no handle and no completion. -/
def recordSlot : Nat := 256

/-- A TABLE_WRITE of the boot image: W4 is an offset in the image, and banked tables go to bank A. None where it would not complete
DONE: an index range past the table, or a source past the image (log 47). -/
def recordTable (s : State) (img : List Byte) (w : Nat → Word) : Option State :=
  let id := fld (w 1) 7 0
  let first := (w 2).toNat
  let n := (w 3).toNat
  let from_ := (w 4).toNat
  if tableRange id first n || decide (totalLen img < from_ + n * (tableSize id).2) then none
  else
    let s := tableEntries s id 0 first n (img.drop from_)
    some (if id < 3 && n != 0 then bankTouched s 0 else s)

/-- A REG_WRITE of the boot image: the writes that the host would make. -/
def recordWrites (s : State) (w : Nat → Word) : Nat → Nat → State
  | _, 0 => s
  | k, n + 1 =>
    let off := (w (2 * k + 2)).toNat
    let v := w (2 * k + 3)
    let s := if 2 ^ 19 ≤ off then s else if off % 4 != 0 then badAccess s else hostWrite s off v
    recordWrites s w (k + 1) n

/-- The status with which a command, as run on a state, would complete; DONE where it would stay open. A completion behind one that is
held is held too, and can be looked at. -/
def statusOf (s : State) (words : List Word) (run : State → State) : Nat :=
  let c : HostCmd :=
    { slot := recordSlot, gen := 1, words := words, phase := .running, fetch := none, flash := false, got := [], done := 0, aux := 0 }
  let mark : Completion := ⟨recordSlot, 0, 0, 0, 0, 0, 0, true, false, 0⟩
  let t := run { s with host := { s.host with cmds := s.host.cmds ++ [c], held := [mark] } }
  match (t.host.held.filter fun h => h.handle == 256 + recordSlot).getLast? with
  | some h => h.status
  | none => stDone

/-- A command of a setting record, run where it would complete DONE. -/
def recordRun (s : State) (words : List Word) (run : State → State) : Option State :=
  if statusOf s words run == stDone then some (run s) else none

/-- SETTING_RECORD (R356): a record of 16 words executes, or is skipped. -/
def settingRecord (s : State) (img : List Byte) (words : List Word) : Option State :=
  let w (k : Nat) : Word := words.getD k 0
  let op := fld (w 0) 7 0
  let cls := selClass (w 1)
  let num := selNum (w 1)
  if malformed w then none
  else if op == 0x20 then recordRun s words (fun s => portSet s cls num recordSlot words)
  else if op == 0x21 then recordRun s words (fun s => portEnable s cls num recordSlot)
  else if op == 0x24 then recordRun s words (fun s => groupOffline s recordSlot (fld (w 1) 2 0))
  else if op == 0x25 then recordRun s words (fun s => quotaSet s recordSlot (w 1) (w 2) (w 3))
  else if op == 0x31 then recordRun s words (fun s => timeRole s recordSlot (w 1) (w 2))
  else if op == 0x12 then recordTable s img w
  else if op == 0xF0 && fld (w 1) 2 0 != 0 then some (recordWrites s w 0 (fld (w 1) 2 0))
  else none

/-- Setting records in order from record i; skipped ones are counted, and the first is named. -/
def settingRecords (s : State) (img : List Byte) (base : Nat) : Nat → Nat → Option Nat → Nat → State × Option Nat × Nat
  | _, 0, first, skipped => (s, first, skipped)
  | i, n + 1, first, skipped =>
    let words := (List.range 16).map fun k => imageWord img (base + 64 * i + 4 * k)
    match settingRecord s img words with
    | some t => settingRecords t img base (i + 1) n first skipped
    | none => settingRecords s img base (i + 1) n (first.or (some i)) (skipped + 1)

/-! ## The end of the boot (R354 step 7, R357) -/

/-- Microseconds since the release of reset: the time to the lock of the PLL in ns, and that of TB since. -/
def bootUs (s : State) (lockNs : Nat) : Nat := min ((lockNs + 4 * s.time.tb) / 1000) 0xFFFFFFFF

/-- The boot ends: BOOT_STATUS, BOOT_IMAGE, and BOOT_BUSY clears. -/
def bootEnd (s : State) (result : Nat) (first : Option Nat) (skipped : Nat) (valid : Bool) : State :=
  let s := setReg s Reg.bootStatus (BitVec.ofNat 32 (result * 2 ^ 28 + first.getD 0 % 4096 * 65536 + min skipped 65535))
  let s := setF s Reg.hostStatus 2 1 (b2n valid * 2)
  setPower s { s.power with phase := .run }

/-- The copy of the image lies in the first granules of the Kennel pool, which are all free then, and shows in KENNEL_LOW (R354 step 4;
log 60). -/
def bootStaging (s : State) (img : List Byte) : State :=
  let n := ceilDiv (totalLen img) 16
  let s := memPuts s .kennel 0 (bytesWords (ceilDiv (totalLen img) 4) (img.take (totalLen img)))
  { s with herder := { s.herder with low := min s.herder.low (poolSize - n) } }

/-- The boot of an image whose header and body are good. -/
def bootImage (s : State) (img : List Byte) : State :=
  let s := bootStaging s img
  if progLen img != 0 && progBad img then bootEnd s 4 none 0 false
  else
    let (s, first, skipped) := settingRecords (bootProgram s img) img (imageWord img 24).toNat 0 (fld (imageWord img 28) 15 0) none 0
    bootEnd s 0 first skipped true

/-- BOOT (R354): it runs once TB runs, and takes BOOT_TIME; what the flash returned decides. -/
def execBoot (run : BootRun) (s : State) : Host.Outcome State Fault Refusal :=
  if !(ticking s && s.power.phase == .boot) then .next s
  else
  let s := setReg s Reg.bootTime (BitVec.ofNat 32 (bootUs s run.lockNs))
  let sized (n : Nat) : State := { s with host := { s.host with flashSize := some n } }
  match run.flash with
    | .noTable => .next (bootEnd s 1 none 0 false)
    | .copyFailed n header => .next (bootEnd (sized n) (if headerBad header then 2 else 3) none 0 false)
    | .image n img =>
      let s := sized n
      if headerBad img then .next (bootEnd s 2 none 0 false)
      else if bodyBad img then .next (bootEnd (bootStaging s img) 3 none 0 false)
      else .next (bootImage s img)

end Sys2Proof.Machine
end

