-- ==== Sys2Proof/Machine/NymsaBase.lean ====
section
/-! DEFINITION. What every Nymsa instruction shares: the fetch, the ply check, registers and flags, and the checked reads of the
record, of scratch, of the field index and of the pool (08_pack_engines.md R169 to R176; 09_nymsa_reference.md R190 to R195;
15_integrity.md R332, R333). -/

namespace Sys2Proof.Machine

/-! ## Registers and flags of an engine (R169, R191) -/

/-- Register Wn of an engine. -/
def wreg (s : State) (e n : Nat) : Word := (engine s e).w.getD n 0

/-- Register Wn takes a value. -/
def setWreg (s : State) (e n : Nat) (v : Word) : State := setEngine s e { engine s e with w := (engine s e).w.set n v }

/-- The flags of an engine change. -/
def setFlags (s : State) (e : Nat) (f : BitVec 16 → BitVec 16) : State :=
  setEngine s e { engine s e with flags := f (engine s e).flags }

/-- Field D of an instruction. -/
def fD (w : Word) : Nat := fld w 25 22

/-- Field A of an instruction. -/
def fA (w : Word) : Nat := fld w 21 18

/-- Operand A. -/
def valA (s : State) (e : Nat) (w : Word) : Word := wreg s e (fA w)

/-- Wb, from [16:13]. -/
def valWb (s : State) (e : Nat) (w : Word) : Word := wreg s e (fld w 16 13)

/-- Operand B. -/
def valB (s : State) (e : Nat) (w : Word) : Word := operandB w (valWb s e w)

/-- Operand U. -/
def valU (s : State) (e : Nat) (w : Word) : Nat := (operandU w (valWb s e w)).toNat

/-- A result goes to Wd, and the flags follow. -/
def result (s : State) (e : Nat) (w v : Word) (f : BitVec 16 → BitVec 16) : State := setFlags (setWreg s e (fD w) v) e f

/-- The record that an engine holds. -/
def engRec (s : State) (e : Nat) : Rec := ((engine s e).recd).getD ⟨0, 0, 0, 0, false, 0⟩

/-- LENGTH of the record that an engine holds. -/
def engLen (s : State) (e : Nat) : Nat := recLen s (engRec s e)

/-- AUX0.START of the record. -/
def engStartOff (s : State) (e : Nat) : Nat := fld (recW s (engRec s e) 9) 24 16

/-- The cursor moves, clamped to LENGTH, and EOT follows (R171, R194). -/
def moveCursor (s : State) (e c : Nat) : State :=
  let c := min c (engLen s e)
  setFlags (setEngine s e { engine s e with cursor := c }) e (fun f => flagSet f flagEot (c == engLen s e))

/-- An effect of the record leaves the engine (R333). -/
def setEffect (s : State) (e : Nat) : State := setEngine s e { engine s e with effect := true }

/-- The run is a rebuild (R334). -/
def isRebuild (s : State) (e : Nat) : Bool := (engine s e).rebuild.isSome

/-- The run of a record met an injected occurrence between two states: the record is marked (R341). -/
def markMet (before s : State) (e : Nat) : State :=
  if total before Reg.injStatus 16 == total s Reg.injStatus 16 || !engBusy s e then s else recInj s (engRec s e)

/-- The engine waits for a re-fetch from here on, where it did not wait already (R187, R336). -/
def engWait (s : State) (e : Nat) : State := setEngine s e { engine s e with waitTb := (engine s e).waitTb.or (some s.time.tb) }

/-- A word that an engine waits for, for itself or behind the copier, has not come. -/
def engAwaits (s : State) (e : Nat) : Bool :=
  (engine s e).waitTb.isSome && !s.pack.passes.any (fun p => p.2.2 == e)
    && s.pack.refetch.any (fun f => f.readers.contains e || f.readers.contains readerCopier)

/-! ## Checked reads -/

/-- A record restarts from the state of R170, with its ply count and budget: its route entry and header words are read again, and the engine
waits where the route entry is awaited (R333, R336). -/
def engReload (s : State) (e : Nat) : State :=
  let g := engine s e
  let r := engRec s e
  match bankRead s .routes (512 * g.bank + routeIndex s r) e [unitEngine e] with
  | (s', none) => engWait (markMet s s' e) e
  | (s', some route) =>
    let (s', ok) := headerLoad (markMet s s' e) e r [0, 1, 2, 9, 10, 11]
    let s' := engLoad s' e r route g.budget g.bank
    let s' := setEngine s' e { engine s' e with budget0 := g.budget0, reload := false }
    if ok then s' else engEnd s' e false

/-- A record is re-parsed after a failed scratch or field-index word, or ends as a DROP (R333). A failed scratch word is written 0 only for a
re-parse. -/
def reparse (s : State) (e addr : Nat) (inj : Bool) : State :=
  let g := engine s e
  if g.effect || g.reparsed then
    engEnd (count (memReport s .scratch addr 1 e 0 inj) Reg.retrCountA 15 0 1) e false
  else
    let s := if addr < 131072 then memPut s .scratch addr 0 else s
    let s := count (memReport s .scratch addr 4 e 0 inj) Reg.retrCountA 23 16 1
    engReload (setEngine s e { engine s e with fields := [], reparsed := true, judged := false, reload := true }) e

/-- A scratch word at a byte address (R171), read and checked. -/
def scrGet (s : State) (e addr : Nat) : State × Option Word :=
  let a := 4096 * e + addr % 16384 / 4
  let m := memRead s .scratch a [unitEngine e]
  let s' := markMet s m.s e
  if m.failed then (reparse s' e a m.inj, none) else (s', some m.word)

/-- Scratch words at byte addresses, in order. -/
def scrGets (s : State) (e : Nat) : List Nat → State × Option (List Word)
  | [] => (s, some [])
  | a :: as => match scrGet s e a with
    | (s, none) => (s, none)
    | (s, some w) => match scrGets s e as with
      | (s, none) => (s, none)
      | (s, some ws) => (s, some (w :: ws))

/-- A scratch word is written. -/
def scrPut (s : State) (e addr : Nat) (v : Word) : State := memPut s .scratch (4096 * e + addr % 16384 / 4) v

/-- A field of the index (R199): its start and length, or none where it is not recorded. The index follows the scratch words in the
memory of DET_FLD (log 30). -/
def fieldGet (s : State) (e f : Nat) : State × Option (Option (Nat × Nat)) :=
  match (engine s e).fields[f]? with
  | none => (s, some none)
  | some m =>
    let (s', inj) := injected s 0x01 [unitOf 10 1, unitEngine e]
    let s' := markMet s s' e
    if inj || !memGood m then (reparse s' e (131072 + 64 * e + f) inj, none)
    else (s', some (some (fld (memData m) 24 16, fld (memData m) 8 0)))

/-- A payload word of a sentence whose checksums were OK can be kept: every byte of it is a checksummed character or a digit behind
a star, and every span that it touches agrees with its digits (R332). The spans are those of the bytes as read: (first, star). -/
def spansOf : List Byte → Nat → Option Nat → Option Nat → List (Nat × Nat)
  | [], _, _, _ => []
  | c :: cs, i, start, star =>
    match start, star with
    | none, _ =>
      if c == 0x5C#8 || c == 0x24#8 || c == 0x21#8 then spansOf cs (i + 1) (some (i + 1)) none else spansOf cs (i + 1) none none
    | some a, none => if c == 0x2A#8 then (a, i) :: spansOf cs (i + 1) (some a) (some i) else spansOf cs (i + 1) (some a) none
    | some _, some b => if i < b + 3 then spansOf cs (i + 1) start star else
        if c == 0x5C#8 then spansOf cs (i + 1) none none else spansOf cs (i + 1) start star

/-- A byte of a text is covered by one of its spans: a checksummed character, or one of the two digits. -/
def coveredBy (i : Nat) (sp : Nat × Nat) : Bool := (decide (sp.1 ≤ i) && decide (i < sp.2)) || i == sp.2 + 1 || i == sp.2 + 2

/-- A span agrees with its digits. -/
def spanAgrees (bs : List Byte) (sp : Nat × Nat) : Bool :=
  hexPair (bs.getD (sp.2 + 1) 0) (bs.getD (sp.2 + 2) 0) == some (xorBytes ((bs.drop sp.1).take (sp.2 - sp.1)))

/-- The test of R332 for the word at byte offset lo. -/
def wordKept (bs : List Byte) (lo : Nat) : Bool :=
  let sps := spansOf bs 0 none none
  [0, 1, 2, 3].all (fun k => sps.any (coveredBy (lo + k)))
    && sps.all (fun sp => !([0, 1, 2, 3].any fun k => coveredBy (lo + k) sp) || spanAgrees bs sp)

/-- OUTCOME of a failed word k of a record, read as w (R332): 7 for a stamp word, 0 for a payload word that is kept, 1 for any other. -/
def kenOutcome (s : State) (r : Rec) (k : Nat) (w : Word) : Nat :=
  if 3 ≤ k && k ≤ 8 then 7
  else if 12 ≤ k && recType s r == 0 && fld (recW s r 0) 19 18 == 0 then
    let ws := (memWords s .kennel (4 * r.gran + 12) (ceilDiv (recLen s r) 4)).set (k - 12) w
    if wordKept ((wordsBytes ws).take (recLen s r)) (4 * (k - 12)) then 0 else 1
  else 1

/-- Word k of the record in the Kennel as the engine reads it (R332): header words from 0, payload words from 12. None: the record
has ended. -/
def kenGet (s : State) (e k : Nat) : State × Option Word :=
  let r := engRec s e
  let a := 4 * r.gran + k
  let m := memRead s .kennel a [recSrc s r]
  if !m.failed then (m.s, some m.word)
  else
    let s := markMet s m.s e
    let out := kenOutcome s r k m.word
    let s := memReport s .kennel a out e 0 m.inj
    if out == 7 then (recLost s r, some m.word)
    else if out == 0 then (count (memPut s .kennel a m.word) Reg.retrCountA 31 24 1, some m.word)
    else (engEnd (count s Reg.retrCountA 15 0 1) e false, none)

/-- Words of the record, in order. -/
def kenGets (s : State) (e : Nat) : List Nat → State × Option (List Word)
  | [] => (s, some [])
  | k :: ks => match kenGet s e k with
    | (s, none) => (s, none)
    | (s, some w) => match kenGets s e ks with
      | (s, none) => (s, none)
      | (s, some ws) => (s, some (w :: ws))

/-- n payload bytes from an offset; bytes past LENGTH read 0 (R200). -/
def kenBytes (s : State) (e lo n : Nat) : State × Option (List Byte) :=
  let hi := min (lo + n) (engLen s e)
  let first := lo / 4
  let cnt := if lo < hi then (hi + 3) / 4 - first else 0
  match kenGets s e ((List.range cnt).map (fun i => 12 + first + i)) with
  | (s, none) => (s, none)
  | (s, some ws) =>
    let bs := ((wordsBytes ws).drop (lo % 4)).take (hi - lo)
    (s, some (bs ++ List.replicate (n - bs.length) 0))

/-- FIRST or END of the record (R156, R211): three header words from a place on. -/
def kenStamp (s : State) (e k : Nat) : State × Option Stamp :=
  match kenGets s e [k, k + 1, k + 2] with
  | (s, some [a, b, c]) => (s, some (wordsStamp a b c))
  | (s, _) => (s, none)

/-- STAMP_LOST of the record. -/
def engLost (s : State) (e : Nat) : Bool := bit (recW s (engRec s e) 0) 23

/-- FIRST of the record as an edge. -/
def kenEdge (s : State) (e : Nat) : State × Option Edge :=
  match kenStamp s e 3 with
  | (s, none) => (s, none)
  | (s, some t) => (s, some ⟨t, fld (recW s (engRec s e) 0) 27 24, (engRec s e).steps⟩)

/-- Bank words read by an engine, which waits where one is awaited. -/
def engBank (s : State) (e : Nat) (m : Mem) (as : List Nat) : State × Option (List Word) :=
  match bankList s m e [unitEngine e] as with
  | (s', none) => (engWait (markMet s s' e) e, none)
  | (s', some ws) => (markMet s s' e, some ws)

/-- The length byte of a pool string, with its word. -/
def engPoolLen (s : State) (e off : Nat) : State × Option (Word × Nat) :=
  let bank := (engine s e).bank
  match engBank s e .prog (poolAddrs s bank off 0 1) with
  | (s, some [w]) => (s, some (w, ((wordBytes w).getD (poolPlace s bank off) 0).toNat))
  | (s, _) => (s, none)

/-- The characters of a pool string behind its length word. -/
def engPoolChars (s : State) (e off : Nat) (w : Word) (len : Nat) : State × Option (List Byte) :=
  let bank := (engine s e).bank
  let p := poolPlace s bank off
  match engBank s e .prog (poolAddrs s bank off 1 (ceilDiv (p + 1 + len) 4 - 1)) with
  | (s, some ws) => (s, some (((wordsBytes (w :: ws)).drop (p + 1)).take len))
  | (s, none) => (s, none)

/-! ## One instruction (R176, R193) -/

/-- The plies of an instruction are counted and the PC advances, modulo 32 768 (R171). -/
def charge (s : State) (e c : Nat) : State :=
  let g := engine s e
  let s := setPack s { s.pack with plies := s.pack.plies + c }
  setEngine s e { g with plies := g.plies + c, pc := (g.pc + 1) % 32768, judged := false }

/-- The next fetch of this word by the engine goes on with the word as it stands (R336). -/
def engPass (s : State) (e a : Nat) : State := setPack s { s.pack with passes := s.pack.passes ++ [(0, a, e)] }

/-- An engine can execute: TB runs, it holds a record, and it does not wait. -/
def engReady (s : State) (e : Nat) : Bool := ticking s && engBusy s e && !(engine s e).wedged && !engAwaits s e

/-- Address of the engine's next word in the program store. -/
def engAddr (s : State) (e : Nat) : Nat := 32768 * (engine s e).bank + (engine s e).pc

/-- The step of an engine whose next word is one of these opcodes: the fetch; the cost, with what its terms read; the check against
the budget (R176), which is an occurrence of DET_PLY (R340); reads that may wait; then the plies and the effect, with which a wait ends
(R187). A fetch that fails is repaired or re-fetched in a step of its own (R336). A re-parse that waited for its route entry goes on first. -/
def nyStep {α β : Type} (ops : List NyOp) (cost : State → Nat → Word → State × Option (Nat × α))
    (prep : State → Nat → Word → α → State × Option β) (body : State → Nat → Word → β → State) (e : Nat) (s : State) : State :=
  let s := if engReady s e && (engine s e).reload then engReload s e else s
  if !(engReady s e && !(engine s e).reload && ops.contains (nyDecode (memWord s .prog (engAddr s e))).op) then s
  else
    let a := engAddr s e
    match engBank s e .prog [a] with
    | (s, some [w]) =>
      if !ops.contains (nyDecode w).op then engPass s e a
      else match cost s e w with
        | (s, none) => s
        | (s, some (c, x)) =>
          let g := engine s e
          let before := s
          let (s, inj) := if g.judged then (s, false) else injected s 0x40 [unitEngine e]
          let s := markMet before s e
          if inj || decide (g.budget < g.plies + c) then engExhausted s e inj
          else match prep (setEngine s e { engine s e with judged := true }) e w x with
            | (s, none) => s
            | (s, some y) => body (charge (readerResume s e) e c) e w y
    | (s, _) => s

/-- An instruction with a fixed cost that reads nothing that may wait. -/
def nyPlain (op : NyOp) (c : Nat) (body : State → Nat → Word → State) (e : Nat) (s : State) : State :=
  nyStep [op] (fun s _ _ => (s, some (c, ()))) (fun s _ _ _ => (s, some ())) (fun s e w _ => body s e w) e s

end Sys2Proof.Machine
end

