-- ==== Sys2Proof/Machine/NymsaArith.lean ====
section
/-! DEFINITION. Nymsa: arithmetic instructions (09_nymsa_reference.md R206 to R208). -/

namespace Sys2Proof.Machine

/-- An instruction that writes Wd with a result of A and another operand, and sets its flags. -/
def nyBinary (op : NyOp) (c : Nat) (operand : State → Nat → Word → Word) (f : Word → Word → Word)
    (flags : BitVec 16 → Word → Word → BitVec 16) (e : Nat) (s : State) : State :=
  nyPlain op c (fun s e w =>
    let a := valA s e w
    let b := operand s e w
    result s e w (f a b) (fun fl => flags fl a b)) e s

/-- U as a word. -/
def wordU (s : State) (e : Nat) (w : Word) : Word := operandU w (valWb s e w)

/-- ADD (R206). -/
def execAdd (e : Fin 32) (s : State) : Host.Outcome State Fault Refusal :=
  .next (nyBinary .add 1 valB (fun a b => a + b) flagsAdd e.val s)

/-- SUB (R206). -/
def execSub (e : Fin 32) (s : State) : Host.Outcome State Fault Refusal :=
  .next (nyBinary .sub 1 valB (fun a b => a - b) flagsSub e.val s)

/-- MUL (R206). -/
def execMul (e : Fin 32) (s : State) : Host.Outcome State Fault Refusal :=
  .next (nyBinary .mul 2 valB (fun a b => a * b)
    (fun f a b => flagsZNV f (a * b) (sat32 (a.toInt * b.toInt) != a.toInt * b.toInt)) e.val s)

/-- AND (R206). -/
def execAndW (e : Fin 32) (s : State) : Host.Outcome State Fault Refusal :=
  .next (nyBinary .andW 1 wordU (fun a b => a &&& b) (fun f a b => flagsZN f (a &&& b)) e.val s)

/-- OR (R206). -/
def execOrW (e : Fin 32) (s : State) : Host.Outcome State Fault Refusal :=
  .next (nyBinary .orW 1 wordU (fun a b => a ||| b) (fun f a b => flagsZN f (a ||| b)) e.val s)

/-- XOR (R206). -/
def execXorW (e : Fin 32) (s : State) : Host.Outcome State Fault Refusal :=
  .next (nyBinary .xorW 1 wordU (fun a b => a ^^^ b) (fun f a b => flagsZN f (a ^^^ b)) e.val s)

/-- The count of a shift (R206). -/
def shiftCount (b : Word) : Nat := b.toNat % 32

/-- SHL (R206). -/
def execShl (e : Fin 32) (s : State) : Host.Outcome State Fault Refusal :=
  .next (nyBinary .shl 1 valB (fun a b => a <<< shiftCount b)
    (fun f a b => flagsShift f (a <<< shiftCount b) (shiftCount b != 0 && bit a (32 - shiftCount b))) e.val s)

/-- A shifted right: logically, or arithmetically where B[5] is 1 (R206). -/
def shiftRight (a b : Word) : Word := if bit b 5 then a.sshiftRight (shiftCount b) else a >>> shiftCount b

/-- SHR (R206). -/
def execShr (e : Fin 32) (s : State) : Host.Outcome State Fault Refusal :=
  .next (nyBinary .shr 1 valB shiftRight
    (fun f a b => flagsShift f (shiftRight a b) (shiftCount b != 0 && bit a (shiftCount b - 1))) e.val s)

/-- The signed minimum. -/
def minSigned (a b : Word) : Word := if a.toInt ≤ b.toInt then a else b

/-- The signed maximum. -/
def maxSigned (a b : Word) : Word := if a.toInt ≤ b.toInt then b else a

/-- MIN (R206). -/
def execMinW (e : Fin 32) (s : State) : Host.Outcome State Fault Refusal :=
  .next (nyBinary .minW 1 valB minSigned (fun f a b => flagsZN f (minSigned a b)) e.val s)

/-- MAX (R206). -/
def execMaxW (e : Fin 32) (s : State) : Host.Outcome State Fault Refusal :=
  .next (nyBinary .maxW 1 valB maxSigned (fun f a b => flagsZN f (maxSigned a b)) e.val s)

/-- CMP (R206): no register is written. -/
def execCmp (e : Fin 32) (s : State) : Host.Outcome State Fault Refusal :=
  .next (nyPlain .cmp 1 (fun s e w =>
    let a := valA s e w
    let b := valB s e w
    setFlags s e (fun f => flagsSub f a b)) e.val s)

/-- MOV (R206). -/
def execMov (e : Fin 32) (s : State) : Host.Outcome State Fault Refusal :=
  .next (nyPlain .mov 1 (fun s e w => result s e w (valA s e w) (fun f => flagsZN f (valA s e w))) e.val s)

/-- A limited result with Z, N and V (R207). -/
def limited32 (s : State) (e : Nat) (w : Word) (v : Int) : State :=
  result s e w (ofInt (sat32 v)) (fun f => flagsZNV f (ofInt (sat32 v)) (sat32 v != v))

/-- MULQ (R207): Wb and q are read in both forms. -/
def execMulq (e : Fin 32) (s : State) : Host.Outcome State Fault Refusal :=
  .next (nyPlain .mulq 2 (fun s e w =>
    limited32 s e w (roundShift ((valA s e w).toInt * (valWb s e w).toInt) (fld w 4 0))) e.val s)

/-- SCALE (R207): M, S and O are three pool words. -/
def execScale (e : Fin 32) (s : State) : Host.Outcome State Fault Refusal :=
  .next (nyStep [.scale] (fun s _ _ => (s, some (3, ())))
    (fun s e w _ => engBank s e .prog (poolAddrs s (engine s e).bank (valU s e w % 131072) 0 3))
    (fun s e w ws =>
      let m := (ws.getD 0 0).toInt
      let q := fld (ws.getD 1 0) 4 0
      let o := (ws.getD 2 0).toInt
      limited32 s e w (roundShift ((valA s e w).toInt * m) q + o)) e.val s)

/-- LDI (R208): K sign-extended, or the pool word at bits [16:0]. -/
def execLdi (e : Fin 32) (s : State) : Host.Outcome State Fault Refusal :=
  .next (nyStep [.ldi] (fun s _ _ => (s, some (1, ())))
    (fun s e w _ =>
      if bit w 17 then (s, some [ofInt (sext 17 (fld w 16 0))])
      else engBank s e .prog (poolAddrs s (engine s e).bank (fld w 16 0) 0 1))
    (fun s e w ws => result s e w (ws.getD 0 0) (fun f => flagsZN f (ws.getD 0 0))) e.val s)

end Sys2Proof.Machine
end

