-- ==== Sys2Proof/Machine/NymsaText.lean ====
section
/-! DEFINITION. Nymsa: control, text and parsing instructions (09_nymsa_reference.md R196 to R205). -/

namespace Sys2Proof.Machine

/-! ## Control (R196 to R198) -/

/-- NOP: nothing, for 1 ply; the unassigned opcode acts so too (R171). -/
def execNop (e : Fin 32) (s : State) : Host.Outcome State Fault Refusal :=
  .next (nyStep [.nop, .unassigned] (fun s _ _ => (s, some (1, ()))) (fun s _ _ _ => (s, some ())) (fun s _ _ _ => s) e.val s)

/-- END: the record ends by END (R172). -/
def execEndRecord (e : Fin 32) (s : State) : Host.Outcome State Fault Refusal :=
  .next (nyPlain .endRecord 1 (fun s e _ => engEndNormal s e) e.val s)

/-- DROP: the record ends by DROP (R172). -/
def execDrop (e : Fin 32) (s : State) : Host.Outcome State Fault Refusal :=
  .next (nyPlain .drop 1 (fun s e _ => engEnd s e false) e.val s)

/-- The PC of an engine takes a target (R196). -/
def jump (s : State) (e pc : Nat) : State := setEngine s e { engine s e with pc := pc % 32768 }

/-- BR (R196). -/
def execBr (e : Fin 32) (s : State) : Host.Outcome State Fault Refusal :=
  .next (nyPlain .br 1 (fun s e w => jump s e (valU s e w)) e.val s)

/-- BRC (R196, R197). -/
def execBrc (e : Fin 32) (s : State) : Host.Outcome State Fault Refusal :=
  .next (nyPlain .brc 1 (fun s e w => if condition (engine s e).flags (fD w) then jump s e (valU s e w) else s) e.val s)

/-- A return address is pushed; a ninth discards the oldest (R171). -/
def pushReturn (st : List Nat) (pc : Nat) : List Nat := (if 8 ≤ st.length then st.drop (st.length - 7) else st) ++ [pc]

/-- CALL (R196). -/
def execCall (e : Fin 32) (s : State) : Host.Outcome State Fault Refusal :=
  .next (nyPlain .call 1 (fun s e w =>
    let g := engine s e
    jump (setEngine s e { g with stack := pushReturn g.stack g.pc }) e (valU s e w)) e.val s)

/-- RET (R196). -/
def execRet (e : Fin 32) (s : State) : Host.Outcome State Fault Refusal :=
  .next (nyPlain .ret 1 (fun s e _ =>
    let g := engine s e
    match g.stack.getLast? with
    | some pc => setEngine s e { g with stack := g.stack.dropLast, pc := pc }
    | none => setEngine s e { g with pc := 32767 }) e.val s)

/-- BUDGET (R198). -/
def execBudget (e : Fin 32) (s : State) : Host.Outcome State Fault Refusal :=
  .next (nyPlain .budget 1 (fun s e w =>
    let g := engine s e
    let u := valU s e w
    let b := if u ≤ 65535 then min g.budget u else g.budget
    let v := BitVec.ofNat 32 (b - g.plies)
    result (setEngine s e { g with budget := b }) e w v (fun f => flagsZ f v)) e.val s)

/-! ## Text (R199 to R201) -/

/-- CUR (R200). -/
def execCur (e : Fin 32) (s : State) : Host.Outcome State Fault Refusal :=
  .next (nyPlain .cur 1 (fun s e w =>
    let old := (engine s e).cursor
    let u := valU s e w
    let s := setWreg s e (fD w) (BitVec.ofNat 32 old)
    if bit w 17 && u == 0x1FFFF then moveCursor s e old else moveCursor s e u) e.val s)

/-- SKIP (R200). -/
def execSkip (e : Fin 32) (s : State) : Host.Outcome State Fault Refusal :=
  .next (nyPlain .skip 1 (fun s e w => moveCursor s e ((((engine s e).cursor : Int) + (valB s e w).toInt).toNat)) e.val s)

/-- GETC (R200). -/
def execGetc (e : Fin 32) (s : State) : Host.Outcome State Fault Refusal :=
  .next (nyPlain .getc 1 (fun s e w =>
    let c := (engine s e).cursor
    match kenBytes s e c 1 with
    | (s, none) => s
    | (s, some bs) =>
      let v := (bs.getD 0 0).setWidth 32
      moveCursor (result s e w v (fun f => flagsZN f v)) e (c + 1)) e.val s)

/-- MATCH (R200). -/
def execMatch (e : Fin 32) (s : State) : Host.Outcome State Fault Refusal :=
  .next (nyStep [.matchText]
    (fun s e w => match engPoolLen s e (valU s e w % 131072) with
      | (s, none) => (s, none)
      | (s, some (p, len)) => (s, some (1 + ceilDiv len 8, p, len)))
    (fun s e w x => engPoolChars s e (valU s e w % 131072) x.1 x.2)
    (fun s e w t =>
      let c := (engine s e).cursor
      let done (s : State) (m : Bool) : State :=
        result s e w (BitVec.ofNat 32 (b2n m)) (fun f => flagSet (flagSet f flagM m) flagZ (!m))
      if t.isEmpty then done s true
      else if engLen s e < c + t.length then done s false
      else match kenBytes s e c t.length with
        | (s, none) => s
        | (s, some bs) => done s (bs == t)) e.val s)

/-- A byte that ends a field (R199). -/
def fieldEnd (c : Byte) : Bool := c == 0x2A#8 || c == 0x0D#8 || c == 0x0A#8

/-- NEXTF has read enough from the cursor on: the byte there ends the fields, or a delimiter of the field has been read. -/
def nextfDone : List Byte → Bool
  | [] => false
  | c :: cs =>
    if fieldEnd c then true
    else (if c == 0x24#8 || c == 0x21#8 || c == 0x2C#8 then cs else c :: cs).any (fun c => c == 0x2C#8 || fieldEnd c)

/-- Payload words from the one that holds the cursor on, read until NEXTF has what it needs: the bytes from the cursor. -/
def nextfRead (s : State) (e skip len : Nat) : List Byte → List Nat → State × Option (List Byte)
  | acc, [] => (s, some ((acc.drop skip).take len))
  | acc, k :: ks =>
    if nextfDone ((acc.drop skip).take len) then (s, some ((acc.drop skip).take len))
    else match kenGet s e k with
      | (s, none) => (s, none)
      | (s, some w) => nextfRead s e skip len (acc ++ wordBytes w) ks

/-- NEXTF (R199). -/
def execNextf (e : Fin 32) (s : State) : Host.Outcome State Fault Refusal :=
  .next (nyPlain .nextf 2 (fun s e w =>
    let p := (engine s e).cursor
    let len := engLen s e
    let ks := (List.range ((len + 3) / 4 - p / 4)).map (fun i => 12 + p / 4 + i)
    match nextfRead s e (p % 4) (len - p) [] ks with
    | (s, none) => s
    | (s, some bs) =>
      match bs with
      | [] => moveCursor (result s e w 0 (fun f => flagSet (flagSet f flagBad true) flagZ true)) e p
      | c :: cs =>
        if fieldEnd c then moveCursor (result s e w 0 (fun f => flagSet (flagSet f flagBad true) flagZ true)) e p
        else
          let start := c == 0x24#8 || c == 0x21#8 || c == 0x2C#8
          let body := (if start then cs else bs).takeWhile (fun c => !(c == 0x2C#8 || fieldEnd c))
          let at_ := p + b2n start
          let n := body.length
          let g := engine s e
          let fs := if g.fields.length < 64 then g.fields ++ [memFresh (BitVec.ofNat 32 (at_ * 65536 + n))] else g.fields
          let v := BitVec.ofNat 32 n
          moveCursor (result (setEngine s e { g with fields := fs }) e w v (fun f => flagSet (flagSet f flagBad false) flagZ (n == 0)))
            e (at_ + n)) e.val s)

/-- STAR of the record header (R157). -/
def engStar (s : State) (e : Nat) : Nat := fld (recW s (engRec s e) 9) 8 0

/-- CHK (R201). -/
def execChk (e : Fin 32) (s : State) : Host.Outcome State Fault Refusal :=
  .next (nyStep [.chk]
    (fun s e _ =>
      let none_ := recType s (engRec s e) != 0 || engStar s e == 0x1FF
      (s, some (if none_ then 1 else 1 + ceilDiv (engStar s e - engStartOff s e) 16, none_)))
    (fun s _ _ x => (s, some x))
    (fun s e w none_ =>
      let done (s : State) (v : Nat) (m bad : Bool) : State :=
        result s e w (BitVec.ofNat 32 v) (fun f => flagSet (flagSet (flagSet f flagM m) flagBad bad) flagZ (v == 0))
      if none_ then done s 0 false true
      else
        let a := engStartOff s e + 1
        let b := engStar s e
        let lo := min a (b + 1)
        match kenBytes s e lo (b + 3 - lo) with
        | (s, none) => s
        | (s, some bs) =>
          let x := xorBytes ((bs.drop (a - lo)).take (b - a))
          match hexPair (bs.getD (b + 1 - lo) 0) (bs.getD (b + 2 - lo) 0) with
          | none => done s x false true
          | some v => done s x (v == x) false) e.val s)

/-- Characters of the address field as a number, first the most significant (R200). -/
def addressChars (s : State) (e : Nat) (w : Word) (from_ n : Nat) : State :=
  if recType s (engRec s e) != 0 then result s e w 0 (fun f => flagSet (flagSet f flagZ true) flagBad true)
  else match kenBytes s e (engStartOff s e + from_) n with
    | (s, none) => s
    | (s, some bs) =>
      let v := BitVec.ofNat 32 (beNat bs)
      result s e w v (fun f => flagSet (flagsZ f v) flagBad false)

/-- TALK (R200). -/
def execTalk (e : Fin 32) (s : State) : Host.Outcome State Fault Refusal :=
  .next (nyPlain .talk 1 (fun s e w => addressChars s e w 1 2) e.val s)

/-- FMT (R200). -/
def execFmt (e : Fin 32) (s : State) : Host.Outcome State Fault Refusal :=
  .next (nyPlain .fmt 1 (fun s e w => addressChars s e w 3 3) e.val s)

/-! ## Parsing (R202 to R205) -/

/-- The text of a recorded field. -/
def fieldText (s : State) (e f : Nat) : State × Option (Option (List Byte)) :=
  match fieldGet s e f with
  | (s, none) => (s, none)
  | (s, some none) => (s, some none)
  | (s, some (some (at_, n))) => match kenBytes s e at_ n with
    | (s, none) => (s, none)
    | (s, some bs) => (s, some (some bs))

/-- The texts of a field and of the k fields behind it; the first must be recorded and not empty for the others to be read. -/
def fieldTexts (s : State) (e f : Nat) : Nat → State × Option (List (Option (List Byte)))
  | 0 => (s, some [])
  | k + 1 => match fieldText s e f with
    | (s, none) => (s, none)
    | (s, some t) =>
      if t == none || t == some [] then (s, some [t])
      else match fieldTexts s e (f + 1) k with
        | (s, none) => (s, none)
        | (s, some ts) => (s, some (t :: ts))

/-- What a parsing instruction found (R202). -/
inductive Parsed where
  | failed (empty : Bool)
  | good (v : Word) (past : Bool)
  deriving DecidableEq, Repr

/-- The outcome of a parsing instruction goes to Wd and the flags: Z and BAD, and N and V where its row names them (R202). -/
def parsed (s : State) (e : Nat) (w : Word) (n v : Bool) (p : Parsed) : State :=
  let put (s : State) (x : Word) (z neg past bad : Bool) : State :=
    result s e w x fun f =>
      let f := flagSet (flagSet f flagZ z) flagBad bad
      let f := if n then flagSet f flagN neg else f
      if v then flagSet f flagV past else f
  match p with
  | .failed empty => put s 0 empty false false true
  | .good x past => put s x (x == 0) x.msb past false

/-- Field F of a parsing instruction. -/
def fF (s : State) (e : Nat) (w : Word) : Nat := valU s e w % 64

/-- A parsing instruction of k fields: their texts are read, judged and the outcome written. -/
def nyParse (op : NyOp) (c k : Nat) (n v : Bool) (f : Word → List (List Byte) → Option (Word × Bool)) (e : Nat) (s : State) : State :=
  nyPlain op c (fun s e w =>
    match fieldTexts s e (fF s e w) k with
    | (s, none) => s
    | (s, some ts) =>
      let judge : Parsed := match f w (ts.filterMap id) with
        | some (x, past) => .good x past
        | none => .failed false
      let p : Parsed := match ts with
        | none :: _ => .failed false
        | some [] :: _ => .failed true
        | _ => judge
      parsed s e w n v p) e s

/-- PDEC (R203). -/
def execPdec (e : Fin 32) (s : State) : Host.Outcome State Fault Refusal :=
  .next (nyParse .pdec 2 1 true true (fun w ts => match ts with
    | [t] => (parseDecimal t (fld w 10 6)).map fun r => (ofInt r.1, r.2)
    | _ => none) e.val s)

/-- PLAT (R204). -/
def execPlat (e : Fin 32) (s : State) : Host.Outcome State Fault Refusal :=
  .next (nyParse .plat 4 2 true false (fun _ ts => match ts with
    | [t, h] => (parseAngle 2 t h 0x4E#8 0x53#8 900000000).map fun r => (ofInt r, false)
    | _ => none) e.val s)

/-- PLON (R204). -/
def execPlon (e : Fin 32) (s : State) : Host.Outcome State Fault Refusal :=
  .next (nyParse .plon 4 2 true false (fun _ ts => match ts with
    | [t, h] => (parseAngle 3 t h 0x45#8 0x57#8 1800000000).map fun r => (ofInt r, false)
    | _ => none) e.val s)

/-- PHEX (R205). -/
def execPhex (e : Fin 32) (s : State) : Host.Outcome State Fault Refusal :=
  .next (nyParse .phex 2 1 true false (fun _ ts => match ts with
    | [t] => if 8 < t.length then none else (hexVal t).map fun v => (BitVec.ofNat 32 v, false)
    | _ => none) e.val s)

/-- PCHR (R205). -/
def execPchr (e : Fin 32) (s : State) : Host.Outcome State Fault Refusal :=
  .next (nyParse .pchr 1 1 false false (fun _ ts => match ts with
    | [c :: _] => some (c.setWidth 32, false)
    | _ => none) e.val s)

/-- PTIME (R205): both registers of the pair are written in every outcome. -/
def execPtime (e : Fin 32) (s : State) : Host.Outcome State Fault Refusal :=
  .next (nyPlain .ptime 3 (fun s e w =>
    match fieldText s e (fF s e w) with
    | (s, none) => s
    | (s, some t) =>
      let pair (s : State) (ns : Nat) : State := setWreg s e ((fD w + 1) % 16) (BitVec.ofNat 32 ns)
      match t with
      | none => parsed (pair s 0) e w false false (.failed false)
      | some [] => parsed (pair s 0) e w false false (.failed true)
      | some cs => match parseTime cs with
        | none => parsed (pair s 0) e w false false (.failed false)
        | some (v, ns) => parsed (pair s ns) e w false false (.good (BitVec.ofNat 32 v) false)) e.val s)

/-- PDATE (R205): one field, or three where S[6] is 1. -/
def execPdate (e : Fin 32) (s : State) : Host.Outcome State Fault Refusal :=
  .next (nyPlain .pdate 4 (fun s e w =>
    match fieldTexts s e (fF s e w) (if bit w 6 then 3 else 1) with
    | (s, none) => s
    | (s, some ts) =>
      let v : Option Nat := match ts with
        | [some t] => if bit w 6 then none else parseDate6 t
        | [some d, some m, some y] => parseDate3 d m y
        | _ => none
      let p : Parsed := match ts, v with
        | some [] :: _, _ => .failed true
        | _, some v => .good (BitVec.ofNat 32 v) false
        | _, none => .failed false
      parsed s e w false false p) e.val s)

end Sys2Proof.Machine
end

