-- ==== Sys2Proof/Machine/NymsaOut.lean ====
section
/-! DEFINITION. Nymsa: output instructions (09_nymsa_reference.md R213 to R220). -/

namespace Sys2Proof.Machine

/-- REF takes the outcome of an output instruction. -/
def refused (s : State) (e : Nat) (r : Bool) : State := setFlags s e (fun f => flagSet f flagRef r)

/-- The open item of an engine changes, and OPEN follows. -/
def setItem (s : State) (e : Nat) (i : Option Item) : State :=
  setFlags (setEngine s e { engine s e with item := i }) e (fun f => flagSet f flagOpen i.isSome)

/-- Bytes are appended to the open item; an append that finds none open, or would pass 1 024 bytes, is refused (R213). -/
def append (s : State) (e : Nat) (bs : List Byte) : State :=
  match (engine s e).item with
  | none => refused s e true
  | some i =>
    if 1024 < i.body.length + bs.length then refused s e true
    else refused (setItem s e (some { i with body := i.body ++ bs })) e false

/-- OPEN (R215). -/
def execOpenItem (e : Fin 32) (s : State) : Host.Outcome State Fault Refusal :=
  .next (nyPlain .openItem 2 (fun s e w =>
    if (engine s e).item.isSome then refused s e true
    else
      let u := valU s e w
      let i : Item := { set := u % 512, prio := u / 512 % 8, deadline := valA s e w, body := [], launch := none, notag := false,
                        src := none, can := none, openSeq := s.lq.enSeq }
      refused (setItem s e (some i)) e false) e.val s)

/-- PUTC (R214): a byte, or the running checksum. -/
def execPutc (e : Fin 32) (s : State) : Host.Outcome State Fault Refusal :=
  .next (nyPlain .putc 1 (fun s e w =>
    let u := valU s e w
    let sum := match (engine s e).item with
      | some i => runningSum i.body
      | none => 0
    append s e (if u / 256 % 2 == 1 then hexByte sum else [BitVec.ofNat 8 u])) e.val s)

/-- PUTS (R214): a pool string. -/
def execPuts (e : Fin 32) (s : State) : Host.Outcome State Fault Refusal :=
  .next (nyStep [.puts]
    (fun s e w => match engPoolLen s e (valU s e w % 131072) with
      | (s, none) => (s, none)
      | (s, some (p, len)) => (s, some (1 + ceilDiv len 8, p, len)))
    (fun s e w x => engPoolChars s e (valU s e w % 131072) x.1 x.2)
    (fun s e _ t => append s e t) e.val s)

/-- PUTF (R214): a field, or A as text under R216. -/
def execPutf (e : Fin 32) (s : State) : Host.Outcome State Fault Refusal :=
  .next (nyStep [.putf]
    (fun s e w =>
      if !bit w 17 then (s, some (2, none))
      else match fieldGet s e (fld w 5 0) with
        | (s, none) => (s, none)
        | (s, some none) => (s, some (1, none))
        | (s, some (some f)) => (s, some (1 + ceilDiv f.2 8, some f)))
    (fun s _ _ x => (s, some x))
    (fun s e w x =>
      if !bit w 17 then append s e (formatQ (valA s e w).toInt (operandS w))
      else match x with
        | none => refused s e true
        | some (at_, n) => match kenBytes s e at_ n with
          | (s, none) => s
          | (s, some bs) => append s e bs) e.val s)

/-- PUTRAW (R214): scratch bytes from byte address A upward. -/
def execPutraw (e : Fin 32) (s : State) : Host.Outcome State Fault Refusal :=
  .next (nyStep [.putraw] (fun s e w => (s, some (1 + ceilDiv (min (valU s e w) 1024) 8, ()))) (fun s _ _ x => (s, some x))
    (fun s e w _ =>
      let u := valU s e w
      let a := (valA s e w).toNat
      match (engine s e).item with
      | none => refused s e true
      | some i =>
        if 1024 < i.body.length + u then refused s e true
        else
          let cnt := if u == 0 then 0 else (a % 4 + u + 3) / 4
          match scrGets s e ((List.range cnt).map (fun k => a + 4 * k)) with
          | (s, none) => s
          | (s, some ws) => append s e (((wordsBytes ws).drop (a % 4)).take u)) e.val s)

/-- OPGN (R217): the identifier in the layout of AUX0, and the specifier bits. -/
def execOpgn (e : Fin 32) (s : State) : Host.Outcome State Fault Refusal :=
  .next (nyPlain .opgn 1 (fun s e w =>
    match (engine s e).item with
    | none => refused s e true
    | some i =>
      let u := valU s e w % 8192
      let a := valA s e w
      let id := if u / 4096 % 2 == 1 then a
        else BitVec.ofNat 32 (2 ^ 29 + u % 8 * 2 ^ 26 + fld a 17 0 * 256 + u / 8 % 256)
      refused (setItem s e (some { i with can := some (id, BitVec.ofNat 32 u) })) e false) e.val s)

/-- PUTB (R214): the low bytes of A, least or most significant first. -/
def execPutb (e : Fin 32) (s : State) : Host.Outcome State Fault Refusal :=
  .next (nyPlain .putb 1 (fun s e w =>
    let u := valU s e w
    let n := if u % 8 == 0 || 5 ≤ u % 8 then 4 else u % 8
    let bs := (wordBytes (valA s e w)).take n
    append s e (if u / 8 % 2 == 1 then bs.reverse else bs)) e.val s)

/-- The deadline of an item at CLOSE (R215). -/
def itemDeadline (s : State) (i : Item) : Option (Word × Word) :=
  if i.deadline == 0 then none
  else match i.launch with
    | some (sec, ns) => some (shortAdd sec ns (i.deadline.toNat * 1000))
    | none => some (shortAdd (shortSec (now s)) (shortNs (now s)) (i.deadline.toNat * 1000))

/-- What every copy of an item holds (R227, R334). -/
def itemCopy (s : State) (e : Nat) (i : Item) (t : Edge) : Copy :=
  let g := engine s e
  let r := engRec s e
  { listener := 0, arrival := 0, w0 := 0, w1 := 0, src := [], prio := i.prio, deadline := itemDeadline s i, setTb := s.time.tb,
    launch := i.launch, released := false, len := i.body.length, body := i.body, notag := i.notag, can := i.can, stamp := t, stampLost := engLost s e,
    inj := bit (recW s r 0) 22, gran := 0, granules := 0, missed := false, rebuilding := false,
    srcSeq := r.seq, srcGran := r.gran, srcCount := r.count, srcTalker := r.talker, ordinal := g.closes, bank := g.bank,
    bankLoads := sget 0 s.pack.loads g.bank }

/-- What CLOSE reads before it acts: the item's set and the entries of its members, read by the copier. Where one is awaited, the engine
waits with it (R187). -/
def closeRead (s : State) (e : Nat) : State × Option (Option (List (Nat × Word × Word × List Byte))) :=
  match (engine s e).item with
  | none => (s, some none)
  | some i =>
    let bank := (engine s e).bank
    match bankList s .sets readerCopier [] ((List.range 32).map (setAddr bank i.set)) with
    | (s', none) => (engWait (markMet s s' e) e, none)
    | (s', some ws) => match memberEntries s' bank (setMembers ws) with
      | (s', none) => (engWait (markMet s s' e) e, none)
      | (s', some es) => (markMet s s' e, some (some es))

/-- CLOSE (R214): the item goes to the copier (R227). A rebuild run takes the item with the recorded ordinal for the one copy and
discards the others (R334). -/
def execClose (e : Fin 32) (s : State) : Host.Outcome State Fault Refusal :=
  .next (nyStep [.close] (fun s _ _ => (s, some (2, ()))) (fun s e _ _ => closeRead s e)
    (fun s e w x =>
      let done (s : State) (n : Nat) (r : Bool) : State := refused (setWreg s e (fD w) (BitVec.ofNat 32 n)) e r
      match (engine s e).item, x with
      | some i, some es => match kenEdge s e with
        | (s, none) => s
        | (s, some t) =>
          let c := itemCopy s e i t
          let g := engine s e
          let s' := setItem (setEngine s e { g with closes := g.closes + 1, effect := true }) e none
          let s' := match g.rebuild with
            | some b => if g.closes == b.ordinal then lqRebuilt s' b i.body (bit (recW s' (engRec s' e) 0) 22) else s'
            | none => copyItem s' c i.src i.openSeq es
          done s' es.length false
      | _, _ => done (setEffect s e) 0 true) e.val s)

/-- LAUNCH (R218): the item's launch time, or a pulse; a pulse of a rebuild run is not queued (R334). -/
def execLaunch (e : Fin 32) (s : State) : Host.Outcome State Fault Refusal :=
  .next (nyPlain .launch 1 (fun s e w =>
    let u := valU s e w
    let a := fA w
    let sec := wreg s e a
    let ns := wreg s e ((a + 1) % 16)
    if u / 8 % 2 == 0 then
      match (engine s e).item with
      | none => refused s e true
      | some i => refused (setItem s e (some { i with launch := some (sec, ns) })) e false
    else if isRebuild s e then refused s e false
    else
      let s := setEffect s e
      let m := u % 8
      if !portEn s 4 m || (evOut s m).closing.isSome then refused s e true
      else
        let (s, r) := eoLaunch s m sec ns ((wreg s e ((a + 2) % 16)).setWidth 16)
        refused s e r) e.val s)

/-- TAG (R219). -/
def execTagItem (e : Fin 32) (s : State) : Host.Outcome State Fault Refusal :=
  .next (nyStep [.tagItem] (fun s _ _ => (s, some (1, ())))
    (fun s e w _ =>
      if (engine s e).item.isNone || valU s e w / 2 % 2 == 0 then (s, some none)
      else
        let off := (valA s e w).toNat % 131072
        match engPoolLen s e off with
        | (s, none) => (s, none)
        | (s, some (p, len)) => match engPoolChars s e off p (min 15 len) with
          | (s, none) => (s, none)
          | (s, some t) => (s, some (some t)))
    (fun s e w t => match (engine s e).item with
      | none => refused s e true
      | some i => refused (setItem s e (some { i with notag := valU s e w % 2 == 1, src := t })) e false) e.val s)

/-- PANEL (R220); in a rebuild run it only reports success (R334). -/
def execPanel (e : Fin 32) (s : State) : Host.Outcome State Fault Refusal :=
  .next (nyPlain .panel 2 (fun s e w =>
    let u := valU s e w
    let n := u % 8
    let region := u / 8 % 32
    let done (s : State) (v : Nat) (r : Bool) : State := refused (setWreg s e (fD w) (BitVec.ofNat 32 v)) e r
    if isRebuild s e then done s 0 false
    else
      let s := setEffect s e
      let waits := (panel s n).reqs.any (fun q => q.region == region)
      match panelRequest s n region .bindings none with
      | (s, true) => done s (b2n waits) false
      | (s, false) => done s 2 true) e.val s)

end Sys2Proof.Machine
end

