-- ==== Sys2Proof/Machine/NymsaStore.lean ====
section
/-! DEFINITION. Nymsa: tables, stores, time and housekeeping (09_nymsa_reference.md R209 to R212, R221). -/

namespace Sys2Proof.Machine

/-! ## Tables and scratch (R209) -/

/-- TLK (R209): a word of the live talker table. -/
def execTlk (e : Fin 32) (s : State) : Host.Outcome State Fault Refusal :=
  .next (nyPlain .tlk 2 (fun s e w =>
    let i := (valA s e w).toNat % 4096
    let k := valU s e w % 16
    let s := markMet s (talkerCheck s i e [] [k]) e
    result s e w (talkW s i k) (fun f => flagsZN f (talkW s i k))) e.val s)

/-- RT (R209): a route entry of the record's bank. -/
def execRt (e : Fin 32) (s : State) : Host.Outcome State Fault Refusal :=
  .next (nyStep [.rt] (fun s _ _ => (s, some (1, ())))
    (fun s e w _ => engBank s e .routes [512 * (engine s e).bank + valU s e w % 512])
    (fun s e w ws => result s e w (ws.getD 0 0) (fun f => flagsZN f (ws.getD 0 0))) e.val s)

/-- Scratch address A + B (R209). -/
def addrAB (s : State) (e : Nat) (w : Word) : Nat := (valA s e w + valB s e w).toNat

/-- LDS (R209). -/
def execLds (e : Fin 32) (s : State) : Host.Outcome State Fault Refusal :=
  .next (nyPlain .lds 1 (fun s e w => match scrGet s e (addrAB s e w) with
    | (s, none) => s
    | (s, some v) => result s e w v (fun f => flagsZN f v)) e.val s)

/-- STS (R209). -/
def execSts (e : Fin 32) (s : State) : Host.Outcome State Fault Refusal :=
  .next (nyPlain .sts 1 (fun s e w => scrPut s e (addrAB s e w) (wreg s e (fD w))) e.val s)

/-! ## Slots (R210) -/

/-- Byte addresses of the twelve scratch words of a slot instruction. -/
def slotAddrs (u : Nat) : List Nat := (List.range 12).map fun k => u + 4 * k

/-- The words of a slot after a SLOTW: values, source stamp, the next sequence number (R210, R240). -/
def slotWords (s : State) (slot : Nat) (vals : List Word) (t : Edge) (lost : Bool) : List Word :=
  let seq := fld (memWord s .slots (16 * slot + 15)) 31 16
  vals ++ [BitVec.ofNat 32 (b2n lost * 2 ^ 31 + t.epoch % 16 * 65536 + stSec t.stamp / 2 ^ 32 % 65536),
    BitVec.ofNat 32 (stSec t.stamp), BitVec.ofNat 32 (stNs t.stamp), BitVec.ofNat 32 ((seq % 65535 + 1) * 65536 + stFrac t.stamp)]

/-- SLOTW (R210); without effect in a rebuild run (R334). -/
def execSlotw (e : Fin 32) (s : State) : Host.Outcome State Fault Refusal :=
  .next (nyPlain .slotw 3 (fun s e w =>
    if isRebuild s e then s
    else match scrGets s e (slotAddrs (valU s e w)) with
      | (s, none) => s
      | (s, some vals) => match kenEdge s e with
        | (s, none) => s
        | (s, some t) =>
          let slot := (valA s e w).toNat % 4096
          setEffect (memPuts s .slots (16 * slot) (slotWords s slot vals t (engLost s e))) e) e.val s)

/-- The words of a slot go to scratch. -/
def scrPuts (s : State) (e : Nat) : List Nat → List Word → State
  | a :: as, v :: vs => scrPuts (scrPut s e a v) e as vs
  | _, _ => s

/-- SLOTR (R210). -/
def execSlotr (e : Fin 32) (s : State) : Host.Outcome State Fault Refusal :=
  .next (nyPlain .slotr 3 (fun s e w =>
    let slot := (valA s e w).toNat % 4096
    let (s', got) := slotTake s slot (List.range 12) e []
    let s' := markMet s s' e
    match got with
    | none => result s' e w 0 (fun f => flagSet (flagSet f flagZ true) flagBad true)
    | some vals =>
      let seq := BitVec.ofNat 32 (fld (memWord s' .slots (16 * slot + 15)) 31 16)
      result (scrPuts s' e (slotAddrs (valU s' e w)) vals) e w seq (fun f => flagSet (flagsZ f seq) flagBad false)) e.val s)

/-! ## Time (R211, R212) -/

/-- A pair of registers takes a short stamp (R191). -/
def setTimePair (s : State) (e n : Nat) (sec ns : Word) : State := setWreg (setWreg s e n sec) e ((n + 1) % 16) ns

/-- A stamp of the record goes to Wd as U[1:0] selects (R211). -/
def stampRead (s : State) (e : Nat) (w : Word) (k : Nat) : State :=
  match kenStamp s e k with
  | (s, none) => s
  | (s, some t) =>
    let lost := engLost s e
    let sel := valU s e w % 4
    let epoch := fld (recW s (engRec s e) 0) 27 24
    let s := if sel == 1 then setWreg s e (fD w) (BitVec.ofNat 32 (b2n lost * 2 ^ 31 + epoch * 65536 + stSec t / 2 ^ 32 % 65536))
      else if sel == 2 then setWreg s e (fD w) (BitVec.ofNat 32 (stFrac t))
      else setTimePair s e (fD w) (shortSec t) (shortNs t)
    setFlags s e (fun f => flagSet f flagBad lost)

/-- TSA (R211). -/
def execTsa (e : Fin 32) (s : State) : Host.Outcome State Fault Refusal :=
  .next (nyPlain .tsa 1 (fun s e w => stampRead s e w 3) e.val s)

/-- TSE (R211). -/
def execTse (e : Fin 32) (s : State) : Host.Outcome State Fault Refusal :=
  .next (nyPlain .tse 1 (fun s e w => stampRead s e w 6) e.val s)

/-- TNOW (R211). -/
def execTnow (e : Fin 32) (s : State) : Host.Outcome State Fault Refusal :=
  .next (nyPlain .tnow 1 (fun s e w => setTimePair s e (fD w) (shortSec (now s)) (shortNs (now s))) e.val s)

/-- TDIFF (R211): Wb is read from [16:13] in both forms. -/
def execTdiff (e : Fin 32) (s : State) : Host.Outcome State Fault Refusal :=
  .next (nyPlain .tdiff 2 (fun s e w =>
    let a := fA w
    let b := fld w 16 13
    let d := dDiff (wreg s e a) (wreg s e ((a + 1) % 16)) (wreg s e b) (wreg s e ((b + 1) % 16))
    result s e w (ofInt (sat32 d)) (fun f => flagsZNV f (ofInt (sat32 d)) (sat32 d != d))) e.val s)

/-- TIMESET (R212); in a rebuild run it only reports success (R334). -/
def execTimeset (e : Fin 32) (s : State) : Host.Outcome State Fault Refusal :=
  .next (nyPlain .timeset 2 (fun s e w =>
    let done (s : State) (v : Word) : State := result s e w v (fun f => flagSet f flagRef (v != 0))
    if isRebuild s e then done s 0
    else
      let s := setEffect s e
      if !isReference s then done s 1
      else match kenEdge s e with
        | (s, none) => s
        | (s, some t) => if engLost s e then done s 2 else done (timeset s (valA s e w).toNat t) 0) e.val s)

/-! ## Housekeeping (R221) -/

/-- COUNT (R221); without effect in a rebuild run (R334). -/
def execCount (e : Fin 32) (s : State) : Host.Outcome State Fault Refusal :=
  .next (nyPlain .count 1 (fun s e w =>
    if isRebuild s e then s
    else
      let u := valU s e w
      count (setEffect s e) (Reg.progCount (u % 64)) 31 0 (if u / 64 % 2 == 1 then (valA s e w).toNat else 1)) e.val s)

/-- The words of a record as an EVENT copy reads them: a failed word goes out as read, and is reported with the OUTCOME that the engine's own
read of it has (R332, log 70). -/
def eventRead (s : State) (e : Nat) (r : Rec) : Nat → Nat → State × List Word
  | _, 0 => (s, [])
  | k, n + 1 =>
    let a := 4 * r.gran + k
    let m := memRead s .kennel a [recSrc s r]
    let s := if m.failed then memReport m.s .kennel a (kenOutcome m.s r k m.word) e 0 m.inj else m.s
    let (s, ws) := eventRead s e r (k + 1) n
    (s, m.word :: ws)

/-- EVENT (R221): the record goes to a host ring; without effect in a rebuild run (R334). -/
def execEvent (e : Fin 32) (s : State) : Host.Outcome State Fault Refusal :=
  .next (nyPlain .event 2 (fun s e w =>
    let done (s : State) (ref : Bool) : State := setFlags s e (fun f => flagSet f flagRef ref)
    if isRebuild s e then done s false
    else
      let s := setEffect s e
      let ring := valU s e w % 16
      let len := 48 + engLen s e
      if !hrRoom s ring len then done (count s Reg.progEvtLost 15 0 1) true
      else
        let (s', ws) := eventRead s e (engRec s e) 0 (12 + ceilDiv (engLen s e) 4)
        let s' := markMet s s' e
        done (hrWrite s' ring 2 0 (bit (recW s' (engRec s' e) 0) 22) ((wordsBytes ws).take len)) false) e.val s)

/-- ACKSTAT (R221); in a rebuild run it reads nothing and returns 0 (R334). -/
def execAckstat (e : Fin 32) (s : State) : Host.Outcome State Fault Refusal :=
  .next (nyPlain .ackstat 2 (fun s e w =>
    if isRebuild s e then setWreg s e (fD w) 0
    else
      let (s, v) := ackstat (setEffect s e) (valU s e w % 128)
      setWreg s e (fD w) v) e.val s)

end Sys2Proof.Machine
end

