-- ==== Sys2Proof/Machine/Dispatch.lean ====
section
/-! DEFINITION. The dispatch: one arm per command, one direct call of its meaning per arm. -/

namespace Sys2Proof.Machine

/-- The effect of a command on everything but the queue. -/
def exec (i : Instr) (s : State) : Host.Outcome State Fault Refusal :=
  match i with
  | .cmdBufWrite w k data => Sys2Proof.Machine.execCmdBufWrite w k data s
  | .cmdAccept w => Sys2Proof.Machine.execCmdAccept w s
  | .nopCommand slot => Sys2Proof.Machine.execNopCommand slot s
  | .deviceReset w => Sys2Proof.Machine.execDeviceReset w s
  | .deviceResetStart => Sys2Proof.Machine.execDeviceResetStart s
  | .statsSnapshot slot => Sys2Proof.Machine.execStatsSnapshot slot s
  | .injectArm slot => Sys2Proof.Machine.execInjectArm slot s
  | .sleepEnter slot => Sys2Proof.Machine.execSleepEnter slot s
  | .loadProgram slot => Sys2Proof.Machine.execLoadProgram slot s
  | .bankSwap slot => Sys2Proof.Machine.execBankSwap slot s
  | .bankSwapDrained => Sys2Proof.Machine.execBankSwapDrained s
  | .tableWrite slot => Sys2Proof.Machine.execTableWrite slot s
  | .tableRead slot => Sys2Proof.Machine.execTableRead slot s
  | .portSet slot => Sys2Proof.Machine.execPortSet slot s
  | .portEnable slot => Sys2Proof.Machine.execPortEnable slot s
  | .portDisable slot => Sys2Proof.Machine.execPortDisable slot s
  | .engineGroupOnline slot => Sys2Proof.Machine.execEngineGroupOnline slot s
  | .groupPowered g => Sys2Proof.Machine.execGroupPowered g s
  | .engineGroupOffline slot => Sys2Proof.Machine.execEngineGroupOffline slot s
  | .groupDrained g => Sys2Proof.Machine.execGroupDrained g s
  | .quotaSet slot => Sys2Proof.Machine.execQuotaSet slot s
  | .timeStep slot => Sys2Proof.Machine.execTimeStep slot s
  | .timeRole slot => Sys2Proof.Machine.execTimeRole slot s
  | .timeReacquire slot => Sys2Proof.Machine.execTimeReacquire slot s
  | .calRun slot => Sys2Proof.Machine.execCalRun slot s
  | .calSnapshot slot => Sys2Proof.Machine.execCalSnapshot slot s
  | .panelUpdate slot => Sys2Proof.Machine.execPanelUpdate slot s
  | .farRmwLocked slot => Sys2Proof.Machine.execFarRmwLocked slot s
  | .farFence slot => Sys2Proof.Machine.execFarFence slot s
  | .canSend slot => Sys2Proof.Machine.execCanSend slot s
  | .canCancel slot => Sys2Proof.Machine.execCanCancel slot s
  | .ethLaunch slot => Sys2Proof.Machine.execEthLaunch slot s
  | .flashRead slot => Sys2Proof.Machine.execFlashRead slot s
  | .flashWrite slot => Sys2Proof.Machine.execFlashWrite slot s
  | .flashErase slot => Sys2Proof.Machine.execFlashErase slot s
  | .heldCompletionFlush => Sys2Proof.Machine.execHeldCompletionFlush s
  | .ringEnable r ctrl => Sys2Proof.Machine.execRingEnable r ctrl s
  | .ringHeadWrite r v => Sys2Proof.Machine.execRingHeadWrite r v s
  | .ringModerationTimer r => Sys2Proof.Machine.execRingModerationTimer r s
  | .msixUnmask v => Sys2Proof.Machine.execMsixUnmask v s
  | .bar0BadAccess isWrite off enables => Sys2Proof.Machine.execBar0BadAccess isWrite off enables s
  | .registerWrite off val => Sys2Proof.Machine.execRegisterWrite off val s
  | .rcRegisterRead off => Sys2Proof.Machine.execRcRegisterRead off s
  | .bar2Read off len => Sys2Proof.Machine.execBar2Read off len s
  | .bar2Write off len => Sys2Proof.Machine.execBar2Write off len s
  | .timeLatchCapture => Sys2Proof.Machine.execTimeLatchCapture s
  | .cmpTargetLoad n ns => Sys2Proof.Machine.execCmpTargetLoad n ns s
  | .cmpEnable n => Sys2Proof.Machine.execCmpEnable n s
  | .compareHit n => Sys2Proof.Machine.execCompareHit n s
  | .eoPulseQueue m frac => Sys2Proof.Machine.execEoPulseQueue m frac s
  | .listenerEnable k mask => Sys2Proof.Machine.execListenerEnable k mask s
  | .listenerDisable k mask => Sys2Proof.Machine.execListenerDisable k mask s
  | .spStatusRead p => Sys2Proof.Machine.execSpStatusRead p s
  | .spDataRead p => Sys2Proof.Machine.execSpDataRead p s
  | .cnRecoverStart n => Sys2Proof.Machine.execCnRecoverStart n s
  | .cbIrqAck val => Sys2Proof.Machine.execCbIrqAck val s
  | .cbLogClear => Sys2Proof.Machine.execCbLogClear s
  | .bridgeDisable => Sys2Proof.Machine.execBridgeDisable s
  | .farWindowWrite w reg val => Sys2Proof.Machine.execFarWindowWrite w reg val s
  | .ethMdioCmd val => Sys2Proof.Machine.execEthMdioCmd val s
  | .mdioFrameDone data => Sys2Proof.Machine.execMdioFrameDone data s
  | .pairCtrlEnChange val => Sys2Proof.Machine.execPairCtrlEnChange val s
  | .bar4Write off bytes => Sys2Proof.Machine.execBar4Write off bytes s
  | .bar4Read off enables => Sys2Proof.Machine.execBar4Read off enables s
  | .bar4UnservedAccess isWrite off enables => Sys2Proof.Machine.execBar4UnservedAccess isWrite off enables s
  | .cabinetCycleStart => Sys2Proof.Machine.execCabinetCycleStart s
  | .cabinetCycleAck dtack berr data => Sys2Proof.Machine.execCabinetCycleAck dtack berr data s
  | .cabinetCycleTimeout => Sys2Proof.Machine.execCabinetCycleTimeout s
  | .cardRetryWaitEnd => Sys2Proof.Machine.execCardRetryWaitEnd s
  | .bar4ReadDeadline => Sys2Proof.Machine.execBar4ReadDeadline s
  | .prefetchLineRead w => Sys2Proof.Machine.execPrefetchLineRead w s
  | .prefetchLineAge w => Sys2Proof.Machine.execPrefetchLineAge w s
  | .farBusRequest => Sys2Proof.Machine.execFarBusRequest s
  | .farBusRelease => Sys2Proof.Machine.execFarBusRelease s
  | .farWrite addr strobes data => Sys2Proof.Machine.execFarWrite addr strobes data s
  | .farRead addr strobes => Sys2Proof.Machine.execFarRead addr strobes s
  | .farReadCompletion data => Sys2Proof.Machine.execFarReadCompletion data s
  | .farCardInterrupt line => Sys2Proof.Machine.execFarCardInterrupt line s
  | .hostWaitBackoff => Sys2Proof.Machine.execHostWaitBackoff s
  | .farHoldLimit => Sys2Proof.Machine.execFarHoldLimit s
  | .powerOnReset straps => Sys2Proof.Machine.execPowerOnReset straps s
  | .pwrEnStep => Sys2Proof.Machine.execPwrEnStep s
  | .resetN lowNs => Sys2Proof.Machine.execResetN lowNs s
  | .resetNRelease straps => Sys2Proof.Machine.execResetNRelease straps s
  | .functionLevelReset => Sys2Proof.Machine.execFunctionLevelReset s
  | .d3hotTransition enter => Sys2Proof.Machine.execD3hotTransition enter s
  | .monitoredClockLoss c => Sys2Proof.Machine.execMonitoredClockLoss c s
  | .monitoredClockReturn c => Sys2Proof.Machine.execMonitoredClockReturn c s
  | .pllLock => Sys2Proof.Machine.execPllLock s
  | .refclkLoss => Sys2Proof.Machine.execRefclkLoss s
  | .boot run => Sys2Proof.Machine.execBoot run s
  | .sleepEntryStop => Sys2Proof.Machine.execSleepEntryStop s
  | .sleepPowerDownStep => Sys2Proof.Machine.execSleepPowerDownStep s
  | .watchCharacter j ch stopLow parityBad idleChars => Sys2Proof.Machine.execWatchCharacter j ch stopLow parityBad idleChars s
  | .wakeN => Sys2Proof.Machine.execWakeN s
  | .wakeTimer => Sys2Proof.Machine.execWakeTimer s
  | .wakeRelease => Sys2Proof.Machine.execWakeRelease s
  | .watchTakeover p => Sys2Proof.Machine.execWatchTakeover p s
  | .watchReceiverTimeout j => Sys2Proof.Machine.execWatchReceiverTimeout j s
  | .serialCharacter p ch parityBit stopLow taps => Sys2Proof.Machine.execSerialCharacter p ch parityBit stopLow taps s
  | .leashTimeout p => Sys2Proof.Machine.execLeashTimeout p s
  | .rawGapClose p => Sys2Proof.Machine.execRawGapClose p s
  | .lineBreak p => Sys2Proof.Machine.execLineBreak p s
  | .lineHeld p => Sys2Proof.Machine.execLineHeld p s
  | .lineRelease p => Sys2Proof.Machine.execLineRelease p s
  | .serialSettingsApply p rx => Sys2Proof.Machine.execSerialSettingsApply p rx s
  | .serialItemStage p => Sys2Proof.Machine.execSerialItemStage p s
  | .serialItemStart p => Sys2Proof.Machine.execSerialItemStart p s
  | .halfDuplexAttempt p => Sys2Proof.Machine.execHalfDuplexAttempt p s
  | .collision p => Sys2Proof.Machine.execCollision p s
  | .serialItemEnd p => Sys2Proof.Machine.execSerialItemEnd p s
  | .talkerSweep => Sys2Proof.Machine.execTalkerSweep s
  | .bucketRefill => Sys2Proof.Machine.execBucketRefill s
  | .dispatch => Sys2Proof.Machine.execDispatch s
  | .engineHoundTrip e => Sys2Proof.Machine.execEngineHoundTrip e s
  | .crossingHoundTrip x out idle => Sys2Proof.Machine.execCrossingHoundTrip x out idle s
  | .nop e => Sys2Proof.Machine.execNop e s
  | .endRecord e => Sys2Proof.Machine.execEndRecord e s
  | .drop e => Sys2Proof.Machine.execDrop e s
  | .br e => Sys2Proof.Machine.execBr e s
  | .brc e => Sys2Proof.Machine.execBrc e s
  | .call e => Sys2Proof.Machine.execCall e s
  | .ret e => Sys2Proof.Machine.execRet e s
  | .budget e => Sys2Proof.Machine.execBudget e s
  | .cur e => Sys2Proof.Machine.execCur e s
  | .nextf e => Sys2Proof.Machine.execNextf e s
  | .match e => Sys2Proof.Machine.execMatch e s
  | .getc e => Sys2Proof.Machine.execGetc e s
  | .skip e => Sys2Proof.Machine.execSkip e s
  | .chk e => Sys2Proof.Machine.execChk e s
  | .talk e => Sys2Proof.Machine.execTalk e s
  | .fmt e => Sys2Proof.Machine.execFmt e s
  | .pdec e => Sys2Proof.Machine.execPdec e s
  | .plat e => Sys2Proof.Machine.execPlat e s
  | .plon e => Sys2Proof.Machine.execPlon e s
  | .phex e => Sys2Proof.Machine.execPhex e s
  | .pchr e => Sys2Proof.Machine.execPchr e s
  | .ptime e => Sys2Proof.Machine.execPtime e s
  | .pdate e => Sys2Proof.Machine.execPdate e s
  | .add e => Sys2Proof.Machine.execAdd e s
  | .sub e => Sys2Proof.Machine.execSub e s
  | .mul e => Sys2Proof.Machine.execMul e s
  | .mulq e => Sys2Proof.Machine.execMulq e s
  | .andW e => Sys2Proof.Machine.execAndW e s
  | .orW e => Sys2Proof.Machine.execOrW e s
  | .xorW e => Sys2Proof.Machine.execXorW e s
  | .shl e => Sys2Proof.Machine.execShl e s
  | .shr e => Sys2Proof.Machine.execShr e s
  | .minW e => Sys2Proof.Machine.execMinW e s
  | .maxW e => Sys2Proof.Machine.execMaxW e s
  | .cmp e => Sys2Proof.Machine.execCmp e s
  | .ldi e => Sys2Proof.Machine.execLdi e s
  | .mov e => Sys2Proof.Machine.execMov e s
  | .scale e => Sys2Proof.Machine.execScale e s
  | .tlk e => Sys2Proof.Machine.execTlk e s
  | .rt e => Sys2Proof.Machine.execRt e s
  | .lds e => Sys2Proof.Machine.execLds e s
  | .sts e => Sys2Proof.Machine.execSts e s
  | .slotw e => Sys2Proof.Machine.execSlotw e s
  | .slotr e => Sys2Proof.Machine.execSlotr e s
  | .tsa e => Sys2Proof.Machine.execTsa e s
  | .tse e => Sys2Proof.Machine.execTse e s
  | .tnow e => Sys2Proof.Machine.execTnow e s
  | .tdiff e => Sys2Proof.Machine.execTdiff e s
  | .timeset e => Sys2Proof.Machine.execTimeset e s
  | .openItem e => Sys2Proof.Machine.execOpenItem e s
  | .putc e => Sys2Proof.Machine.execPutc e s
  | .puts e => Sys2Proof.Machine.execPuts e s
  | .putf e => Sys2Proof.Machine.execPutf e s
  | .putraw e => Sys2Proof.Machine.execPutraw e s
  | .opgn e => Sys2Proof.Machine.execOpgn e s
  | .putb e => Sys2Proof.Machine.execPutb e s
  | .close e => Sys2Proof.Machine.execClose e s
  | .launch e => Sys2Proof.Machine.execLaunch e s
  | .tagItem e => Sys2Proof.Machine.execTagItem e s
  | .panel e => Sys2Proof.Machine.execPanel e s
  | .count e => Sys2Proof.Machine.execCount e s
  | .event e => Sys2Proof.Machine.execEvent e s
  | .ackstat e => Sys2Proof.Machine.execAckstat e s
  | .endpointStartCopy ep => Sys2Proof.Machine.execEndpointStartCopy ep s
  | .deadlineMiss arrival => Sys2Proof.Machine.execDeadlineMiss arrival s
  | .drainTick l => Sys2Proof.Machine.execDrainTick l s
  | .todPairing => Sys2Proof.Machine.execTodPairing s
  | .pairWindowClose => Sys2Proof.Machine.execPairWindowClose s
  | .holdTimeout => Sys2Proof.Machine.execHoldTimeout s
  | .eiEdge line level taps => Sys2Proof.Machine.execEiEdge line level taps s
  | .eiLevelAccepted line => Sys2Proof.Machine.execEiLevelAccepted line s
  | .burstClose line => Sys2Proof.Machine.execBurstClose line s
  | .eiHeld line => Sys2Proof.Machine.execEiHeld line s
  | .eiFifoDrain line => Sys2Proof.Machine.execEiFifoDrain line s
  | .eoPulse m => Sys2Proof.Machine.execEoPulse m s
  | .eoPulseEnd m => Sys2Proof.Machine.execEoPulseEnd m s
  | .calMidpoint g => Sys2Proof.Machine.execCalMidpoint g s
  | .calIntervalEnd g dither => Sys2Proof.Machine.execCalIntervalEnd g dither s
  | .calHitsReached g dither => Sys2Proof.Machine.execCalHitsReached g dither s
  | .calTrigger g temp mv => Sys2Proof.Machine.execCalTrigger g temp mv s
  | .tdcTableSwitch t => Sys2Proof.Machine.execTdcTableSwitch t s
  | .occupancyWindowEnd => Sys2Proof.Machine.execOccupancyWindowEnd s
  | .vidCodeChange => Sys2Proof.Machine.execVidCodeChange s
  | .canFrameReceived n frame own => Sys2Proof.Machine.execCanFrameReceived n frame own s
  | .canIntake n => Sys2Proof.Machine.execCanIntake n s
  | .fastPacketTimeout n r => Sys2Proof.Machine.execFastPacketTimeout n r s
  | .canLaneSelect n => Sys2Proof.Machine.execCanLaneSelect n s
  | .canAttemptEnd n res => Sys2Proof.Machine.execCanAttemptEnd n res s
  | .canError n kind tx dataPhase => Sys2Proof.Machine.execCanError n kind tx dataPhase s
  | .busOffRecovered n => Sys2Proof.Machine.execBusOffRecovered n s
  | .canStuck n => Sys2Proof.Machine.execCanStuck n s
  | .canStuckRelease n => Sys2Proof.Machine.execCanStuckRelease n s
  | .canIntegrated n => Sys2Proof.Machine.execCanIntegrated n s
  | .linkChange n up speedFault => Sys2Proof.Machine.execLinkChange n up speedFault s
  | .ethFrameReceived n bytes fcs taps => Sys2Proof.Machine.execEthFrameReceived n bytes fcs taps s
  | .ethDatagramSplit n => Sys2Proof.Machine.execEthDatagramSplit n s
  | .ethFrameStart n => Sys2Proof.Machine.execEthFrameStart n s
  | .ethFrameDeparted n => Sys2Proof.Machine.execEthFrameDeparted n s
  | .ptpSyncTimer p => Sys2Proof.Machine.execPtpSyncTimer p s
  | .ptpDelayReqTimer p => Sys2Proof.Machine.execPtpDelayReqTimer p s
  | .ptpPdelayReqTimer p => Sys2Proof.Machine.execPtpPdelayReqTimer p s
  | .panelFrameBoundary n => Sys2Proof.Machine.execPanelFrameBoundary n s
  | .panelSensorRead n startBit raw => Sys2Proof.Machine.execPanelSensorRead n startBit raw s
  | .panelCrcCheck n => Sys2Proof.Machine.execPanelCrcCheck n s
  | .programRefetchDone data => Sys2Proof.Machine.execProgramRefetchDone data s
  | .tempMonitorSample g temp => Sys2Proof.Machine.execTempMonitorSample g temp s
  | .vcoreMonitorSample g mv => Sys2Proof.Machine.execVcoreMonitorSample g mv s
  | .injectionDurationEnd d => Sys2Proof.Machine.execInjectionDurationEnd d s
  | .heartbeatSend => Sys2Proof.Machine.execHeartbeatSend s
  | .heartbeatHeard msg => Sys2Proof.Machine.execHeartbeatHeard msg s
  | .pairSymbolTimeout tx => Sys2Proof.Machine.execPairSymbolTimeout tx s
  | .partnerSilent => Sys2Proof.Machine.execPartnerSilent s
  | .handbackDelay => Sys2Proof.Machine.execHandbackDelay s
  | .dmaReadCompletion slot data => Sys2Proof.Machine.execDmaReadCompletion slot data s
  | .flashOperationEnd slot ok data => Sys2Proof.Machine.execFlashOperationEnd slot ok data s
  | .bar0Usable => Sys2Proof.Machine.execBar0Usable s
  | .serialFalseStart p taps => Sys2Proof.Machine.execSerialFalseStart p taps s
  | .pairAliveInChange level => Sys2Proof.Machine.execPairAliveInChange level s
  | .cbIrqNRelease line => Sys2Proof.Machine.execCbIrqNRelease line s
  | .vaonRemoved => Sys2Proof.Machine.execVaonRemoved s

end Sys2Proof.Machine
end

