-- ==== Sys2Proof/Machine/Tick.lean ====
section
/-! DEFINITION. A tick of TB: the clock moves, and what the spec has happen at every tick happens (03_time_base.md R63); and a period of SL
in harbour watch (16_reset_power_pairing.md R362). -/

namespace Sys2Proof.Machine

/-- Leash characters that wait for a character boundary leave when it has come (R144, R145). -/
def leashTick (s : State) : State :=
  (List.range 128).foldl (fun s p => if (serial s p).leash.isEmpty then s else leashRun s p (serial s p).leash) s

/-- The endpoints, by kind and number, with copies that have neither started nor missed. -/
def waitingAt (s : State) : List (Nat × Nat) :=
  ((s.lq.copies.filter fun c => !c.missed).map fun c => (lstKind c.w0, lstNum c.w0)).eraseDups

/-- A tick of TB. While the hub works, a far write goes to host memory (R302), outputs take a newer table (R117), Leash characters leave
(R144), and the checks that fall at every tick are made: the hound of each engine that holds a record (R187, R340), and the deadlines of
each endpoint with copies that have neither started nor missed (R340). The order of these within a tick shows only where checks of one
injection meet in it (log 1). -/
def hubTick (s : State) : State :=
  let s := tick s
  if !ticking s then s
  else
    let s := leashTick ((List.range 8).foldl eoTable (reverseTick s))
    let s := (List.range 32).foldl houndCheck s
    (waitingAt s).foldl (fun s e => deadlineCheck s e.1 e.2) s

/-- A period of SL in harbour watch, where the hub counts the time asleep (R362). -/
def slTick (s : State) : State := { s with power := { s.power with slPeriods := s.power.slPeriods + 1 } }

end Sys2Proof.Machine
end

