-- ==== Sys2Proof/Machine/Step.lean ====
section
/-! DEFINITION. One step of the hub: the command at the front of the queue, or a tick of TB. -/

namespace Sys2Proof.Machine

/-- One step: the command at the front of the queue acts on the hub with the rest of the queue. While no command waits, TB ticks
once where it runs, in a hub that has stopped too (R63, R345), a period of SL passes in harbour watch (R362), and the hub idles else (log 1). -/
def step (s : State) : Host.Outcome State Fault Refusal :=
  match s.pending with
  | [] => .next (if tbRuns s then hubTick s else if s.power.phase == .watch then slTick s else s)
  | c :: rest => exec c { s with pending := rest }

/-- The hub with the command that a word spells at the front of its queue: the table gives bits to no row, so a word spells none. -/
def State.withFetchWord (s : State) (nbits w : Nat) : State :=
  match decodeTableWord nbits w with
  | some c => { s with pending := c :: s.pending }
  | none => s

end Sys2Proof.Machine
end

