-- ==== Sys2Proof/Machine/Balls.lean ====
section
/-! DEFINITION. What the hub drives on its balls, read from the state: endpoints (05_event_io.md R119, 06_serial_ports.md R121, R122,
R142, R146, R147, 11_can_ports.md R246, 14_repeater_panels.md R309, 16_reset_power_pairing.md R351, R367), the bridge
(13_cabinet_bus.md R289) and the VID balls (R351). -/

namespace Sys2Proof.Machine

/-- What an output does: nothing, a level, or the levels of the characters or frames in progress. -/
inductive Drive where
  | highZ
  | low
  | high
  | sending
  deriving DecidableEq, Repr

/-- A level driven. -/
def Drive.level (up : Bool) : Drive := if up then .high else .low

/-- EOm: the level of the pulse at the ball, and the inactive level between pulses; high-impedance while the output is disabled or not
owned (R119, R120). -/
def eoBall (s : State) (m : Nat) : Drive :=
  if !(portEn s 4 m && owns s (epOut m)) then .highZ
  else
    match (evOut s m).active.find? (fun p => decide (p.leadAt ≤ tbTime s) && decide (tbTime s < p.trailAt)) with
    | some p => .level p.high
    | none => .level (regB s (Reg.eoCtrl m) 30)

/-- A serial port drives its line: enabled and owned, or still completing the character that PORT_DISABLE found in its shifter (R122,
R142). -/
def spDrives (s : State) (p : Nat) : Bool :=
  owns s (epSerial p) && (portEn s 0 p || decide (tbTime s < (serial s p).freeAt))

/-- TXD of a serial port: idle high between characters, high-impedance while the port is disabled or not owned (R122). -/
def txdBall (s : State) (p : Nat) : Drive :=
  if !spDrives s p then .highZ
  else
    let v := serial s p
    match v.run with
    | some r => if decide (tbTime s < r.startAt) || r.pause.isSome then .high else .sending
    | none => if tbTime s < v.freeAt then .sending else .high

/-- The state as it will be some ticks later if nothing happens. -/
def later (s : State) (ticks : Nat) : State :=
  let step : Int := (2 ^ 40 : Nat) + (reg s Reg.rate).toInt
  setTime s { s.time with tb := s.time.tb + ticks, clk := (((s.time.clk : Int) + step * ticks) % (clkMod : Int)).toNat }

/-- DE of a serial port (R121, R146, R147): in full duplex and raw mode asserted while the port drives its line; in half duplex from SP_DE.LEAD
µs before an attempt to SP_DE.LAG µs after one that succeeded. Low otherwise, and high-impedance with every ball while the hub is held in
reset (R351). -/
def deBall (s : State) (p : Nat) : Drive :=
  let v := serial s p
  let lead := regF s (Reg.spDe p) 9 0 * Config.tickUs
  let lag : Int := (regF s (Reg.spDe p) 25 16 * Config.tickUs * 262144 : Nat)
  if !powered s then .highZ
  else if !spDrives s p then .low
  else if spMode s p != 1 then .high
  else
    let t := later s lead
    let due := attemptDue t p && v.staged.all fun it => (txPlace t p it).2.isSome
    .level (v.run.isSome || (v.lag && decide (tbTime s < v.freeAt + lag)) || due)

/-- CNn_TXD: recessive while the port is disabled or integrating and whenever nothing is sent; the ACK bit and error flags that a controller
sends leave as outputs of their own (R246). -/
def canBall (s : State) (n : Nat) : Drive :=
  if !alive s then .highZ
  else if isWedged s (unitOf 1 n) then .high
  else if (can s n).mode == .active && (can s n).attempt != .none then .sending else .high

/-- The three balls of a panel port carry its link while it is enabled and owned, and are high-impedance otherwise (R309, R325). -/
def panelBalls (s : State) (n : Nat) : Drive := if portEn s 5 n && owns s (epPanel n) then .sending else .highZ

/-- CB_A, CB_AS_N, CB_DS_N and CB_WR: the hub drives them while the bridge is enabled and no far master owns the bus (R289). -/
def bridgeDrives (s : State) : Bool := bridgeEn s && s.bridge.grantTb.isNone

/-- CB_DTACK_N and CB_BERR_N, toward a far master that owns the bus (R289). -/
def bridgeAnswers (s : State) : Bool := bridgeEn s && s.bridge.grantTb.isSome

/-- CB_BGNT_N, low while a far master owns the bus, and CB_LOCK_N, low during a locked sequence: high-impedance with the bridge (R289). -/
def grantBall (s : State) : Drive := if bridgeEn s then .level s.bridge.grantTb.isNone else .highZ
def lockBall (s : State) : Drive := if bridgeEn s then .level s.bridge.rmw.isNone else .highZ

/-- The VID balls carry the code in force, high-impedance from the taking of a reset to its release (R351). -/
def vidBalls (s : State) : Option Nat := if s.power.vidOn then some (regF s Reg.vidStatus 3 0) else none

end Sys2Proof.Machine
end

