-- ==== Sys2Proof/Safety.lean ====
section
/-! DEFINITION. What the statements call sound: memories in canonical form, and runs that no fault and no refusal ends. -/

namespace Sys2Proof.Machine

/-- The checked memories are in canonical form: addresses rise strictly, and no listed word equals what an unlisted address reads
as. -/
def Memory.wf (s : State) : Bool :=
  swf (memDefault .kennel) s.kennel && swf (memDefault .scratch) s.scratch && swf (memDefault .slots) s.slots
    && swf (memDefault .prog) s.prog && swf (memDefault .routes) s.routes && swf (memDefault .lsts) s.lsts
    && swf (memDefault .sets) s.sets && swf (memDefault .talkers) s.talkers && swf (memDefault .pool) s.pool

/-- The register file is in canonical form: offsets rise strictly, and no listed register holds its reset value. -/
def Registers.wf (s : State) : Bool := srising s.regs && s.regs.all (fun e => decide (e.2 ≠ regReset e.1))

/-- The commands that wait are well-formed. -/
def Queue.wf (s : State) : Bool := s.pending.all Instr.wf

/-- A run of n steps that neither faults nor refuses. -/
def SafeRun (n : Nat) (s : State) : Prop := ∃ t, Sys2Proof.core.run n s = .next t

/-- The hub runs, every clock that it needs is present, and the host can reach it. -/
def Running (s : State) : Bool := ticking s && bar0Ok s && hostMem s

/-! ## The terms of the statements about commands of the host -/

/-- The registers of the rings and of messages, which an entry that is written may change. -/
def ringReg (off : Nat) : Prop := 0x1400 ≤ off ∧ off < 0x2C20

/-- Every register but those listed holds in t what it holds in s. -/
def SameRegs (s t : State) (offs : List Nat) : Prop := ∀ off, off ∉ offs → reg t off = reg s off

/-- As SameRegs, the registers of the rings aside: for commands that write an event or a completion. -/
def SameBut (s t : State) (offs : List Nat) : Prop := ∀ off, ¬ringReg off → off ∉ offs → reg t off = reg s off

/-- Detector d has fired once more in t than in s (R330). -/
def FiredOnce (s t : State) (d : Nat) : Prop :=
  total t (Reg.detCount d) 0 = (total s (Reg.detCount d) 0 + 1) % 2 ^ 32
    ∧ (reg t (Reg.detCount d)).toNat = min ((reg s (Reg.detCount d)).toNat + 1) 0xFFFFFFFF

/-- An offset whose register a write changes by its access type alone: no write of it sets anything else off (R5). -/
def plainReg (off : Nat) : Bool :=
  within off 0x8000 0x800 || within off 0x8A00 0x27600 || within off 0x40000 0x10080 || within off 0x50180 0xFE80
    || within off 0x70000 0x8000

/-- An offset whose read clears RC fields and does nothing else (R34): neither CMD_ACCEPT, SP_STATUS, SP_DATA, CN_STATUS, a level, the
ply count, HOST_ERRORS, CB_FW_PREF_DISCARD nor a checked panel setting. -/
def plainRead (off : Nat) : Bool :=
  !(within off 0x1000 0x400 || (within off 0x10000 0x20000 && (off % 0x400 == 0x40 || off % 0x400 == 0x44))
    || (within off 0x30000 0x8000 && off % 0x1000 == 0x40) || within off 0x60100 256 || (panelWordAt off).isSome
    || [Reg.kennelLow, Reg.inflight, Reg.lqPoolLow, Reg.packPliesLo, Reg.packPliesHi, Reg.hostErrors].contains off)

/-! ## The terms of the statements about engines (R169 to R176, R190 to R195) -/

/-- No injection is armed, and no re-fetch of a bank word is in progress: what a check finds is what lies in the memory. -/
def Quiet (s : State) : Prop := s.integ.arms = [] ∧ s.pack.refetch = [] ∧ s.pack.passes = []

/-- Engine e can execute, it waits for no word and no re-parse, its next word is the good word w of opcode op, and its budget has room for c
plies. -/
def NyRuns (s : State) (e : Nat) (w : Word) (op : NyOp) (c : Nat) : Prop :=
  Quiet s ∧ (engReady s e = true ∧ (engine s e).waitTb = none ∧ (engine s e).reload = false) ∧ memGet s .prog (engAddr s e) = memFresh w
    ∧ (nyDecode w).op = op ∧ (engine s e).plies + c ≤ (engine s e).budget

/-- The hub after an instruction of c plies that changes only the engine: the plies counted, the PC behind the word, and what f makes
of the engine. -/
def nyAfter (s : State) (e c : Nat) (f : Engine → Engine) : State :=
  let g := engine s e
  let g := { g with plies := g.plies + c, pc := (g.pc + 1) % 32768, judged := false }
  { s with pack := { s.pack with plies := s.pack.plies + c, engines := sset Engine.init s.pack.engines e (f g) } }

/-- The payload of the record that engine e holds is good in the Kennel. -/
def PayloadGood (s : State) (e : Nat) : Prop :=
  ∀ k, k < 12 + ceilDiv (engLen s e) 4 → memGood (memGet s .kennel (4 * (engRec s e).gran + k)) = true

/-- Bytes lo to lo + n − 1 of the payload of the record that engine e holds; those past LENGTH read 0 (R200). -/
def payload (s : State) (e lo n : Nat) : List Byte :=
  (List.range n).map fun i =>
    if lo + i < engLen s e then
      (wordBytes (memWord s .kennel (4 * (engRec s e).gran + 12 + (lo + i) / 4))).getD ((lo + i) % 4) 0
    else 0

/-- Field f of the record that engine e holds is recorded, its index word is good, and its text is t (R199, R202). -/
def FieldIs (s : State) (e f : Nat) (t : List Byte) : Prop :=
  ∃ m, (engine s e).fields[f]? = some m ∧ memGood m = true ∧ payload s e (fld (memData m) 24 16) (fld (memData m) 8 0) = t

/-- Byte i of the literal pool of the record's bank, behind the program (R173, R195); the store is addressed modulo its size. -/
def poolByte (s : State) (e i : Nat) : Byte :=
  let bank := (engine s e).bank
  let b := (4 * regF s (Reg.bankSize bank) 15 0 + i) % 131072
  (wordBytes (memWord s .prog (32768 * bank + b / 4))).getD (b % 4) 0

/-- The pool word that byte i lies in is good. -/
def PoolGood (s : State) (e i : Nat) : Prop :=
  let bank := (engine s e).bank
  memGood (memGet s .prog (32768 * bank + (4 * regF s (Reg.bankSize bank) 15 0 + i) % 131072 / 4)) = true

/-- The pool string at an offset is t, and its words are good (R195). -/
def PoolString (s : State) (e off : Nat) (t : List Byte) : Prop :=
  (poolByte s e off).toNat = t.length ∧ (∀ i, i < t.length → poolByte s e (off + 1 + i) = t.getD i 0)
    ∧ ∀ i, i ≤ t.length → PoolGood s e (off + i)

end Sys2Proof.Machine
end

