-- ==== Sys2Proof/Certificates/Slice0/Obligations.lean ====
section
/-! DEFINITION. The statements about the hub that are to be proved. -/

open Sys2Proof Sys2Proof.Machine

/-! ## Engines: Nymsa (09_nymsa_reference.md) -/

/-- R194, R206: each arithmetic instruction writes Wd with its result on A and B, or U for the bitwise ones, sets its flags, and changes
nothing else: of the engine only the plies counted and the PC, of the hub only the count of plies. Z and N follow the result v; C after ADD
is the carry out of bit 31, after SUB and CMP it is 1 when A is below B as unsigned numbers; V is signed overflow; every flag that is not
named keeps its value. -/
def Obligations.NymsaArithmeticResults : Prop :=
  (∀ (s : State) (e : Fin 32) (w : Word),
     let a := wreg s e (fA w)
     let b := operandB w (wreg s e (fld w 16 13))
     let u := operandU w (wreg s e (fld w 16 13))
     let n := b.toNat % 32
     let r := if bit b 5 then a.sshiftRight n else a >>> n
     let lo := if a.toInt ≤ b.toInt then a else b
     let hi := if a.toInt ≤ b.toInt then b else a
     let p := a.toInt * b.toInt
     let go (c : Nat) (v : Word) (f : BitVec 16 → BitVec 16) : State :=
       nyAfter s e c fun g => { g with w := g.w.set (fD w) v, flags := f g.flags }
     (NyRuns s e w .add 1 → exec (.add e) s = .next (go 1 (a + b) (fun f => flagsAdd f a b)))
     ∧ (NyRuns s e w .sub 1 → exec (.sub e) s = .next (go 1 (a - b) (fun f => flagsSub f a b)))
     ∧ (NyRuns s e w .mul 2 → exec (.mul e) s = .next (go 2 (a * b) (fun f => flagsZNV f (a * b) (decide (p < -2 ^ 31 ∨ 2 ^ 31 ≤ p)))))
     ∧ (NyRuns s e w .andW 1 → exec (.andW e) s = .next (go 1 (a &&& u) (fun f => flagsZN f (a &&& u))))
     ∧ (NyRuns s e w .orW 1 → exec (.orW e) s = .next (go 1 (a ||| u) (fun f => flagsZN f (a ||| u))))
     ∧ (NyRuns s e w .xorW 1 → exec (.xorW e) s = .next (go 1 (a ^^^ u) (fun f => flagsZN f (a ^^^ u))))
     ∧ (NyRuns s e w .shl 1 → exec (.shl e) s =
         .next (go 1 (a <<< n) (fun f => flagsShift f (a <<< n) (decide (n ≠ 0) && a.getLsbD (32 - n)))))
     ∧ (NyRuns s e w .shr 1 → exec (.shr e) s = .next (go 1 r (fun f => flagsShift f r (decide (n ≠ 0) && a.getLsbD (n - 1)))))
     ∧ (NyRuns s e w .minW 1 → exec (.minW e) s = .next (go 1 lo (fun f => flagsZN f lo)))
     ∧ (NyRuns s e w .maxW 1 → exec (.maxW e) s = .next (go 1 hi (fun f => flagsZN f hi))))
  ∧ (∀ (f : BitVec 16) (a b v : Word) (x : Bool),
      (∀ i, (flagsAdd f a b).getLsbD i =
        if i = 0 then a + b == 0 else if i = 1 then (a + b).msb else if i = 2 then decide (2 ^ 32 ≤ a.toNat + b.toNat)
        else if i = 3 then decide (a.toInt + b.toInt < -2 ^ 31 ∨ 2 ^ 31 ≤ a.toInt + b.toInt) else f.getLsbD i)
      ∧ (∀ i, (flagsSub f a b).getLsbD i =
        if i = 0 then a == b else if i = 1 then (a - b).msb else if i = 2 then decide (a.toNat < b.toNat)
        else if i = 3 then decide (a.toInt - b.toInt < -2 ^ 31 ∨ 2 ^ 31 ≤ a.toInt - b.toInt) else f.getLsbD i)
      ∧ (∀ i, (flagsZN f v).getLsbD i = if i = 0 then v == 0 else if i = 1 then v.msb else f.getLsbD i)
      ∧ (∀ i, (flagsZNV f v x).getLsbD i = if i = 0 then v == 0 else if i = 1 then v.msb else if i = 3 then x else f.getLsbD i)
      ∧ (∀ i, (flagsShift f v x).getLsbD i = if i = 0 then v == 0 else if i = 1 then v.msb else if i = 2 then x else f.getLsbD i))

/-- R206, R208: CMP sets the flags of A − B and writes no register; MOV writes A; LDI writes K sign-extended, or the good pool word at
bits [16:0]; nothing else changes. -/
def Obligations.NymsaMoves : Prop :=
  ∀ (s : State) (e : Fin 32) (w : Word),
    let a := wreg s e (fA w)
    let b := operandB w (wreg s e (fld w 16 13))
    let go (v : Word) : State := nyAfter s e 1 fun g => { g with w := g.w.set (fD w) v, flags := flagsZN g.flags v }
    (NyRuns s e w .cmp 1 → exec (.cmp e) s = .next (nyAfter s e 1 fun g => { g with flags := flagsSub g.flags a b }))
    ∧ (NyRuns s e w .mov 1 → exec (.mov e) s = .next (go a))
    ∧ (NyRuns s e w .ldi 1 → bit w 17 = true → exec (.ldi e) s = .next (go (BitVec.ofInt 32 (sext 17 (fld w 16 0)))))
    ∧ (NyRuns s e w .ldi 1 → bit w 17 = false →
        ∀ p, poolAddrs s (engine s e).bank (fld w 16 0) 0 1 = [p] → memGood (memGet s .prog p) = true →
          exec (.ldi e) s = .next (go (memWord s .prog p)))

/-- R207: MULQ multiplies A by Wb to a signed product, SCALE multiplies A by the pool word M, both shift right with 2^(q−1) added, SCALE
adds the pool word O; the result is limited to 32 bits, V says whether it was, and Z and N follow it. -/
def Obligations.NymsaScaling : Prop :=
  ∀ (s : State) (e : Fin 32) (w : Word),
    let a := (wreg s e (fA w)).toInt
    let half (q : Nat) : Int := if q = 0 then 0 else 2 ^ (q - 1)
    let limit (i : Int) : Int := max (-2 ^ 31) (min (2 ^ 31 - 1) i)
    let go (c : Nat) (i : Int) : State := nyAfter s e c fun g =>
      { g with w := g.w.set (fD w) (BitVec.ofInt 32 (limit i)), flags := flagsZNV g.flags (BitVec.ofInt 32 (limit i)) (decide (limit i ≠ i)) }
    (NyRuns s e w .mulq 2 →
      let q := fld w 4 0
      exec (.mulq e) s = .next (go 2 ((a * (wreg s e (fld w 16 13)).toInt + half q) / 2 ^ q)))
    ∧ (NyRuns s e w .scale 3 →
      ∀ p0 p1 p2, poolAddrs s (engine s e).bank ((operandU w (wreg s e (fld w 16 13))).toNat % 131072) 0 3 = [p0, p1, p2] →
        (∀ p ∈ [p0, p1, p2], memGood (memGet s .prog p) = true) →
        let q := fld (memWord s .prog p1) 4 0
        exec (.scale e) s =
          .next (go 3 ((a * (memWord s .prog p0).toInt + half q) / 2 ^ q + (memWord s .prog p2).toInt)))

/-- R196, R197, R198: the control instructions write the PC, the return stack or the budget as their rows say, and nothing else. -/
def Obligations.NymsaControl : Prop :=
  ∀ (s : State) (e : Fin 32) (w : Word),
    let target := (operandU w (wreg s e (fld w 16 13))).toNat % 2 ^ 15
    let g0 := engine s e
    let next := (g0.pc + 1) % 32768
    let d := fD w
    let flag (i : Nat) : Bool := g0.flags.getLsbD i
    let holds : Bool :=
      if d = 0 then flag 0 else if d = 1 then !flag 0 else if d = 2 then flag 1 != flag 3 else if d = 3 then flag 1 == flag 3
      else if d = 4 then flag 0 || flag 1 != flag 3 else if d = 5 then !flag 0 && flag 1 == flag 3
      else if d = 6 then flag 2 else if d = 7 then !flag 2 else if d = 8 then flag 1 else if d = 9 then !flag 1
      else if d = 10 then flag 4 else if d = 11 then !flag 4 else if d = 12 then flag 6 else if d = 13 then !flag 6
      else if d = 14 then flag 5 else flag 8
    let u := (operandU w (wreg s e (fld w 16 13))).toNat
    let budget := if u ≤ 65535 then min g0.budget u else g0.budget
    let left := BitVec.ofNat 32 (budget - (g0.plies + 1))
    ((NyRuns s e w .nop 1 ∨ NyRuns s e w .unassigned 1) → exec (.nop e) s = .next (nyAfter s e 1 id))
    ∧ (NyRuns s e w .br 1 → exec (.br e) s = .next (nyAfter s e 1 fun g => { g with pc := target }))
    ∧ (NyRuns s e w .brc 1 → exec (.brc e) s = .next (nyAfter s e 1 fun g => { g with pc := if holds then target else next }))
    ∧ (NyRuns s e w .call 1 → exec (.call e) s = .next (nyAfter s e 1 fun g =>
        { g with pc := target, stack := (g0.stack.drop (g0.stack.length - 7)) ++ [next] }))
    ∧ (NyRuns s e w .ret 1 → exec (.ret e) s = .next (nyAfter s e 1 fun g =>
        { g with pc := (g0.stack.getLast?).getD 32767, stack := g0.stack.dropLast }))
    ∧ (NyRuns s e w .budget 1 → exec (.budget e) s = .next (nyAfter s e 1 fun g =>
        { g with budget := budget, w := g.w.set d left, flags := flagSet g.flags 0 (left == 0) }))

/-- R194, R200, R201: the text instructions read the good payload of the record through the cursor, which stays within LENGTH, write Wd
and the flags that their rows name, EOT exactly when the cursor equals LENGTH, and nothing else. -/
def Obligations.NymsaText : Prop :=
  ∀ (s : State) (e : Fin 32) (w : Word),
    let g0 := engine s e
    let len := engLen s e
    let start := engStartOff s e
    let star := engStar s e
    let sentence : Bool := recType s (engRec s e) == 0
    let u := (operandU w (wreg s e (fld w 16 13))).toNat
    let b := (operandB w (wreg s e (fld w 16 13))).toInt
    let eot (f : BitVec 16) (c : Nat) : BitVec 16 := flagSet f 5 (c == len)
    let at_ := min (if bit w 17 = true ∧ u = 0x1FFFF then g0.cursor else u) len
    let to_ := min ((g0.cursor : Int) + b).toNat len
    let byte : Word := ((payload s e g0.cursor 1).getD 0 0).setWidth 32
    let chars (c : Nat) (v : Word) : State := nyAfter s e c fun g =>
      { g with w := g.w.set (fD w) v, flags := flagSet (flagSet g.flags 0 (v == 0)) 6 (!sentence) }
    let talk : Word := if sentence then BitVec.ofNat 32 (beNat (payload s e (start + 1) 2)) else 0
    let fmt : Word := if sentence then BitVec.ofNat 32 (beNat (payload s e (start + 3) 3)) else 0
    let chk (c : Nat) (x : Nat) (m bad : Bool) : State := nyAfter s e c fun g =>
      { g with w := g.w.set (fD w) (BitVec.ofNat 32 x), flags := flagSet (flagSet (flagSet g.flags 4 m) 6 bad) 0 (x == 0) }
    let sum := xorBytes (payload s e (start + 1) (star - (start + 1)))
    let digits := payload s e (star + 1) 2
    let cost := 1 + ceilDiv (star - start) 16
    (NyRuns s e w .cur 1 → exec (.cur e) s = .next (nyAfter s e 1 fun g =>
      { g with w := g.w.set (fD w) (BitVec.ofNat 32 g0.cursor), cursor := at_, flags := eot g.flags at_ }))
    ∧ (NyRuns s e w .skip 1 → exec (.skip e) s = .next (nyAfter s e 1 fun g => { g with cursor := to_, flags := eot g.flags to_ }))
    ∧ (PayloadGood s e →
      (NyRuns s e w .getc 1 → exec (.getc e) s = .next (nyAfter s e 1 fun g =>
        { g with
          w := g.w.set (fD w) byte, cursor := min (g0.cursor + 1) len,
          flags := eot (flagsZN g.flags byte) (min (g0.cursor + 1) len) }))
      ∧ (NyRuns s e w .talk 1 → exec (.talk e) s = .next (chars 1 talk))
      ∧ (NyRuns s e w .fmt 1 → exec (.fmt e) s = .next (chars 1 fmt))
      ∧ (NyRuns s e w .chk 1 → (sentence = false ∨ star = 0x1FF) → exec (.chk e) s = .next (chk 1 0 false true))
      ∧ (NyRuns s e w .chk cost → sentence = true → star ≠ 0x1FF → start < star →
        exec (.chk e) s = .next (match hexPair (digits.getD 0 0) (digits.getD 1 0) with
          | none => chk cost sum false true
          | some v => chk cost sum (v == sum) false)))

/-- R199, R200: NEXTF finds the next field from the cursor, records it under the next free number where fewer than 64 are recorded,
and moves the cursor behind it; MATCH compares the pool string at U with the payload at the cursor. Nothing else changes. -/
def Obligations.NymsaFields : Prop :=
  ∀ (s : State) (e : Fin 32) (w : Word),
    PayloadGood s e →
    let g0 := engine s e
    let len := engLen s e
    let rest := payload s e g0.cursor (len - g0.cursor)
    let ends (c : Byte) : Bool := c == 0x2A#8 || c == 0x0D#8 || c == 0x0A#8
    let none_ := rest.headD 0x2A#8
    let skip := if rest.headD 0 = 0x24#8 ∨ rest.headD 0 = 0x21#8 ∨ rest.headD 0 = 0x2C#8 then 1 else 0
    let n := ((rest.drop skip).takeWhile fun c => !(c == 0x2C#8 || ends c)).length
    let p := g0.cursor + skip
    let off := (operandU w (wreg s e (fld w 16 13))).toNat % 131072
    (NyRuns s e w .nextf 2 → g0.cursor ≤ len → ends none_ = true →
      exec (.nextf e) s = .next (nyAfter s e 2 fun g =>
        { g with
          w := g.w.set (fD w) 0,
          flags := flagSet (flagSet (flagSet g.flags 6 true) 0 true) 5 (g0.cursor == len) }))
    ∧ (NyRuns s e w .nextf 2 → g0.cursor ≤ len → ends none_ = false →
      exec (.nextf e) s = .next (nyAfter s e 2 fun g =>
        { g with
          w := g.w.set (fD w) (BitVec.ofNat 32 n), cursor := p + n,
          fields := if g.fields.length < 64 then g.fields ++ [memFresh (BitVec.ofNat 32 (p * 65536 + n))] else g.fields,
          flags := flagSet (flagSet (flagSet g.flags 6 false) 0 (n == 0)) 5 (p + n == len) }))
    ∧ (∀ t, PoolString s e off t → NyRuns s e w .matchText (1 + ceilDiv t.length 8) →
      let m : Bool := t.isEmpty || decide (g0.cursor + t.length ≤ len) && payload s e g0.cursor t.length == t
      exec (.match e) s = .next (nyAfter s e (1 + ceilDiv t.length 8) fun g =>
        { g with
          w := g.w.set (fD w) (BitVec.ofNat 32 (b2n m)), flags := flagSet (flagSet g.flags 4 m) 0 (!m) }))

/-- R202 to R205. On a good payload, and good index words of field F and of the two behind it, a parsing instruction completes: where F is
not recorded, is empty, or is malformed, or where a further field that it reads is not recorded, it gives 0 with BAD, with Z only for an
empty field and N and V clear; else it gives the value of the text with BAD clear, Z and, where its row names them, N and V following it.
Nothing else changes. The values: PDEC accepts the texts of R203 and no others and gives the value times 2^q to the nearest, ties away from
zero, limited to 32 bits with V; PLAT and PLON accept the texts of R204 and no others and give 10^-7 degree to the nearest, negated for S
and W; PHEX, PTIME and PDATE give the values of their digits within the ranges of R205. -/
def Obligations.NymsaParsing : Prop :=
  (∀ (s : State) (e : Fin 32) (w : Word),
    let f := (operandU w (wreg s e (fld w 16 13))).toNat % 64
    let text (k : Nat) : Option (List Byte) :=
      ((engine s e).fields[f + k]?).map fun m => payload s e (fld (memData m) 24 16) (fld (memData m) 8 0)
    let flags (n v : Bool) (fl : BitVec 16) (z neg past bad : Bool) : BitVec 16 :=
      let fl := flagSet (flagSet fl 0 z) 6 bad
      let fl := if n then flagSet fl 1 neg else fl
      if v then flagSet fl 3 past else fl
    let ws (g : Engine) (x : Word) (frac : Option Word) : List Word :=
      match frac with
      | some y => (g.w.set ((fD w + 1) % 16) y).set (fD w) x
      | none => g.w.set (fD w) x
    let fails (c : Nat) (n v : Bool) (frac : Option Word) : State := nyAfter s e c fun g =>
      { g with w := ws g 0 frac, flags := flags n v g.flags (text 0 == some []) false false true }
    let gives (c : Nat) (n v : Bool) (x : Word) (past : Bool) (frac : Option Word) : State := nyAfter s e c fun g =>
      { g with w := ws g x frac, flags := flags n v g.flags (x == 0) x.msb past false }
    let outcome (c : Nat) (n v : Bool) (r : Option (Word × Bool)) : State :=
      match r with
      | some (x, past) => gives c n v x past none
      | none => fails c n v none
    let angle (n : Nat) (pos neg : Byte) (limit : Nat) : Option (Word × Bool) :=
      match text 0, text 1 with
      | some (c :: cs), some h => (parseAngle n (c :: cs) h pos neg limit).map fun v => (BitVec.ofInt 32 v, false)
      | _, _ => none
    PayloadGood s e → (∀ k m, k < 3 → (engine s e).fields[f + k]? = some m → memGood m = true) →
    (NyRuns s e w .pdec 2 → exec (.pdec e) s = .next (outcome 2 true true (match text 0 with
      | some (c :: cs) => (parseDecimal (c :: cs) (fld w 10 6)).map fun r => (BitVec.ofInt 32 r.1, r.2)
      | _ => none)))
    ∧ (NyRuns s e w .plat 4 → exec (.plat e) s = .next (outcome 4 true false (angle 2 0x4E#8 0x53#8 900000000)))
    ∧ (NyRuns s e w .plon 4 → exec (.plon e) s = .next (outcome 4 true false (angle 3 0x45#8 0x57#8 1800000000)))
    ∧ (NyRuns s e w .phex 2 → exec (.phex e) s = .next (outcome 2 true false (match text 0 with
      | some (c :: cs) => if 8 < (c :: cs).length then none else (hexVal (c :: cs)).map fun v => (BitVec.ofNat 32 v, false)
      | _ => none)))
    ∧ (NyRuns s e w .pchr 1 → exec (.pchr e) s = .next (outcome 1 false false (match text 0 with
      | some (c :: _) => some (c.setWidth 32, false)
      | _ => none)))
    ∧ (NyRuns s e w .ptime 3 → exec (.ptime e) s = .next (match text 0 with
      | some (c :: cs) => (match parseTime (c :: cs) with
        | some (sec, ns) => gives 3 false false (BitVec.ofNat 32 sec) false (some (BitVec.ofNat 32 ns))
        | none => fails 3 false false (some 0))
      | _ => fails 3 false false (some 0)))
    ∧ (NyRuns s e w .pdate 4 → exec (.pdate e) s = .next (outcome 4 false false
      (if bit w 6 then
        (match text 0, text 1, text 2 with
        | some (c :: cs), some m, some y => (parseDate3 (c :: cs) m y).map fun v => (BitVec.ofNat 32 v, false)
        | _, _, _ => none)
      else
        (match text 0 with
        | some (c :: cs) => (parseDate6 (c :: cs)).map fun v => (BitVec.ofNat 32 v, false)
        | _ => none)))))
  ∧ (let digits (cs : List Byte) : Prop := ∀ c ∈ cs, 48 ≤ c.toNat ∧ c.toNat ≤ 57
     let val (cs : List Byte) : Nat := Nat.ofDigits 10 (cs.reverse.map fun c => c.toNat - 48)
     let point (cs : List Byte) : List Byte := if cs = [] then [] else 0x2E#8 :: cs
     (∀ (sg ip fp : List Byte) (pt : Bool) (q m : Nat), sg ∈ [[], [0x2B#8], [0x2D#8]] → digits (ip ++ fp) → ip ++ fp ≠ [] →
        (pt = false → fp = []) → (sg ++ ip ++ (if pt then 0x2E#8 :: fp else [])).length ≤ 20 →
        2 * m * 10 ^ fp.length ≤ 2 * val (ip ++ fp) * 2 ^ q + 10 ^ fp.length →
        2 * val (ip ++ fp) * 2 ^ q + 10 ^ fp.length < 2 * (m + 1) * 10 ^ fp.length →
        let v : Int := if sg = [0x2D#8] then -(m : Int) else m
        parseDecimal (sg ++ ip ++ (if pt then 0x2E#8 :: fp else [])) q
          = some (max (-2 ^ 31) (min (2 ^ 31 - 1) v), decide (v < -2 ^ 31 ∨ 2 ^ 31 ≤ v)))
     ∧ (∀ t q, parseDecimal t q ≠ none → t.length ≤ 20 ∧ ∃ sg ip fp pt, sg ∈ [[], [0x2B#8], [0x2D#8]] ∧ digits (ip ++ fp)
        ∧ ip ++ fp ≠ [] ∧ (pt = false → fp = []) ∧ t = sg ++ ip ++ (if pt then 0x2E#8 :: fp else []))
     ∧ (∀ (n : Nat) (dg mi fr h : List Byte) (pos neg : Byte) (limit m : Nat), digits (dg ++ mi ++ fr) → dg.length = n → mi.length = 2 →
        fr.length ≤ 8 →
        2 * m * (60 * 10 ^ fr.length) ≤ 2 * ((60 * val dg + val mi) * 10 ^ fr.length + val fr) * 10 ^ 7 + 60 * 10 ^ fr.length →
        2 * ((60 * val dg + val mi) * 10 ^ fr.length + val fr) * 10 ^ 7 + 60 * 10 ^ fr.length < 2 * (m + 1) * (60 * 10 ^ fr.length) →
        parseAngle n (dg ++ mi ++ point fr) h pos neg limit =
          if 60 ≤ val mi ∨ limit < m then none
          else if h = [pos] then some (m : Int) else if h = [neg] then some (-(m : Int)) else none)
     ∧ (∀ n t h pos neg limit, parseAngle n t h pos neg limit ≠ none → ∃ dg mi fr, digits (dg ++ mi ++ fr) ∧ dg.length = n ∧ mi.length = 2
        ∧ fr.length ≤ 8 ∧ t = dg ++ mi ++ point fr)
     ∧ (∀ t, (∀ c ∈ t, hexOf c ≠ none) → hexVal t = some (Nat.ofDigits 16 (t.reverse.map fun c => (hexOf c).getD 0)))
     ∧ (∀ t, (∃ c ∈ t, hexOf c = none) → hexVal t = none)
     ∧ (∀ hh mm ss fr : List Byte, digits (hh ++ mm ++ ss ++ fr) → hh.length = 2 → mm.length = 2 → ss.length = 2 → fr.length ≤ 9 →
        parseTime (hh ++ mm ++ ss ++ point fr) =
          if val hh ≤ 23 ∧ val mm ≤ 59 ∧ val ss ≤ 60 then
            some (val hh * 3600 + val mm * 60 + val ss, val fr * 10 ^ (9 - fr.length))
          else none)
     ∧ (∀ t, parseTime t ≠ none → ∃ hh mm ss fr, digits (hh ++ mm ++ ss ++ fr) ∧ hh.length = 2 ∧ mm.length = 2 ∧ ss.length = 2
        ∧ fr.length ≤ 9 ∧ t = hh ++ mm ++ ss ++ point fr)
     ∧ (∀ dd mm yy : List Byte, digits (dd ++ mm ++ yy) → dd.length = 2 → mm.length = 2 → yy.length = 2 →
        parseDate6 (dd ++ mm ++ yy) = dayNumber (val dd) (val mm) (if val yy ≤ 69 then 2000 + val yy else 1900 + val yy))
     ∧ (∀ t, parseDate6 t ≠ none → t.length = 6 ∧ digits t)
     ∧ (∀ dd mm yy : List Byte, digits (dd ++ mm ++ yy) → dd.length = 2 → mm.length = 2 → yy.length = 4 →
        parseDate3 dd mm yy = dayNumber (val dd) (val mm) (val yy))
     ∧ (∀ dd mm yy, parseDate3 dd mm yy ≠ none → digits (dd ++ mm ++ yy) ∧ dd.length = 2 ∧ mm.length = 2 ∧ yy.length = 4)
     ∧ (∀ d m y : Nat,
        let leap : Bool := y % 4 == 0 && (y % 100 != 0 || y % 400 == 0)
        let last := if m = 2 then (if leap then 29 else 28) else if m ∈ [4, 6, 9, 11] then 30 else 31
        let before := [0, 31, 59, 90, 120, 151, 181, 212, 243, 273, 304, 334].getD (m - 1) 0 + (if leap = true ∧ 2 < m then 1 else 0)
        dayNumber d m y =
          if 1970 ≤ y ∧ y ≤ 2099 ∧ 1 ≤ m ∧ m ≤ 12 ∧ 1 ≤ d ∧ d ≤ last then some (365 * (y - 1970) + (y - 1969) / 4 + before + (d - 1))
          else none))

/-- R209: TLK reads word U[3:0] of talker entry Wa[11:0], RT route entry U[8:0] of the record's bank, LDS the scratch word at A + B, each
good; STS writes the scratch word at A + B, and every other word of every memory stays. Addresses of scratch are taken modulo 16 384,
each engine in its own scratch. -/
def Obligations.NymsaTables : Prop :=
  ∀ (s : State) (e : Fin 32) (w : Word),
    let a := wreg s e (fA w)
    let u := (operandU w (wreg s e (fld w 16 13))).toNat
    let addr := (a + operandB w (wreg s e (fld w 16 13))).toNat
    let cell := 4096 * e.val + addr % 16384 / 4
    let talker := 16 * (a.toNat % 4096) + u % 16
    let route := 512 * (engine s e).bank + u % 512
    let go (c : Nat) (v : Word) : State := nyAfter s e c fun g => { g with w := g.w.set (fD w) v, flags := flagsZN g.flags v }
    (NyRuns s e w .tlk 2 → memGood (memGet s .talkers talker) = true → exec (.tlk e) s = .next (go 2 (memWord s .talkers talker)))
    ∧ (NyRuns s e w .rt 1 → memGood (memGet s .routes route) = true → exec (.rt e) s = .next (go 1 (memWord s .routes route)))
    ∧ (NyRuns s e w .lds 1 → memGood (memGet s .scratch cell) = true → exec (.lds e) s = .next (go 1 (memWord s .scratch cell)))
    ∧ (NyRuns s e w .sts 1 → ∃ t, exec (.sts e) s = .next t ∧ t = { nyAfter s e 1 id with scratch := t.scratch }
        ∧ ∀ m k, memGet t m k = if m = .scratch ∧ k = cell then memFresh (wreg s e (fD w)) else memGet s m k)

/-- R210: SLOTW writes the twelve scratch words at U, FIRST of the record with EPOCH and STAMP_LOST, and the next sequence number, which
skips 0, into slot Wa[11:0], and nothing into any other slot; SLOTR copies the value words of a slot that is not empty into scratch and
gives its sequence number; an empty slot gives 0 with BAD, and scratch stays. The words read are good. -/
def Obligations.NymsaSlots : Prop :=
  ∀ (s : State) (e : Fin 32) (w : Word),
    let slot := (wreg s e (fA w)).toNat % 4096
    let u := (operandU w (wreg s e (fld w 16 13))).toNat
    let cell (k : Nat) : Nat := 4096 * e.val + (u + 4 * k) % 16384 / 4
    let head (k : Nat) : Nat := 4 * (engRec s e).gran + k
    let first := wordsStamp (memWord s .kennel (head 3)) (memWord s .kennel (head 4)) (memWord s .kennel (head 5))
    let epoch := fld (memWord s .kennel (head 0)) 27 24
    let seq := fld (memWord s .slots (16 * slot + 15)) 31 16
    let lost := b2n (bit (memWord s .kennel (head 0)) 23)
    (NyRuns s e w .slotw 3 → (engine s e).rebuild = none → (∀ k, k < 12 → memGood (memGet s .scratch (cell k)) = true) →
      (∀ k, k < 6 → memGood (memGet s .kennel (head k)) = true) →
      ∃ t, exec (.slotw e) s = .next t
        ∧ t = { nyAfter s e 3 (fun g => { g with effect := true }) with slots := t.slots }
        ∧ (∀ k, k < 12 → memWord t .slots (16 * slot + k) = memWord s .scratch (cell k))
        ∧ memWord t .slots (16 * slot + 12) = BitVec.ofNat 32 (lost * 2 ^ 31 + epoch * 65536 + stSec first / 2 ^ 32 % 65536)
        ∧ memWord t .slots (16 * slot + 13) = BitVec.ofNat 32 (stSec first)
        ∧ memWord t .slots (16 * slot + 14) = BitVec.ofNat 32 (stNs first)
        ∧ memWord t .slots (16 * slot + 15) = BitVec.ofNat 32 ((if seq = 65535 then 1 else seq + 1) * 65536 + stFrac first)
        ∧ ∀ a, a / 16 ≠ slot → memGet t .slots a = memGet s .slots a)
    ∧ (NyRuns s e w .slotr 3 → (∀ k, k < 16 → memGood (memGet s .slots (16 * slot + k)) = true) →
      (seq = 0 → exec (.slotr e) s = .next (nyAfter s e 3 fun g =>
        { g with w := g.w.set (fD w) 0, flags := flagSet (flagSet g.flags 0 true) 6 true }))
      ∧ (seq ≠ 0 → ∃ t, exec (.slotr e) s = .next t
        ∧ t = { nyAfter s e 3 (fun g =>
            { g with w := g.w.set (fD w) (BitVec.ofNat 32 seq), flags := flagSet (flagSet g.flags 0 false) 6 false }) with
          scratch := t.scratch }
        ∧ (∀ k, k < 12 → memWord t .scratch (cell k) = memWord s .slots (16 * slot + k))
        ∧ ∀ a, (∀ k, k < 12 → a ≠ cell k) → memGet t .scratch a = memGet s .scratch a))

/-- R211, R212: TSA and TSE read FIRST and END of the record as U[1:0] selects and set BAD to STAMP_LOST, TNOW reads the clock, TDIFF the
limited difference of two short stamps; a TIMESET is refused with 1 in the follower role and with 2 for a record whose stamp is lost,
and otherwise hands the count and FIRST to the time core. -/
def Obligations.NymsaTime : Prop :=
  ∀ (s : State) (e : Fin 32) (w : Word),
    let d := fD w
    let pair (g : Engine) (a b : Word) : List Word := (g.w.set d a).set ((d + 1) % 16) b
    let head (k : Nat) : Nat := 4 * (engRec s e).gran + k
    let stamp (k : Nat) : Stamp := wordsStamp (memWord s .kennel (head k)) (memWord s .kennel (head (k + 1))) (memWord s .kennel (head (k + 2)))
    let lost := bit (memWord s .kennel (head 0)) 23
    let epoch := fld (memWord s .kennel (head 0)) 27 24
    let sel := (operandU w (wreg s e (fld w 16 13))).toNat % 4
    let ws (g : Engine) (t : Stamp) : List Word :=
      if sel = 1 then g.w.set d (BitVec.ofNat 32 (b2n lost * 2 ^ 31 + epoch * 65536 + stSec t / 2 ^ 32 % 65536))
      else if sel = 2 then g.w.set d (BitVec.ofNat 32 (stFrac t)) else pair g (shortSec t) (shortNs t)
    let got (k : Nat) : State := nyAfter s e 1 fun g => { g with w := ws g (stamp k), flags := flagSet g.flags 6 lost }
    let b := fld w 16 13
    let diff := dDiff (wreg s e (fA w)) (wreg s e ((fA w + 1) % 16)) (wreg s e b) (wreg s e ((b + 1) % 16))
    let limited := max (-2 ^ 31) (min (2 ^ 31 - 1) diff)
    let told (x : Nat) : State := nyAfter s e 2 fun g =>
      { g with w := g.w.set d (BitVec.ofNat 32 x), flags := flagSet g.flags 8 (x != 0), effect := true }
    ((∀ k, k < 9 → memGood (memGet s .kennel (head k)) = true) →
      (NyRuns s e w .tsa 1 → exec (.tsa e) s = .next (got 3)) ∧ (NyRuns s e w .tse 1 → exec (.tse e) s = .next (got 6)))
    ∧ (NyRuns s e w .tnow 1 → exec (.tnow e) s = .next (nyAfter s e 1 fun g => { g with w := pair g (shortSec (now s)) (shortNs (now s)) }))
    ∧ (NyRuns s e w .tdiff 2 → exec (.tdiff e) s = .next (nyAfter s e 2 fun g =>
        { g with
          w := g.w.set d (BitVec.ofInt 32 limited), flags := flagsZNV g.flags (BitVec.ofInt 32 limited) (decide (limited ≠ diff)) }))
    ∧ (NyRuns s e w .timeset 2 → (engine s e).rebuild = none →
      (isReference s = false → exec (.timeset e) s = .next (told 1))
      ∧ (isReference s = true → (∀ k, k < 9 → memGood (memGet s .kennel (head k)) = true) → lost = true →
        exec (.timeset e) s = .next (told 2))
      ∧ (isReference s = true → (∀ k, k < 9 → memGood (memGet s .kennel (head k)) = true) → lost = false →
        let m := timeset (nyAfter s e 2 fun g => { g with effect := true }) (wreg s e (fA w)).toNat
          ⟨stamp 3, epoch, (engRec s e).steps⟩
        exec (.timeset e) s =
          .next (setEngine m e { engine m e with w := (engine m e).w.set d 0, flags := flagSet (engine m e).flags 8 false })))

/-- R213, R214, R216: PUTC, PUTS, PUTF, PUTRAW and PUTB append their bytes to the open item and clear REF; with no item open, or where
the item would pass 1 024 bytes, or where the field of PUTF is not recorded, they append nothing and set REF. Nothing else changes. -/
def Obligations.NymsaAppend : Prop :=
  ∀ (s : State) (e : Fin 32) (w : Word),
    let a := wreg s e (fA w)
    let u := (operandU w (wreg s e (fld w 16 13))).toNat
    let appended (c : Nat) (bs : List Byte) : State := nyAfter s e c fun g =>
      match g.item with
      | none => { g with flags := flagSet g.flags 8 true }
      | some i =>
        if 1024 < i.body.length + bs.length then { g with flags := flagSet g.flags 8 true }
        else { g with item := some { i with body := i.body ++ bs }, flags := flagSet (flagSet g.flags 7 true) 8 false }
    let sum := ((engine s e).item.map fun i => runningSum i.body).getD 0
    let n := if 1 ≤ u % 8 ∧ u % 8 ≤ 4 then u % 8 else 4
    let cell (k : Nat) : Nat := 4096 * e.val + (a.toNat + k) % 16384 / 4
    let raw := (List.range u).map fun k => (wordBytes (memWord s .scratch (cell k))).getD ((a.toNat + k) % 4) 0
    (NyRuns s e w .putc 1 →
      exec (.putc e) s = .next (appended 1 (if u / 256 % 2 = 1 then hexByte sum else [BitVec.ofNat 8 u])))
    ∧ (∀ t, PoolString s e (u % 131072) t → NyRuns s e w .puts (1 + ceilDiv t.length 8) →
      exec (.puts e) s = .next (appended (1 + ceilDiv t.length 8) t))
    ∧ (∀ t, bit w 17 = true → PayloadGood s e → FieldIs s e (fld w 5 0) t → NyRuns s e w .putf (1 + ceilDiv t.length 8) →
      exec (.putf e) s = .next (appended (1 + ceilDiv t.length 8) t))
    ∧ (bit w 17 = true → (engine s e).fields.length ≤ fld w 5 0 → NyRuns s e w .putf 1 →
      exec (.putf e) s = .next (nyAfter s e 1 fun g => { g with flags := flagSet g.flags 8 true }))
    ∧ (bit w 17 = false → NyRuns s e w .putf 2 → exec (.putf e) s = .next (appended 2 (formatQ a.toInt (fld w 12 0))))
    ∧ ((∀ k, k < u → memGood (memGet s .scratch (cell k)) = true) → NyRuns s e w .putraw (1 + ceilDiv (min u 1024) 8) →
      exec (.putraw e) s = .next (appended (1 + ceilDiv (min u 1024) 8) raw))
    ∧ (NyRuns s e w .putb 1 → exec (.putb e) s =
        .next (appended 1 (if u / 8 % 2 = 1 then ((wordBytes a).take n).reverse else (wordBytes a).take n)))

/-- R213, R215, R217, R218, R219: OPEN creates an item with its set, priority and deadline and is refused while one is open; OPGN, LAUNCH
and TAG write the CAN identifier, the launch time and the TAG settings of the open item and are refused without one; LAUNCH with U[3]
queues a pulse on an event output, and is refused where the output is disabled or has 16 targets pending; a target that it accepts sets no
REF, late or not. -/
def Obligations.NymsaItem : Prop :=
  ∀ (s : State) (e : Fin 32) (w : Word),
    let a := wreg s e (fA w)
    let a1 := wreg s e ((fA w + 1) % 16)
    let u := (operandU w (wreg s e (fld w 16 13))).toNat
    let ref (c : Nat) : State := nyAfter s e c fun g => { g with flags := flagSet g.flags 8 true }
    let put (c : Nat) (i : Item) : State := nyAfter s e c fun g =>
      { g with item := some i, flags := flagSet (flagSet g.flags 7 true) 8 false }
    let ident : Word := if u / 4096 % 2 = 1 then a else BitVec.ofNat 32 (2 ^ 29 + u % 8 * 2 ^ 26 + a.toNat % 2 ^ 18 * 256 + u / 8 % 256)
    let base := nyAfter s e 1 fun g => { g with effect := true }
    let queued := eoQueue base (u % 8) a a1 ((wreg s e ((fA w + 2) % 16)).setWidth 16)
    let off := a.toNat % 131072
    (NyRuns s e w .openItem 2 → (engine s e).item = none → exec (.openItem e) s = .next (put 2
      { set := u % 512, prio := u / 512 % 8, deadline := a, body := [], launch := none, notag := false, src := none, can := none,
        openSeq := s.lq.enSeq }))
    ∧ (NyRuns s e w .openItem 2 → (engine s e).item ≠ none → exec (.openItem e) s = .next (ref 2))
    ∧ (NyRuns s e w .opgn 1 → (engine s e).item = none → exec (.opgn e) s = .next (ref 1))
    ∧ (∀ i, NyRuns s e w .opgn 1 → (engine s e).item = some i →
      exec (.opgn e) s = .next (put 1 { i with can := some (ident, BitVec.ofNat 32 (u % 8192)) }))
    ∧ (NyRuns s e w .launch 1 → u / 8 % 2 = 0 → (engine s e).item = none → exec (.launch e) s = .next (ref 1))
    ∧ (∀ i, NyRuns s e w .launch 1 → u / 8 % 2 = 0 → (engine s e).item = some i →
      exec (.launch e) s = .next (put 1 { i with launch := some (a, a1) }))
    ∧ (NyRuns s e w .launch 1 → u / 8 % 2 = 1 → (engine s e).rebuild = none → portEn s 4 (u % 8) = false →
      exec (.launch e) s = .next (nyAfter s e 1 fun g => { g with effect := true, flags := flagSet g.flags 8 true }))
    ∧ (NyRuns s e w .launch 1 → u / 8 % 2 = 1 → (engine s e).rebuild = none → portEn s 4 (u % 8) = true →
      (evOut s (u % 8)).closing = none →
      (16 ≤ (evOut s (u % 8)).queue.length → exec (.launch e) s =
        .next (count (nyAfter s e 1 fun g => { g with effect := true, flags := flagSet g.flags 8 true }) (Reg.eoCounts (u % 8)) 15 8 1))
      ∧ ((evOut s (u % 8)).queue.length < 16 → exec (.launch e) s = .next (setEngine queued.1 e
          { engine queued.1 e with flags := flagSet (engine queued.1 e).flags 8 false })))
    ∧ (NyRuns s e w .tagItem 1 → (engine s e).item = none → exec (.tagItem e) s = .next (ref 1))
    ∧ (∀ i, NyRuns s e w .tagItem 1 → (engine s e).item = some i → u / 2 % 2 = 0 →
      exec (.tagItem e) s = .next (put 1 { i with notag := u % 2 == 1, src := none }))
    ∧ (∀ i t, NyRuns s e w .tagItem 1 → (engine s e).item = some i → u / 2 % 2 = 1 → PoolString s e off t →
      exec (.tagItem e) s = .next (put 1 { i with notag := u % 2 == 1, src := some (t.take 15) }))

/-- R214, R225, R227: CLOSE gives Wd the number of listeners in the item's set, hands a copy of the item for each of them, ascending, to
the copier, and leaves no item open; with no item open it is refused and Wd is 0. The words of the set and of the entries are good. -/
def Obligations.NymsaClose : Prop :=
  ∀ (s : State) (e : Fin 32) (w : Word) (i : Item),
    NyRuns s e w .close 2 →
    ((engine s e).item = none → exec (.close e) s = .next (nyAfter s e 2 fun g =>
      { g with w := g.w.set (fD w) 0, effect := true, flags := flagSet g.flags 8 true }))
    ∧ ((engine s e).item = some i → (engine s e).rebuild = none →
      (∀ k, k < 9 → memGood (memGet s .kennel (4 * (engRec s e).gran + k)) = true) →
      (∀ m a, m = .sets ∨ m = .lsts → memGood (memGet s m a) = true) →
      let bank := (engine s e).bank
      let head (k : Nat) : Word := memWord s .kennel (4 * (engRec s e).gran + k)
      let edge : Edge := ⟨wordsStamp (head 3) (head 4) (head 5), fld (head 0) 27 24, (engRec s e).steps⟩
      let members := (List.range 1024).filter fun n => bit (memWord s .sets (setAddr bank i.set (n / 32))) (n % 32)
      let entry (n : Nat) : Nat × Word × Word × List Byte :=
        (n, memWord s .lsts (lstAddr bank n 0), memWord s .lsts (lstAddr bank n 1),
          srcOf ([4, 5, 6, 7].map fun k => memWord s .lsts (lstAddr bank n k)))
      let base := nyAfter s e 2 fun g => { g with closes := g.closes + 1, effect := true, item := none, flags := flagSet g.flags 7 false }
      let t := copyItem base (itemCopy (nyAfter s e 2 id) e i edge) i.src i.openSeq (members.map entry)
      exec (.close e) s = .next (setEngine t e
        { engine t e with
          w := (engine t e).w.set (fD w) (BitVec.ofNat 32 members.length), flags := flagSet (engine t e).flags 8 false }))

/-- R220, R221, R334: COUNT adds 1, or A where U[6] is 1, to its program counter; EVENT copies the record, header words and payload, to host
ring U[3:0], or counts it as lost where the ring has no room; ACKSTAT takes the character of a serial port and clears the flags that it
returns; PANEL requests a region of a panel port, or gives 2 with REF where it cannot. In a rebuild run the instructions that would act
outside the engine only cost their plies and report success. -/
def Obligations.NymsaHousekeeping : Prop :=
  (∀ (s : State) (e : Fin 32) (w : Word), (engine s e).rebuild = none →
     let a := wreg s e (fA w)
     let u := (operandU w (wreg s e (fld w 16 13))).toNat
     let base (c : Nat) : State := nyAfter s e c fun g => { g with effect := true }
     let flag (t : State) (r : Bool) : State := setEngine t e { engine t e with flags := flagSet (engine t e).flags 8 r }
     let give (t : State) (v : Word) : State := setEngine t e { engine t e with w := (engine t e).w.set (fD w) v }
     let len := engLen s e
     let words := (List.range (12 + ceilDiv len 4)).map fun k => memWord s .kennel (4 * (engRec s e).gran + k)
     let acked := ackstat (base 2) (u % 128)
     let region := u / 8 % 32
     let asked := panelRequest (base 2) (u % 8) region .bindings none
     (NyRuns s e w .count 1 → exec (.count e) s =
         .next (count (base 1) (Reg.progCount (u % 64)) 31 0 (if u / 64 % 2 = 1 then a.toNat else 1)))
     ∧ (NyRuns s e w .event 2 → PayloadGood s e → hrRoom s (u % 16) (48 + len) = true → exec (.event e) s =
         .next (flag (hrWrite (base 2) (u % 16) 2 0 (bit (words.getD 0 0) 22) ((wordsBytes words).take (48 + len))) false))
     ∧ (NyRuns s e w .event 2 → hrRoom s (u % 16) (48 + len) = false → exec (.event e) s =
         .next (flag (count (base 2) Reg.progEvtLost 15 0 1) true))
     ∧ (NyRuns s e w .ackstat 2 → exec (.ackstat e) s = .next (give acked.1 acked.2))
     ∧ (NyRuns s e w .panel 2 → asked.2 = true → exec (.panel e) s =
         .next (flag (give asked.1 (BitVec.ofNat 32 (b2n ((panel s (u % 8)).reqs.any fun q => q.region == region)))) false))
     ∧ (NyRuns s e w .panel 2 → asked.2 = false → exec (.panel e) s = .next (flag (give asked.1 2#32) true)))
  ∧ (∀ (s : State) (e : Fin 32) (w : Word), (engine s e).rebuild ≠ none →
       let ok (c : Nat) : State := nyAfter s e c fun g => { g with flags := flagSet g.flags 8 false }
       (NyRuns s e w .slotw 3 → exec (.slotw e) s = .next (nyAfter s e 3 id))
       ∧ (NyRuns s e w .count 1 → exec (.count e) s = .next (nyAfter s e 1 id))
       ∧ (NyRuns s e w .event 2 → exec (.event e) s = .next (ok 2))
       ∧ (NyRuns s e w .ackstat 2 → exec (.ackstat e) s = .next (nyAfter s e 2 fun g => { g with w := g.w.set (fD w) 0 }))
       ∧ (NyRuns s e w .timeset 2 → exec (.timeset e) s =
           .next (nyAfter s e 2 fun g => { g with w := g.w.set (fD w) 0, flags := flagSet g.flags 8 false }))
       ∧ (NyRuns s e w .panel 2 → exec (.panel e) s =
           .next (nyAfter s e 2 fun g => { g with w := g.w.set (fD w) 0, flags := flagSet g.flags 8 false }))
       ∧ (NyRuns s e w .launch 1 → (operandU w (wreg s e (fld w 16 13))).toNat / 8 % 2 = 1 → exec (.launch e) s = .next (ok 1)))

/-- R155, R164, R172: END and DROP end the record: the engine holds no record and no item, the record lets its granules go, its talker's USE
falls by them and its ply bucket is charged where it has one; END with an item open counts it as discarded. Every other engine, and every
memory but the talker table, stays. The words read of the talker's entry are good. -/
def Obligations.NymsaEnds : Prop :=
  ∀ (s : State) (e : Fin 32) (w : Word) (r : Rec),
    (engine s e).recd = some r → (engine s e).rebuild = none →
    memGood (memGet s .talkers (16 * r.talker + 8)) = true → memGood (memGet s .talkers (16 * r.talker + 10)) = true →
    let plies := (engine s e).plies + 1
    let charged : Word := if fld (talkW s r.talker 5) 15 0 = 0 then talkW s r.talker 10
      else BitVec.ofInt 32 (max (-2 ^ 31) ((talkW s r.talker 10).toInt - plies))
    let ended (t : State) : Prop :=
      (engine t e).recd = none ∧ (engine t e).item = none ∧ (∀ k, k ≠ e.val → engine t k = engine s k)
      ∧ t.herder.runs = s.herder.runs.eraseP (fun x => x.1 == r.gran)
      ∧ talkW t r.talker 8 = BitVec.ofNat 32 (fld (talkW s r.talker 8) 16 0 - r.count) ∧ talkW t r.talker 10 = charged
      ∧ ∀ m a, m ≠ .talkers → memGet t m a = memGet s m a
    (NyRuns s e w .endRecord 1 → ∃ t, exec (.endRecord e) s = .next t ∧ ended t
      ∧ total t Reg.packCounts 0 =
          if (engine s e).item = none then total s Reg.packCounts 0 else (total s Reg.packCounts 0 + 1) % 2 ^ 32)
    ∧ (NyRuns s e w .drop 1 → ∃ t, exec (.drop e) s = .next t ∧ ended t ∧ total t Reg.packCounts 0 = total s Reg.packCounts 0)

/-! ## The queue and the clock -/

/-- The command at the front of the queue acts on the hub with the rest of the queue. -/
def Obligations.StepRunsFrontCommand : Prop :=
  ∀ (s : State) (c : Instr) (rest : List Instr), step { s with pending := c :: rest } = exec c { s with pending := rest }

/-- R63, R64, R345: while no command waits and TB runs, in a hub that has stopped too, one step is one TB tick: the clock gains 4 ns and RATE
in units of 2^-38 ns, modulo 2^48 s, RATE being RATE_SET while RATE_SRC is 1. Nothing else changes in a hub that has stopped, nor in one
with no injection armed, no far write queued, no Leash character waiting and every event output on its newest table; while neither TB runs
nor the hub is in harbour watch nothing changes. That the tick is what a step does on an empty queue is the model's choice (log 1). -/
def Obligations.ClockTick : Prop :=
  ∀ s : State, s.pending = [] →
    let rate := if bit (reg s Reg.timeCtrl) 0 then reg s Reg.rateSet else s.time.rateNext
    (tbRuns s = false → s.power.phase ≠ .watch → step s = .next s)
    ∧ (tbRuns s = true → ticking s = false ∨ s.integ.arms = [] → ∃ t, step s = .next t
      ∧ (t.time.clk : Int) = ((s.time.clk : Int) + 2 ^ 40 + rate.toInt) % (2 ^ 48 * 1000000000 * 2 ^ 38)
      ∧ t.time.tb = s.time.tb + 1 ∧ reg t Reg.rate = rate
      ∧ (ticking s = false ∨ (s.bridge.reverse = [] ∧ (∀ p, p < 128 → (serial s p).leash = [])
          ∧ ∀ m, m < 8 → (evOut s m).table = (region s m).newest) →
        t = { s with time := { s.time with clk := t.time.clk, tb := t.time.tb, rateNext := rate }, regs := t.regs, vid := t.vid }
        ∧ ∀ off, off ≠ Reg.rate → reg t off = reg s off)
      ∧ ∀ w ws, ticking s = true → hostMem s = true → s.bridge.reverse = w :: ws →
        t.bridge.reverse = ws ∧ ∃ os, t.out = (dmaWrite s w.1 w.2).out ++ os)

/-- R67, R71: a capture writes the clock of one tick into the snapshot registers and counts SEQ; a write of CMPn_NS loads the held seconds
and the nanoseconds; a write of EN arms the unit; no other register changes. A compare unit whose target is reached sets HIT; with PERIOD 0
it clears EN, and with a period that lies ahead it moves its target by the period, which is at least 1 000 ns; no memory, no port and no
clock changes. -/
def Obligations.TimeRegisters : Prop :=
  (∀ (s : State), bar0Writes s = true →
     let same (t : State) (offs : List Nat) : Prop := ∀ off, off ∉ offs → reg t off = reg s off
     (∃ t, exec .timeLatchCapture s = .next t
       ∧ reg t Reg.timeSnapSecHi = BitVec.ofNat 32 (stSec (now s) / 2 ^ 32) ∧ reg t Reg.timeSnapSecLo = BitVec.ofNat 32 (stSec (now s))
       ∧ reg t Reg.timeSnapNs = BitVec.ofNat 32 (stNs (now s))
       ∧ reg t Reg.timeSnapFrac = BitVec.ofNat 32 (stFrac (now s) + (regF s Reg.timeSnapFrac 31 24 + 1) % 256 * 2 ^ 24)
       ∧ same t [Reg.timeSnapSecHi, Reg.timeSnapSecLo, Reg.timeSnapNs, Reg.timeSnapFrac] ∧ t = { s with regs := t.regs })
     ∧ (∀ (n : Fin 4) (ns : Word), ∃ t, exec (.cmpTargetLoad n ns) s = .next t
       ∧ reg t (Reg.cmpSec n) = (cmpUnit s n).heldSec ∧ reg t (Reg.cmpNs n) = ns &&& 0x3FFFFFFF#32 ∧ (cmpUnit t n).setTb = s.time.tb
       ∧ same t [Reg.cmpSec n, Reg.cmpNs n] ∧ t = { s with regs := t.regs, time := { s.time with cmp := t.time.cmp } })
     ∧ (∀ (n : Fin 4), regB s (Reg.cmpCtrl n) 0 = false → ∃ t, exec (.cmpEnable n) s = .next t
       ∧ regB t (Reg.cmpCtrl n) 0 = true ∧ (cmpUnit t n).setTb = s.time.tb
       ∧ same t [Reg.cmpCtrl n] ∧ t = { s with regs := t.regs, time := { s.time with cmp := t.time.cmp } }))
  ∧ (∀ (s : State) (n : Fin 4),
       ticking s = true → regB s (Reg.cmpCtrl n) 0 = true →
       reached s (reg s (Reg.cmpSec n)) (reg s (Reg.cmpNs n)) (cmpUnit s n).setTb = true →
       let p := (reg s (Reg.cmpPeriod n)).toNat
       let next := shortAdd (reg s (Reg.cmpSec n)) (reg s (Reg.cmpNs n)) (max 1000 p)
       ∃ t, exec (.compareHit n) s = .next t ∧ regB t Reg.cmpStatus n = true
         ∧ (p = 0 → regB t (Reg.cmpCtrl n) 0 = false ∧ reg t (Reg.cmpSec n) = reg s (Reg.cmpSec n) ∧ reg t (Reg.cmpNs n) = reg s (Reg.cmpNs n))
         ∧ (p ≠ 0 → dNow s next.1 next.2 < 0 →
           regB t (Reg.cmpCtrl n) 0 = true ∧ reg t (Reg.cmpSec n) = next.1 ∧ reg t (Reg.cmpNs n) = next.2 ∧ (cmpUnit t n).setTb = s.time.tb)
         ∧ t.time.clk = s.time.clk ∧ t = { s with regs := t.regs, totals := t.totals, evOut := t.evOut, time := t.time })

/-- R63, R72, R80, R92, R95: the first PLL lock after a reset starts TB, and each region's first interval with the settings then in force; a
later one relocks without a step; loss of REFCLK clears LOCKED and is reported; a source silent for HOLD_TIMEOUT puts the servo
into HOLD_SILENT; the window of a waiting TIMESET closes and discards it. -/
def Obligations.TimeEvents : Prop :=
  ∀ (s : State),
    (powered s = true → ∃ t, exec .pllLock s = .next t ∧ regB t Reg.timeStatus 0 = true ∧ SameRegs s t [Reg.timeStatus]
      ∧ t.time = { s.time with locked := true, gridPhase := t.time.gridPhase }
      ∧ t = { s with regs := t.regs, time := t.time, regions := t.regions, freeCount := t.freeCount }
      ∧ (s.time.locked = true → t.regions = s.regions)
      ∧ (s.time.locked = false → ∀ g, g < 8 → (region t g).startTb = s.time.tb
        ∧ (region t g).ctl = reg s Reg.calCtrl ∧ (region t g).target = reg s Reg.calHits ∧ (region t g).hits = 0
        ∧ (region t g).mode = if regB s Reg.calCtrl 31 then .dither else .collect))
    ∧ (powered s = true → regB s Reg.timeStatus 0 = true → ∃ t, exec .refclkLoss s = .next t ∧ regB t Reg.timeStatus 0 = false
      ∧ total t Reg.timeStatus 16 = (total s Reg.timeStatus 16 + 1) % 2 ^ 32
      ∧ total t (Reg.detCount 0x31) 0 = (total s (Reg.detCount 0x31) 0 + 1) % 2 ^ 32 ∧ t.time = s.time)
    ∧ (ticking s = true → servoState s = 3 → holdTicks s ≤ s.time.tb - s.time.sampleTb →
      ∃ t, exec .holdTimeout s = .next t ∧ servoState t = 4
        ∧ total t (Reg.detCount 0x31) 0 = (total s (Reg.detCount 0x31) 0 + 1) % 2 ^ 32 ∧ t.time = s.time)
    ∧ (∀ w : Tod, ticking s = true → s.time.tod = some w → w.pair = none → w.arrival.steps = s.time.steps →
      w.arrival.stamp + pairWindow s + eiWidth s (regF s Reg.servoStatus 20 16) * 4 * 65536 ≤ now s →
      exec .pairWindowClose s = .next (count (setTime s { s.time with tod := none }) Reg.timeDiscards 31 16 1))

/-- R94, R95: in the reference role, a TIMESET paired with its edge gives the offset O; in ACQUIRE and REACQUIRE it steps the clock by −O and
the servo enters TRACK; in TRACK an offset within JUMP_THR is counted as accepted, and one beyond it as refused, with HOLD_REFUSED. -/
def Obligations.TimeOfDayPairing : Prop :=
  ∀ (s : State) (w : Tod) (p : PpsEdge),
    ticking s = true → isReference s = true → s.integ.arms = [] → s.time.tod = some w → w.pair = some p →
    w.arrival.steps = s.time.steps → p.edge.steps = s.time.steps →
    let o : Int := (p.edge.stamp : Int) - ((w.utc : Int) + p.utc) * (1000000000 * 65536)
    ∃ t, exec .todPairing s = .next t ∧ t.time.tod = none
      ∧ ((servoState s = 2 ∨ servoState s = 6) → regB s Reg.timeCtrl 0 = false →
        (t.time.clk : Int) = ((s.time.clk : Int) - o * 2 ^ 22) % (2 ^ 48 * 1000000000 * 2 ^ 38) ∧ t.time.steps = s.time.steps + 1
          ∧ servoState t = 3)
      ∧ (servoState s = 3 → o.natAbs ≤ regF s Reg.jumpThr 29 0 * 65536 →
        t.time.clk = s.time.clk ∧ servoState t = 3 ∧ total t Reg.timeCounts 0 = (total s Reg.timeCounts 0 + 1) % 2 ^ 32)
      ∧ (servoState s = 3 → regF s Reg.jumpThr 29 0 * 65536 < o.natAbs →
        t.time.clk = s.time.clk ∧ servoState t = 5 ∧ total t Reg.timeCounts 16 = (total s Reg.timeCounts 16 + 1) % 2 ^ 32)

/-! ## Checked memories and detectors -/

/-- R18: a memory word stores its data with the XOR of each group of eight data bits; a word is in error when a stored check bit differs
from that XOR; a change is detected exactly when some group, a check bit with its eight data bits, holds an odd number of changed bits. -/
def Obligations.CheckCode : Prop :=
  ∀ (d : Word) (m x : MemWord),
    let xor (k : Nat) (v : Word) : Bool :=
      v.getLsbD k ^^ v.getLsbD (k + 4) ^^ v.getLsbD (k + 8) ^^ v.getLsbD (k + 12) ^^ v.getLsbD (k + 16) ^^ v.getLsbD (k + 20)
        ^^ v.getLsbD (k + 24) ^^ v.getLsbD (k + 28)
    let group (k : Nat) : Nat := ([k, k + 4, k + 8, k + 12, k + 16, k + 20, k + 24, k + 28, k + 32].filter fun i => x.getLsbD i).length
    memData (memFresh d) = d ∧ (∀ k, k < 4 → (memFresh d).getLsbD (32 + k) = xor k d)
    ∧ (memGood m = false ↔ ∃ k, k < 4 ∧ m.getLsbD (32 + k) ≠ xor k (memData m))
    ∧ (memGood (memFresh d ^^^ x) = false ↔ ∃ k, k < 4 ∧ group k % 2 = 1)

/-- R328, R330: a detector that fires is counted; where its mask bit is 0 and no limit applies, an event takes the next number, and its entry
is written where the event ring has room, and counted as lost where it has none. A write of a memory word stores fresh check bits, is read
back as written, leaves every other word of every memory, and keeps the canonical form. -/
def Obligations.DetectorFires : Prop :=
  (∀ (s : State) (d unit d2 d3 : Nat) (inj : Bool),
     let t := fire s d unit d2 d3 inj none
     d < 128 →
     FiredOnce s t d
     ∧ (regB s (Reg.detEvtMask (d / 32)) (d % 32) = true → t.host = s.host ∧ t.out = s.out ∧ t.rings = s.rings)
     ∧ (regB s (Reg.detEvtMask (d / 32)) (d % 32) = false →
       t.host.evSeq = (s.host.evSeq + 1) % 65536 ∧ t.host.ovf = !ringRoom s 1 1
       ∧ (ringRoom s 1 1 = false → t.out = s.out ∧ t.rings = s.rings
         ∧ regF t (ringOff 1 + 20) 15 0 = min (regF s (ringOff 1 + 20) 15 0 + 1) 65535))
     ∧ SameBut s t [Reg.detCount d]
     ∧ t = { s with regs := t.regs, totals := t.totals, host := t.host, rings := t.rings, out := t.out })
  ∧ (∀ (s : State) (m : Mem) (a : Nat) (w : Word),
       memGet (memPut s m a w) m a = memFresh w
       ∧ (∀ n b, (n ≠ m ∨ b ≠ a) → memGet (memPut s m a w) n b = memGet s n b)
       ∧ (Memory.wf s = true → Memory.wf (memPut s m a w) = true)
       ∧ (∀ off, reg (memPut s m a w) off = reg s off))

/-! ## Commands of the host -/

/-- R57, R50: a ring entry is written with all its bytes but the PHASE word first and that word last, in one pass with the phase in
bit 31; TAIL then advances modulo the size, and the phase toggles at the wrap. -/
def Obligations.RingEntries : Prop :=
  ∀ (s : State) (r : Fin 18) (units : Nat) (w : Word) (ws : List Word),
    ringTail s r + units ≤ ringUnits s r → 0 < units → (ring s r).size ≤ 16 →
    let t := ringWrite s r units (w :: ws)
    let a := (ring s r).base + ringTail s r * ringUnit r
    let wraps := decide (ringTail s r + units = ringUnits s r)
    (∃ body, t.out = s.out ++ body ++ dmaChunks 5 a (wordBytes (setFld w 31 31 (b2n (ring s r).phase)))
      ∧ body = dmaChunks ((wordsBytes ws).length + 1) (a + 4) (wordsBytes ws))
    ∧ ringTail t r = (if wraps then 0 else ringTail s r + units)
    ∧ (ring t r).phase = ((ring s r).phase ^^ wraps)
    ∧ SameRegs s t [ringOff r + 16] ∧ t = { s with regs := t.regs, rings := t.rings, out := t.out }

/-- R38, R47, R296: a write to CMD_BUF loads its window; a read of CMD_ACCEPT evaluates the buffer and clears it. An accepted command takes the
slot that has been free the longest; a refused one leaves everything but its window; an accepted DEVICE_RESET takes no slot and is due
from its acceptance. -/
def Obligations.SubmissionWindows : Prop :=
  ∀ (s : State) (w : Fin 8), bar0Ok s = true →
    let ws := windowWords s w
    let reply (v : Nat) : Out := .readReply 0 (Reg.cmdAccept w) (wordBytes (BitVec.ofNat 32 v))
    let cleared (t : State) : Prop :=
      windowWords t w = List.replicate 16 0 ∧ w.val ∉ t.host.loaded
        ∧ ∀ i : Nat, i / 16 ≠ w.val → sget 0 t.host.cmdBuf i = sget 0 s.host.cmdBuf i
    (∀ (k : Fin 16) (data : List Word), postedFull s = false → data ≠ [] → k.val + data.length ≤ 16 → ∃ t, exec (.cmdBufWrite w k data) s = .next t
      ∧ w.val ∈ t.host.loaded
      ∧ (∀ i, sget 0 t.host.cmdBuf i =
          if 16 * w.val + k ≤ i ∧ i < 16 * w.val + k + data.length then data.getD (i - (16 * w + k)) 0 else sget 0 s.host.cmdBuf i)
      ∧ t = { s with host := { s.host with cmdBuf := t.host.cmdBuf, loaded := t.host.loaded } })
    ∧ (∀ (k : Fin 16) (data : List Word), postedFull s = false → (data = [] ∨ 16 < k.val + data.length) →
        exec (.cmdBufWrite w k data) s = .next (count s Reg.hostErrors 15 0 1))
    ∧ (refusal s w ≠ 0 → ∃ t, exec (.cmdAccept w) s = .next t ∧ t.out = s.out ++ [reply (refusal s w)] ∧ cleared t
      ∧ t = { s with out := t.out, host := { s.host with cmdBuf := t.host.cmdBuf, loaded := t.host.loaded } })
    ∧ (refusal s w = 0 → fld (ws.getD 0 0) 7 0 ≠ 0x01 → ∃ slot rest t, s.host.free = slot :: rest ∧ exec (.cmdAccept w) s = .next t
      ∧ cleared t ∧ t.host.free = rest
      ∧ (∃ c, t.host.cmds = s.host.cmds ++ [c] ∧ c.slot = slot ∧ c.words = ws ∧ c.phase = .accepted
        ∧ t.out = s.out ++ [reply (c.gen * 256 + slot)])
      ∧ SameRegs s t [])
    ∧ (refusal s w = 0 → fld (ws.getD 0 0) 7 0 = 0x01 → ∃ t, exec (.deviceReset w) s = .next t ∧ exec (.cmdAccept w) s = .next t
      ∧ t.out = s.out ++ [reply 0xFFFF] ∧ cleared t ∧ t.host.resetAt = some (s.host.resetAt.getD s.time.tb)
      ∧ t.host.free = s.host.free ∧ t.host.cmds = s.host.cmds ∧ SameRegs s t [])

/-- R41: a handle is generation × 256 + slot; a slot's first handle after reset carries generation 1, and each later one the generation
that follows its last, with 255 followed by 1; no handle has generation 0. -/
def Obligations.Handles : Prop :=
  ∀ (s : State) (slot : Nat) (rest : List Nat) (words : List Word), s.host.free = slot :: rest → slot < 256 →
    let t := (allocate s words).1
    let handle := (allocate s words).2
    let gen := sget 0 s.host.gens slot
    handle % 256 = slot ∧ handle / 256 = sget 0 t.host.gens slot
    ∧ (gen = 0 → sget 0 t.host.gens slot = 1) ∧ (1 ≤ gen → gen < 255 → sget 0 t.host.gens slot = gen + 1)
    ∧ (gen = 255 → sget 0 t.host.gens slot = 1) ∧ 1 ≤ handle / 256 ∧ handle / 256 ≤ 255
    ∧ (∀ k, k ≠ slot → sget 0 t.host.gens k = sget 0 s.host.gens k) ∧ ∀ k, sget 0 State.reset.host.gens k = 0

/-- R43: the code of a refusal, the first that applies in the order EMPTY, NOT_ENABLED, BAD_OPCODE, MALFORMED, BOOT_BUSY, NO_SLOT. -/
def Obligations.AcceptanceChecks : Prop :=
  ∀ (s : State) (w : Fin 8),
    let g (k : Nat) : Word := sget 0 s.host.cmdBuf (16 * w + k)
    let op := fld (g 0) 7 0
    let empty := w.val ∉ s.host.loaded
    let disabled := regB s Reg.hostCtrl 0 = false ∨ ringEn s 0 = false ∨ (s.integ.stopped = true ∧ op ≠ 0x01)
    let bad := op ∉ catalogue
    let busy := bootBusy s = true ∧ (op = 0x10 ∨ op = 0x11 ∨ (op = 0x12 ∧ fld (g 1) 7 0 < 3) ∨ op = 0x80 ∨ op = 0x81 ∨ op = 0x82)
    (empty → refusal s w = 5) ∧ (¬empty → disabled → refusal s w = 4) ∧ (¬empty → ¬disabled → bad → refusal s w = 2)
    ∧ (¬empty → ¬disabled → ¬bad →
      (op = 0x01 → g 1 ≠ 0x5E5E#32 → refusal s w = 3)
      ∧ ((op = 0x20 ∨ op = 0x21 ∨ op = 0x22) → portCount (fld (g 1) 15 12) ≤ fld (g 1) 6 0 → refusal s w = 3)
      ∧ ((op = 0x12 ∨ op = 0x13) → 4 < fld (g 1) 7 0 → refusal s w = 3)
      ∧ (op = 0x30 → 1000000000 ≤ (g 2).toInt.natAbs → refusal s w = 3)
      ∧ (op = 0x31 → ((g 2).toNat < 10 ∨ 1000000000 < (g 2).toNat) → refusal s w = 3)
      ∧ ((op = 0x00 ∨ op = 0x11 ∨ op = 0x23 ∨ op = 0x24 ∨ op = 0x25 ∨ op = 0x32 ∨ op = 0x33 ∨ op = 0x40 ∨ op = 0x51 ∨ op = 0x61) →
        (busy → refusal s w = 6) ∧ (¬busy → s.host.free = [] → refusal s w = 1) ∧ (¬busy → s.host.free ≠ [] → refusal s w = 0)))

/-- R44, R51: NOP completes; the completion entry is written and the slot freed where the ring has room, and held behind those already
held where it has none; held completions are written in finishing order while there is room. -/
def Obligations.CommandCompletion : Prop :=
  ∀ (s : State) (k : Fin 256) (c : HostCmd),
    let kept (t : State) : Prop := SameBut s t [] ∧ t.time = s.time
    (cmdReady s k 0x00 = some c →
      let a := (ring s 0).base + ringTail s 0 * 16
      let e := dmaWrite (dmaWrite s (a + 4) (wordsBytes [0, BitVec.ofNat 32 (stSec (now s)), BitVec.ofNat 32 (stNs (now s))])) a
        (wordBytes (setFld (BitVec.ofNat 32 (c.gen * 256 + k)) 31 31 (b2n (ring s 0).phase)))
      ∃ t, exec (.nopCommand k) s = .next t ∧ kept t
      ∧ t.host.cmds = s.host.cmds.filter (fun d => d.slot != k.val) ∧ cmdAt t k = none
      ∧ (s.host.held = [] → ringRoom s 0 1 = true →
        t.host.free = s.host.free ++ [k.val] ∧ t.host.held = [] ∧ ∃ m, t.out = e.out ++ m ∧ m.length ≤ 1)
      ∧ ((s.host.held ≠ [] ∨ ringRoom s 0 1 = false) →
        t.host.free = s.host.free ∧ t.out = s.out ∧ ∃ h, t.host.held = s.host.held ++ [h] ∧ h.slot = k.val ∧ h.handle = c.gen * 256 + k
          ∧ h.status = 0))
    ∧ (alive s = true → s.host.held ≠ [] → ∃ t n, exec .heldCompletionFlush s = .next t ∧ kept t
      ∧ t.host.held = s.host.held.drop n ∧ t.host.free = s.host.free ++ (s.host.held.take n).map (·.slot)
      ∧ (t.host.held = [] ∨ ringRoom t 0 1 = false))

/-- R50, R58: a write of CTRL takes up base and size at EN 0 to 1; a write of HEAD stores its value modulo the size; the moderation timer and
an unmask issue the ring's or the vector's message, as a pending bit where the vector is masked. -/
def Obligations.RingCommands : Prop :=
  ∀ (s : State),
    let sent (v : Nat) : Out := .msix v ((reg s (Reg.msixTable v 1)).toNat * 2 ^ 32 + (reg s (Reg.msixTable v 0)).toNat) (reg s (Reg.msixTable v 2))
    (∀ (r : Fin 18) (v : Word), bar0Writes s = true → ∃ t, exec (.ringEnable r v) s = .next t
      ∧ reg t (ringOff r + 8) = v &&& 0x9F1FFFFF#32
      ∧ (ringEn s r = false → bit v 31 = true → ringHead t r = 0 ∧ ringTail t r = 0 ∧ (ring t r).phase = true
        ∧ (ring t r).base = (reg s (ringOff r + 4)).toNat * 2 ^ 32 + regF s (ringOff r) 31 12 * 4096
        ∧ (ring t r).size = max (if r.val = 0 then 8 else 6) (min 16 (fld v 20 16)))
      ∧ ((ringEn s r = true ∨ bit v 31 = false) → ringHead t r = ringHead s r ∧ ringTail t r = ringTail s r ∧ t.rings = s.rings)
      ∧ SameRegs s t [ringOff r + 8, ringOff r + 12, ringOff r + 16] ∧ t = { s with regs := t.regs, rings := t.rings })
    ∧ (∀ (r : Fin 18) (v : Word), bar0Writes s = true → ∃ t, exec (.ringHeadWrite r v) s = .next t
      ∧ ringHead t r = fld v 15 0 % 2 ^ ringSizeNow s r ∧ SameRegs s t [ringOff r + 12] ∧ t = { s with regs := t.regs })
    ∧ (∀ (r : Fin 18), ticking s = true → (ring s r).unann ≠ 0 → regF s (ringOff r + 8) 7 0 ≠ 0 →
      regF s (ringOff r + 8) 7 0 * 250 ≤ s.time.tb - (ring s r).firstTb →
      let v := regF s (ringOff r + 8) 28 24
      ∃ t, exec (.ringModerationTimer r) s = .next t ∧ (ring t r).unann = 0
      ∧ (s.host.msix = true → regB s (Reg.msixTable v 3) 0 = false → hostMem s = true → t.out = s.out ++ [sent v])
      ∧ (s.host.msix = true → regB s (Reg.msixTable v 3) 0 = true → t.out = s.out ∧ regB t Reg.msixPba v = true)
      ∧ SameRegs s t [Reg.msixPba] ∧ t = { s with regs := t.regs, rings := t.rings, out := t.out })
    ∧ (∀ (v : Fin 32), bar0Writes s = true → ∃ t, exec (.msixUnmask v) s = .next t ∧ regB t (Reg.msixTable v 3) 0 = false
      ∧ (regB s Reg.msixPba v = true → s.host.msix = true → hostMem s = true →
        t.out = s.out ++ [sent v] ∧ regB t Reg.msixPba v = false)
      ∧ (regB s Reg.msixPba v = false → t.out = s.out)
      ∧ (∀ i, i ≠ v.val → regB t Reg.msixPba i = regB s Reg.msixPba i)
      ∧ SameRegs s t [Reg.msixTable v 3, Reg.msixPba] ∧ t = { s with regs := t.regs, out := t.out })

/-- R5, R6, R32, R34, R296, R338: a write of a register that sets nothing else off takes its RW fields and clears the W1C bits that it names;
a read answers what the register shows and clears its RC fields, and of a good panel setting answers the word; a malformed access, one with
a byte that is not enabled among them, is counted, and a malformed read answers all ones; with 128 posted writes in the bridge's queue no
write of BAR0 acts. -/
def Obligations.RegisterAccess : Prop :=
  ∀ (s : State) (off : BitVec 19) (v : Word), bar0Ok s = true →
    let o := off.toNat
    let reply (x : Word) : Out := .readReply 0 o (wordBytes x)
    (o % 4 = 0 → plainReg o = true → postedFull s = false → ∀ r, regSpec o = some r → ∃ t, exec (.registerWrite off v) s = .next t
      ∧ (∀ i, i < 32 → regB t o i =
        if r.rw.getLsbD i then v.getLsbD i else if r.w1c.getLsbD i && v.getLsbD i then false else regB s o i)
      ∧ SameRegs s t [o] ∧ t = { s with regs := t.regs })
    ∧ (o % 4 = 0 → plainReg o = true → regSpec o = none → exec (.registerWrite off v) s = .next s)
    ∧ (postedFull s = true → exec (.registerWrite off v) s = .next s)
    ∧ (o % 4 ≠ 0 → (postedFull s = false → exec (.registerWrite off v) s = .next (count s Reg.hostErrors 15 0 1))
      ∧ ∃ t, exec (.rcRegisterRead off) s = .next t ∧ t.out = s.out ++ [reply 0xFFFFFFFF#32])
    ∧ (o % 4 = 0 → plainRead o = true → ∃ t, exec (.rcRegisterRead off) s = .next t ∧ t.out = s.out ++ [reply (view s o)]
      ∧ (∀ i, regB t o i = (regB s o i && !(rcMask o).getLsbD i))
      ∧ SameRegs s t [o] ∧ t = { s with regs := t.regs, out := t.out })
    ∧ (o % 4 = 0 → (panelWordAt o).isSome = true → memGood (sget 0 s.panelSet o) = true →
      exec (.rcRegisterRead off) s = .next (emit s (reply (memData (sget 0 s.panelSet o)))))
    ∧ (∀ (isWrite : Bool) (en : List Bool), (∃ b ∈ en, b = false) ∨ (en.length ≠ 4 ∧ en.length ≠ 8 ∧ isWrite = false) ∨ o % 4 ≠ 0 →
      (isWrite = true → postedFull s = false) → ∃ t, exec (.bar0BadAccess isWrite o en) s = .next t
      ∧ total t Reg.hostErrors 0 = (total s Reg.hostErrors 0 + 1) % 2 ^ 32 ∧ regF t Reg.hostErrors 15 0 = min (regF s Reg.hostErrors 15 0 + 1) 65535
      ∧ t.out = (if isWrite then s.out else s.out ++ [.readReply 0 o (List.replicate en.length 0xFF#8)])
      ∧ SameRegs s t [Reg.hostErrors] ∧ t = { s with regs := t.regs, totals := t.totals, out := t.out })

/-- R5, R38, R50, R68, R71: a register whose write sets something off does what the command of that write does. -/
def Obligations.RegisterWritesAsCommands : Prop :=
  ∀ (s : State) (v : Word), bar0Writes s = true →
    let write (off : Nat) : Host.Outcome State Fault Refusal := exec (.registerWrite (BitVec.ofNat 19 off) v) s
    (∀ (w : Fin 8) (k : Fin 16), write (Reg.cmdBuf w k) = exec (.cmdBufWrite w k [v]) s)
    ∧ (∀ r : Fin 18, write (ringOff r + 8) = exec (.ringEnable r v) s ∧ write (ringOff r + 12) = exec (.ringHeadWrite r v) s)
    ∧ (∀ n : Fin 4, write (Reg.cmpNs n) = exec (.cmpTargetLoad n v) s)
    ∧ (bit v 0 = true → write Reg.timeLatch = exec .timeLatchCapture s)
    ∧ (∀ n : Fin 4, bit v 0 = true → write (Reg.cmpCtrl n) = exec (.cmpEnable n) s)

/-- R31, R35: a read of BAR2 returns the word as stored, reporting one that fails its check; a write is discarded and counted; an access
past the 16 MiB does not exist. -/
def Obligations.Bar2Access : Prop :=
  ∀ (s : State), bar0Ok s = true →
    let answer (t : State) (off : Nat) (w : Word) : Prop := t.out = s.out ++ [.readReply 2 off (wordBytes w)]
    (∀ a, s.integ.arms = [] → a < 2 ^ 19 → memGood (memGet s .kennel a) = true →
      exec (.bar2Read (4 * a) 4) s = .next (emit s (.readReply 2 (4 * a) (wordBytes (memWord s .kennel a)))))
    ∧ (∀ a, s.integ.arms = [] → a < 2 ^ 19 → memGood (memGet s .kennel a) = false → ∃ t, exec (.bar2Read (4 * a) 4) s = .next t
      ∧ FiredOnce s t 0x00 ∧ t.out.getLast? = some (.readReply 2 (4 * a) (wordBytes (memWord s .kennel a))) ∧ t.kennel = s.kennel)
    ∧ (∀ k, k < 2 ^ 14 → ∃ t, exec (.bar2Read (0x240000 + 4 * k) 4) s = .next t ∧ answer t (0x240000 + 4 * k) (statWord s (4 * k))
      ∧ t = { s with out := t.out })
    ∧ (∀ off len, off + len ≤ 2 ^ 24 → postedFull s = false → exec (.bar2Write off len) s = .next (count s Reg.hostErrors 15 0 1))
    ∧ (∀ off len, 2 ^ 24 < off + len → exec (.bar2Read off len) s = .fault .outsideBar ∧ exec (.bar2Write off len) s = .fault .outsideBar)

/-- R97: TIME_STEP moves the clock by its seconds, nanoseconds and fraction in the follower role; TIME_REACQUIRE in the reference role waits in
REACQUIRE; TIME_ROLE with a new role enters ACQUIRE, WAIT or IDLE and forgets the pairing in progress. The completion is that of
Obligations.CommandCompletion. -/
def Obligations.TimeCommands : Prop :=
  ∀ (s : State) (k : Fin 256) (c : HostCmd),
    let d : Int := ((cmdW c 1).toInt * 1000000000 + (cmdW c 2).toInt) * 65536 + fld (cmdW c 3) 15 0
    let ref := bit (cmdW c 1) 0
    let src := fld (cmdW c 1) 5 4
    (cmdReady s k 0x30 = some c → isReference s = false → ∃ t, exec (.timeStep k) s = .next t
      ∧ (t.time.clk : Int) = ((s.time.clk : Int) + d * 2 ^ 22) % (2 ^ 48 * 1000000000 * 2 ^ 38) ∧ t.time.steps = s.time.steps + 1
      ∧ servoState t = (if servoState s = 0 then 0 else 1) ∧ cmdAt t k = none)
    ∧ (cmdReady s k 0x30 = some c → isReference s = true → exec (.timeStep k) s = .next (finish s k stWrongState 0 0))
    ∧ (cmdReady s k 0x32 = some c → isReference s = true → ∃ t, exec (.timeReacquire k) s = .next t
      ∧ servoState t = (if servoState s = 2 then 2 else 6) ∧ t = { s with regs := t.regs, host := t.host }
      ∧ ∃ c', cmdAt t k = some c' ∧ c'.phase = .opened)
    ∧ (cmdReady s k 0x32 = some c → isReference s = false → exec (.timeReacquire k) s = .next (finish s k stWrongState 0 0))
    ∧ (cmdReady s k 0x31 = some c → isReference s ≠ ref → ∃ t, exec (.timeRole k) s = .next t
      ∧ isReference t = ref ∧ servoState t = (if ref then 2 else if src = 3 then 0 else 1)
      ∧ reg t Reg.jumpThr = cmdW c 2 &&& 0x3FFFFFFF#32 ∧ t.time.tod = none ∧ t.time.clk = s.time.clk ∧ cmdAt t k = none)

/-- R183 to R186: an offline group is powered with its scratch at 0 and enters ONLINE; an online group drains and goes off when no engine
of it holds a record; a command that asks for the state that the group is in completes at once, and one on a group between two states waits. -/
def Obligations.EngineGroups : Prop :=
  ∀ (s : State) (k : Fin 256) (c : HostCmd) (h : Fin 8),
    let g := fld (cmdW c 1) 2 0
    let scratch (t : State) (h : Nat) : Prop := ∀ a, memGet t .scratch a = if a / 16384 = h then 0 else memGet s .scratch a
    let others (t : State) (h : Nat) : Prop := ∀ x, x ≠ h → groupState t x = groupState s x
    (cmdReady s k 0x23 = some c → groupState s g = 0 → ∃ t, exec (.engineGroupOnline k) s = .next t ∧ groupState t g = 1
      ∧ scratch t g ∧ others t g ∧ cmdAt t k = some { c with phase := .running }
      ∧ t = { s with pack := { s.pack with groups := t.pack.groups }, scratch := t.scratch, host := t.host })
    ∧ (cmdReady s k 0x23 = some c → groupState s g = 2 → exec (.engineGroupOnline k) s = .next (finish s k stDone 0 0))
    ∧ ((groupState s g = 1 ∨ groupState s g = 3) → (cmdReady s k 0x23 = some c → exec (.engineGroupOnline k) s = .next s)
      ∧ (cmdReady s k 0x24 = some c → exec (.engineGroupOffline k) s = .next s))
    ∧ (alive s = true → groupState s h = 1 → ∃ t, exec (.groupPowered h) s = .next t ∧ groupState t h = 2 ∧ others t h
      ∧ t.pack.engines = s.pack.engines ∧ t.scratch = s.scratch ∧ ∀ d, groupCmd s 0x23 h = some d → cmdAt t d.slot = none)
    ∧ (cmdReady s k 0x24 = some c → groupState s g = 2 → ∃ t, exec (.engineGroupOffline k) s = .next t ∧ groupState t g = 3
      ∧ others t g ∧ cmdAt t k = some { c with phase := .running } ∧ t = { s with pack := t.pack, host := t.host })
    ∧ (cmdReady s k 0x24 = some c → groupState s g = 0 → exec (.engineGroupOffline k) s = .next (finish s k stDone 0 0))
    ∧ (alive s = true → groupState s h = 3 → (∀ j, j < 4 → engBusy s (4 * h + j) = false) →
      ∃ t, exec (.groupDrained h) s = .next t ∧ groupState t h = 0 ∧ others t h ∧ scratch t h
      ∧ ∀ d, groupCmd s 0x24 h = some d → cmdAt t d.slot = none)

/-- R177 to R181, R336: BANK_SWAP changes the active bank at once and completes when the last record on the old bank has ended; LOAD_PROGRAM
reads the header, fills the inactive bank with 0xFFFF_FFFF and then writes the image's words in order; a re-fetched word is written back,
and one whose read fails is replaced by its substitute, a whole listener entry by 0, a failed read of host memory being a DMA fault. -/
def Obligations.ProgramBanks : Prop :=
  ∀ (s : State) (k : Fin 256) (c : HostCmd),
    let swapped := setPack s { s.pack with active := 1 - s.pack.active }
    (cmdReady s k 0x11 = some c → oldBankBusy swapped = false →
      exec (.bankSwap k) s = .next (finish swapped k stDone (1 - s.pack.active) 0))
    ∧ (cmdReady s k 0x11 = some c → oldBankBusy swapped = true → ∃ t, exec (.bankSwap k) s = .next t
      ∧ t.pack = { s.pack with active := 1 - s.pack.active, swapEnded := some 0 } ∧ cmdAt t k = some { c with phase := .running }
      ∧ t = { s with pack := t.pack, host := t.host })
    ∧ (∀ n d, s.pack.swapEnded = some n → oldBankBusy s = false →
      s.host.cmds.find? (fun d => cmdOp d == 0x11 && d.phase == .running) = some d →
      exec .bankSwapDrained s = .next (finish (setPack s { s.pack with swapEnded := none }) d.slot stDone s.pack.active n))
    ∧ (cmdReady s k 0x10 = some c → bit (cmdW c 1) 0 = false → dmaFree s = true →
      let a := (cmdW c 3).toNat * 2 ^ 32 + (cmdW c 2).toNat
      let n := min 64 (4096 - a % 4096)
      ∃ t, exec (.loadProgram k) s = .next t ∧ t.out = s.out ++ [.dmaRead k a n] ∧ t = { s with host := t.host, out := t.out })
    ∧ (cmdReady s k 0x10 = some c → bit (cmdW c 1) 0 = true → isWedged s unitFlash = false →
      let a := (cmdW c 2).toNat
      let n := min 64 (4096 - a % 4096)
      ∃ t, exec (.loadProgram k) s = .next t ∧ t.out = s.out ++ [.flash 0 a [] n] ∧ t = { s with host := t.host, out := t.out })
    ∧ (∀ (f : Fetch) (data : List Byte), alive s = true → cmdAt s k = some c → cmdOp c = 0x10 → c.fetch = some f → c.flash = false →
      f.len ≠ 0 → data.length = f.len →
      let h (j : Nat) : Word := (bytesWords 16 (c.got ++ data)).getD j 0
      let bank := 1 - s.pack.active
      (loadOpen c = false → f.rest = 0 → imageBad h (cmdW c 4).toNat = true →
        ∃ t, exec (.dmaReadCompletion k (some data)) s = .next t ∧ t.prog = s.prog ∧ cmdAt t k = none)
      ∧ (loadOpen c = false → f.rest = 0 → imageBad h (cmdW c 4).toNat = false →
        ∃ t, exec (.dmaReadCompletion k (some data)) s = .next t
        ∧ (∀ a, memGet t .prog a = if a / 32768 = bank then memFresh 0xFFFFFFFF#32 else memGet s .prog a)
        ∧ reg t (Reg.bankSize bank) = BitVec.ofNat 32 (fld (h 3) 15 0 * 65536 + fld (h 2) 15 0) ∧ reg t (Reg.bankSrc bank) = 0)
      ∧ (∀ m, loadOpen c = true → c.got = [] → f.rest ≠ 0 → f.len = 4 * m →
        c.done + m ≤ fld (loadHead c 2) 15 0 + fld (loadHead c 3) 15 0 →
        ∃ t, exec (.dmaReadCompletion k (some data)) s = .next t
        ∧ ∀ a, memGet t .prog a =
          if 32768 * bank + c.done ≤ a ∧ a < 32768 * bank + c.done + m then
            memFresh (bytesWord ((data.drop (4 * (a - (32768 * bank + c.done)))).take 4))
          else memGet s .prog a))
    ∧ (∀ (f : Refetch) (fs : List Refetch) (w : Word), s.pack.refetch = f :: fs → f.sent = true → f.store < 4 →
      let left (t : State) : Prop :=
        (t.pack.refetch.map fun x => (x.store, x.addr, x.readers)) = fs.map fun x => (x.store, x.addr, x.readers)
      (∃ t, exec (.programRefetchDone (some [w])) s = .next t ∧ memGet t (memOfStore f.store) f.addr = memFresh w ∧ left t
        ∧ total t Reg.retrCountC 16 = (total s Reg.retrCountC 16 + 1) % 2 ^ 32 ∧ FiredOnce s t 0x04)
      ∧ ∃ t, exec (.programRefetchDone none) s = .next t ∧ left t ∧ FiredOnce s t 0x04
        ∧ total t Reg.retrCountC 0 = (total s Reg.retrCountC 0 + 1) % 2 ^ 32
        ∧ total t Reg.hostErrors 16 = (if f.flash then total s Reg.hostErrors 16 else (total s Reg.hostErrors 16 + 1) % 2 ^ 32)
        ∧ (f.store < 2 → memGet t (memOfStore f.store) f.addr = memFresh 0xFFFFFFFF#32)
        ∧ (f.store = 2 → ∀ i, i < 8 → memGet t .lsts (f.addr / 8 * 8 + i) = memFresh 0)
        ∧ (f.store = 3 → memGet t .sets f.addr = memFresh 0))

/-- R48, R62, R166, R229: TABLE_WRITE reads its entries from host memory and writes them; TABLE_READ writes entries to host memory; QUOTA_SET
writes a quota; a DMA read that faults is counted and completes its command. -/
def Obligations.TablesAndQuotas : Prop :=
  ∀ (s : State) (k : Fin 256) (c : HostCmd),
    let id := fld (cmdW c 1) 7 0
    let first := (cmdW c 2).toNat
    let n := (cmdW c 3).toNat
    let a := (cmdW c 5).toNat * 2 ^ 32 + (cmdW c 4).toNat
    (cmdReady s k 0x12 = some c → (tableSize id).1 < first + n → exec (.tableWrite k) s = .next (finish s k stBadParam 0 0))
    ∧ (cmdReady s k 0x12 = some c → first + n ≤ (tableSize id).1 → n ≠ 0 → dmaFree s = true → ∃ t, exec (.tableWrite k) s = .next t
      ∧ t.out = s.out ++ [.dmaRead k a (min (min (n * (tableSize id).2) 512) (4096 - a % 4096))] ∧ t = { s with host := t.host, out := t.out })
    ∧ (∀ (f : Fetch) (data : List Byte) (m : Nat), alive s = true → cmdAt s k = some c → cmdOp c = 0x12 → id = 4 → c.fetch = some f →
      c.flash = false → c.got = [] → f.rest = 0 → f.len = 64 * m → m ≠ 0 → data.length = f.len →
      ∃ t, exec (.dmaReadCompletion k (some data)) s = .next t ∧ cmdAt t k = none
      ∧ ∀ x, memGet t .slots x =
        if 16 * (first + c.done) ≤ x ∧ x < 16 * (first + c.done + m) then
          memFresh (bytesWord ((data.drop (4 * (x - 16 * (first + c.done)))).take 4))
        else memGet s .slots x)
    ∧ (∀ f : Fetch, alive s = true → cmdAt s k = some c → cmdOp c ≠ 0x10 → c.fetch = some f → c.flash = false → f.len ≠ 0 →
      ∃ t, exec (.dmaReadCompletion k none) s = .next t ∧ cmdAt t k = none
      ∧ total t Reg.hostErrors 16 = (total s Reg.hostErrors 16 + 1) % 2 ^ 32
      ∧ (s.host.faultSeen = false → reg t Reg.dmaFaultAddrLo = BitVec.ofNat 32 f.addr
        ∧ reg t Reg.dmaFaultAddrHi = BitVec.ofNat 32 (f.addr / 2 ^ 32))
      ∧ SameBut s t [Reg.hostErrors, Reg.dmaFaultAddrLo, Reg.dmaFaultAddrHi])
    ∧ (cmdReady s k 0x13 = some c → (tableSize id).1 < first + n → exec (.tableRead k) s = .next (finish s k stBadParam 0 0))
    ∧ (cmdReady s k 0x13 = some c → first + n ≤ (tableSize id).1 → hostMem s = true → s.integ.arms = [] →
      let m := tableMem id
      let words := (tableSize id).2 / 4
      let base := memBank m * (if bit (cmdW c 1) 8 then 1 - s.pack.active else s.pack.active) + words * first
      (∀ j, j < words * n → memGood (memGet s m (base + j)) = true) →
      exec (.tableRead k) s = .next (finish (dmaWrite s a (wordsBytes ((List.range (words * n)).map fun j => memWord s m (base + j))))
        k stDone n 0))
    ∧ (cmdReady s k 0x25 = some c → fld (cmdW c 1) 1 0 = 3 → first ≤ 1023 → fld (cmdW c 3) 14 0 ≤ 24576 →
      exec (.quotaSet k) s = .next (finish (setReg s (Reg.lqQuota first) (BitVec.ofNat 32 (fld (cmdW c 3) 14 0))) k stDone 0 0))
    ∧ (cmdReady s k 0x25 = some c → fld (cmdW c 1) 1 0 = 0 → first ≤ 4095 → s.integ.arms = [] → talkerValid s first = true →
      memGood (memGet s .talkers (16 * first + 3)) = true → ∃ t, exec (.quotaSet k) s = .next t ∧ cmdAt t k = none
      ∧ talkW t first 4 = cmdW c 3 ∧ (talkW t first 9).toNat = min (fld (talkW s first 9) 23 0) (fld (cmdW c 3) 15 0 * 256)
      ∧ (talkW t first 10).toInt = (if fld (talkW s first 5) 15 0 = 0 then 0
          else min (talkW s first 10).toInt (fld (talkW s first 5) 15 0 * 16 : Nat))
      ∧ ∀ x, x ≠ 16 * first + 4 → x ≠ 16 * first + 9 → x ≠ 16 * first + 10 → memGet t .talkers x = memGet s .talkers x)
    ∧ (cmdReady s k 0x25 = some c → (fld (cmdW c 1) 1 0 = 3 ∧ (1023 < first ∨ 24576 < fld (cmdW c 3) 14 0)
        ∨ fld (cmdW c 1) 1 0 ≠ 3 ∧ 4095 < first) → exec (.quotaSet k) s = .next (finish s k stBadParam 0 0))

/-- R46, R47, R344: the flash commands work page by page: a read page goes to host memory, a written page is read from host memory,
programmed and read back, and an error or a page that reads back differently completes FLASH_FAULT with the pages done; an erase past the
end of a device whose size is known changes nothing and completes BAD_PARAM. -/
def Obligations.FlashCommands : Prop :=
  ∀ (s : State) (k : Fin 256) (c : HostCmd) (f : Fetch) (data : List Byte),
    let off := (cmdW c 3).toNat
    let len := (cmdW c 4).toNat
    let host := (cmdW c 2).toNat * 2 ^ 32 + (cmdW c 1).toNat
    let n := min len (4096 - off % 4096)
    let moved (t : State) (o : Out) : Prop := t.out = s.out ++ [o] ∧ t = { s with host := t.host, out := t.out }
    (isWedged s unitFlash = true →
      (cmdReady s k 0x80 = some c → exec (.flashRead k) s = .next (finish s k stWedged 0 0))
      ∧ (cmdReady s k 0x81 = some c → exec (.flashWrite k) s = .next (finish s k stWedged 0 0))
      ∧ (cmdReady s k 0x82 = some c → exec (.flashErase k) s = .next (finish s k stWedged 0 0)))
    ∧ (isWedged s unitFlash = false → len ≠ 0 →
      (cmdReady s k 0x80 = some c → ∃ t, exec (.flashRead k) s = .next t ∧ moved t (.flash 0 off [] n)
        ∧ cmdAt t k = some { c with phase := .running, flash := true, fetch := some ⟨off, n, len - n⟩ })
      ∧ (cmdReady s k 0x81 = some c → c.done = 0 → dmaFree s = true → ∃ t, exec (.flashWrite k) s = .next t
        ∧ moved t (.dmaRead k host (min (min n 512) (4096 - host % 4096))))
      ∧ (∀ size, cmdReady s k 0x82 = some c → s.host.flashSize = some size → size < off + len →
        exec (.flashErase k) s = .next (finish s k stBadParam 0 0))
      ∧ (cmdReady s k 0x82 = some c → (∀ size, s.host.flashSize = some size → off + len ≤ size) →
        ∃ t, exec (.flashErase k) s = .next t ∧ moved t (.flash 2 off [] 4096)
        ∧ cmdAt t k = some { c with phase := .running, flash := true, fetch := some ⟨off, 4096, len - 4096⟩ }))
    ∧ (alive s = true → cmdAt s k = some c → c.flash = true → c.fetch = some f →
      let run (ok : Bool) : Host.Outcome State Fault Refusal := exec (.flashOperationEnd k ok data) s
      (cmdOp c ≠ 0x10 → run false = .next (finish s k stFlashFault c.aux 0))
      ∧ (cmdOp c = 0x80 → data.length = f.len → hostMem s = true → f.rest = 0 →
        run true = .next (finish (dmaWrite s (host + c.done) data) k stDone (c.aux + 1) 0))
      ∧ (cmdOp c = 0x81 → f.rest = 0 → ∃ t, run true = .next t ∧ moved t (.flash 0 f.addr [] f.len))
      ∧ (cmdOp c = 0x81 → f.rest ≠ 0 → data.length = f.len → data ≠ c.got → run true = .next (finish s k stFlashFault c.aux 0))
      ∧ (cmdOp c = 0x82 → f.rest = 0 → run true = .next (finish s k stDone (c.aux + 1) 0))
      ∧ (cmdOp c = 0x82 → f.rest ≠ 0 → ∃ t, run true = .next t ∧ moved t (.flash 2 (f.addr + 4096) [] 4096)))

/-- R36, R84, R85, R339: INJECT_ARM arms a detector in one free place and leaves the other arms, and its duration ends it; a snapshot writes
the statistics, or a calibration table, to host memory; CAL_RUN starts a forced accumulation in each region of its mask. -/
def Obligations.ArmsAndSnapshots : Prop :=
  ∀ (s : State) (k : Fin 256) (c : HostCmd),
    let d := fld (cmdW c 1) 6 0
    let mode := fld (cmdW c 1) 9 8
    let unit := fld (cmdW c 3) 15 0
    let isolate := bit (cmdW c 1) 12
    let w1 := cmdW c 1
    (cmdReady s k 0x03 = some c → armBad s d mode (cmdW c 2).toNat unit isolate = true →
      exec (.injectArm k) s = .next (finish s k stBadParam 0 0))
    ∧ (cmdReady s k 0x03 = some c → armBad s d mode (cmdW c 2).toNat unit isolate = false → mode ≠ 0 → isolate = false →
      ∃ t a, exec (.injectArm k) s = .next t ∧ cmdAt t k = none
      ∧ sget none t.integ.arms a = some ⟨d, mode, (cmdW c 2).toNat, (cmdW c 2).toNat, unit, false, s.time.tb⟩
      ∧ (∀ b, b ≠ a → sget none t.integ.arms b = sget none s.integ.arms b ∨ (sget none t.integ.arms b = none ∧ (armOf s d).map (·.1) = some b))
      ∧ SameBut s t [])
    ∧ (∀ a x, cmdReady s k 0x03 = some c → armBad s d mode (cmdW c 2).toNat unit isolate = false → mode = 0 → armOf s d = some (a, x) →
      exec (.injectArm k) s = .next (finish (setArm s a none) k stDone 0 0))
    ∧ (∀ (e : BitVec 7) a x, armOf s e.toNat = some (a, x) → ticking s = true → x.mode = 3 → x.n * 250 ≤ s.time.tb - x.startTb →
      exec (.injectionDurationEnd e) s = .next (setArm s a none))
    ∧ (cmdReady s k 0x02 = some c → hostMem s = true → exec (.statsSnapshot k) s =
      .next (finish (dmaWrite s ((cmdW c 2).toNat * 2 ^ 32 + w1.toNat)
        (wordsBytes ((List.range ((cmdW c 3).toNat / 4)).map fun i => statWord s (4 * i)))) k stDone ((cmdW c 3).toNat / 64) 0))
    ∧ (cmdReady s k 0x34 = some c → hostMem s = true →
      let g := fld w1 2 0
      let n := min 33 ((cmdW c 4).toNat / 64)
      exec (.calSnapshot k) s = .next (finish (dmaWrite s ((cmdW c 3).toNat * 2 ^ 32 + (cmdW c 2).toNat) ((calSnapBytes s g).take (64 * n)))
        k stDone n (bufEpoch (region s g) (region s g).newest)))
    ∧ (cmdReady s k 0x33 = some c → fld w1 7 0 = 0 → exec (.calRun k) s = .next (finish s k stDone (epochs4 s 0) (epochs4 s 4)))
    ∧ (cmdReady s k 0x33 = some c → fld w1 7 0 ≠ 0 → ∃ t, exec (.calRun k) s = .next t
      ∧ (∀ g, g < 8 → region t g =
        if bit w1 g then
          { region s g with
            mode := .forced, run := some k, waiting := none, hist := [], hits := 0, live := 0, startTb := s.time.tb,
            ctl := reg s Reg.calCtrl, target := reg s Reg.calHits }
        else region s g)
      ∧ cmdAt t k = some { c with phase := .running } ∧ t = { s with regions := t.regions, host := t.host })

/-- R45, R47, R115, R120, R140, R142, R266, R284, R325, R344: PORT_SET takes the settings of its words into the registers; PORT_ENABLE and
PORT_DISABLE set and clear EN, and PORT_ENABLE of a CAN port starts it with TEC, REC and its address map at 0; every port command on a
wedged unit completes WEDGED, and a panel port waits for its frame boundary. -/
def Obligations.PortCommands : Prop :=
  ∀ (s : State) (k : Fin 256) (c : HostCmd),
    let cls := fld (cmdW c 1) 15 12
    let n := fld (cmdW c 1) 6 0
    let w (i : Nat) : Word := c.words.getD i 0
    n < portCount cls →
    (cmdReady s k 0x20 = some c → isWedged s (unitOf cls n) = true → exec (.portSet k) s = .next (finish s k stWedged 0 0))
    ∧ (cmdReady s k 0x20 = some c → isWedged s (unitOf cls n) = false →
      (cls = 0 → serialBad w = true → exec (.portSet k) s = .next (finish s k stBadParam 0 0))
      ∧ (cls = 0 → serialBad w = false → (serial s n).run = none → (serial s n).idleTb ≤ s.time.tb → ∃ t, exec (.portSet k) s = .next t ∧ cmdAt t k = none
        ∧ reg t (Reg.spCtrl n) = (w 2 &&& 0x7000FF00#32) ||| (reg s (Reg.spCtrl n) &&& 0x80000000#32)
        ∧ reg t (Reg.spFormat n) = w 3 &&& 0x3F#32 ∧ reg t (Reg.spDiv n) = w 4 &&& 0x7FFFF#32)
      ∧ (cls = 3 → ∃ t, exec (.portSet k) s = .next t ∧ cmdAt t k = none
        ∧ reg t (Reg.eiCtrl n) = (w 2 &&& 0x6C0F0000#32) ||| (reg s (Reg.eiCtrl n) &&& 0x80000000#32)
        ∧ reg t (Reg.eiFilt n) = w 3 &&& 0x8000FFFF#32 ∧ reg t (Reg.eiHold n) = w 4 &&& 0xFFFF#32)
      ∧ (cls = 4 → fld (w 2) 29 28 ≠ 3 → ∃ t, exec (.portSet k) s = .next t ∧ cmdAt t k = none
        ∧ reg t (Reg.eoCtrl n) = (w 2 &&& 0x73000000#32) ||| (reg s (Reg.eoCtrl n) &&& 0x80000000#32)
        ∧ reg t (Reg.eoWidth n) = w 3 &&& 0x3FFFFFFF#32 ∧ reg t (Reg.eoPeriod n) = w 7)
      ∧ (cls = 5 → portEn s 5 n = true → ∃ t, exec (.portSet k) s = .next t ∧ (panel t n).pendSet = some (c.words, k.val)
        ∧ cmdAt t k = some { c with phase := .running } ∧ t = { s with panels := t.panels, host := t.host }))
    ∧ (cmdReady s k 0x21 = some c → isWedged s (unitOf cls n) = true → exec (.portEnable k) s = .next (finish s k stWedged 0 0))
    ∧ (cmdReady s k 0x21 = some c → isWedged s (unitOf cls n) = false →
      ∃ t, exec (.portEnable k) s = .next t ∧ portEn t cls n = true ∧ cmdAt t k = none
      ∧ (cls = 1 → (can t n).tec = 0 ∧ (can t n).recv = 0 ∧ (can t n).claims = [] ∧ (can t n).mode = .integrating))
    ∧ (cmdReady s k 0x22 = some c → isWedged s (unitOf cls n) = true → exec (.portDisable k) s = .next (finish s k stWedged 0 0))
    ∧ (cmdReady s k 0x22 = some c → isWedged s (unitOf cls n) = false →
      (cls = 0 ∨ (cls = 1 ∧ (can s n).attempt = .none) ∨ (cls = 2 ∧ (eth s n).tx = none) ∨ cls = 3 ∨ (cls = 4 ∧ (evOut s n).active = [])) →
      ∃ t, exec (.portDisable k) s = .next t ∧ portEn t cls n = false ∧ cmdAt t k = none)
    ∧ (cmdReady s k 0x22 = some c → isWedged s (unitOf cls n) = false → cls = 5 → portEn s 5 n = true → ∃ t, exec (.portDisable k) s = .next t
      ∧ (panel t n).closing = some (some k.val) ∧ cmdAt t k = some { c with phase := .running }
      ∧ t = { s with panels := t.panels, host := t.host })

/-- R257, R260, R262, R277, R279: a CAN_SEND with inline data becomes pending on its lane; CAN_CANCEL withdraws a frame before its attempt, and
is late during it; ETH_LAUNCH reads its frame and then waits in its queue, and waits before it while 32 frames are pending there; a frame
that leaves is counted, carries its FCS and completes its command. -/
def Obligations.HostFrames : Prop :=
  ∀ (s : State) (k : Fin 256) (c : HostCmd),
    let n := fld (cmdW c 1) 2 0
    let len := fld (cmdW c 3) 6 0
    (cmdReady s k 0x60 = some c → portEn s 1 n = false → exec (.canSend k) s = .next (finish s k stDiscarded 0 0))
    ∧ (cmdReady s k 0x60 = some c → portEn s 1 n = true → isWedged s (unitCan n) = false → (can s n).mode ≠ .busOff →
      (can s n).closing = none → bit (cmdW c 1) 12 = true → len ≤ (wordsBytes (c.words.drop 8)).length → ∃ t x, exec (.canSend k) s = .next t
      ∧ (can t n).sends = (can s n).sends ++ [x] ∧ x.slot = k.val ∧ x.attempts = 0
      ∧ x.frame.ide = bit (cmdW c 1) 11 ∧ x.frame.fdf = bit (cmdW c 1) 9
      ∧ x.frame.data.take len = (wordsBytes (c.words.drop 8)).take len
      ∧ cmdAt t k = some { c with phase := .opened } ∧ (∀ m, m ≠ n → can t m = can s m) ∧ t = { s with can := t.can, host := t.host })
    ∧ (cmdReady s k 0x61 = some c → cmdOfHandle s (fld (cmdW c 1) 15 0) = none →
      exec (.canCancel k) s = .next (finish s k stNoSuchHandle 0 0))
    ∧ (∀ d x, cmdReady s k 0x61 = some c → cmdOfHandle s (fld (cmdW c 1) 15 0) = some d → cmdOp d = 0x60 →
      (can s (fld (cmdW d 1) 2 0)).sends.find? (fun x => x.slot == d.slot) = some x → x.lateCancel = false →
      ((can s (fld (cmdW d 1) 2 0)).attempt ≠ .send x.slot → exec (.canCancel k) s =
        .next (finish (finish (dropSend s (fld (cmdW d 1) 2 0) x.slot) x.slot (if x.attempts = 0 then stCancelled else stCancelledAfter)
          x.attempts 0) k stApplied 0 0))
      ∧ ((can s (fld (cmdW d 1) 2 0)).attempt = .send x.slot → ∃ t, exec (.canCancel k) s = .next t ∧ cmdAt t k = none
        ∧ ∀ y, y ∈ (can t (fld (cmdW d 1) 2 0)).sends → y.slot = x.slot → y.lateCancel = true))
    ∧ (∀ j, j = fld (cmdW c 1) 1 0 → cmdReady s k 0x70 = some c →
      let open_ := isWedged s (unitOf 2 j) = false ∧ portEn s 2 j = true ∧ (eth s j).link = true
      let pending := ((eth s j).launches.filter fun f => f.queue == fld (cmdW c 1) 10 8).length
      (isWedged s (unitOf 2 j) = true → exec (.ethLaunch k) s = .next (finish s k stWedged 0 0))
      ∧ (isWedged s (unitOf 2 j) = false → portEn s 2 j = false → exec (.ethLaunch k) s = .next (finish s k stDiscarded 0 0))
      ∧ (isWedged s (unitOf 2 j) = false → portEn s 2 j = true → (eth s j).link = false →
        exec (.ethLaunch k) s = .next (finish (count s (Reg.ethTxErr j) 23 16 1) k stLinkFailed 0 0))
      ∧ (open_ → 32 ≤ pending → exec (.ethLaunch k) s = .next s)
      ∧ (open_ → pending < 32 → dmaFree s = true →
        let a := (cmdW c 3).toNat * 2 ^ 32 + (cmdW c 2).toNat
        ∃ t, exec (.ethLaunch k) s = .next t
        ∧ t.out = s.out ++ [.dmaRead k a (min (min (cmdW c 4).toNat 512) (4096 - a % 4096))] ∧ t = { s with host := t.host, out := t.out }))
    ∧ (∀ (j : Fin 4) (f : LaunchFrame) (q : List LaunchFrame), ethIdle s j = true → (eth s j).ptp.queue = [] →
      (eth s j).launches = f :: q → f.queue = 0 → f.launch = none → ∃ t e, exec (.ethFrameStart j) s = .next t
      ∧ (eth t j).tx = some (.launch f, f.bytes, e) ∧ (eth t j).launches = q ∧ (∀ i, i ≠ j.val → eth t i = eth s i)
      ∧ t = { s with eth := t.eth })
    ∧ (∀ (j : Fin 4) (f : LaunchFrame) (bs : List Byte) (e : Edge), ticking s = true → (eth s j).tx = some (.launch f, bs, e) →
      (eth s j).endTb ≤ s.time.tb → ∃ t, exec (.ethFrameDeparted j) s = .next t ∧ (eth t j).tx = none ∧ cmdAt t f.slot = none
      ∧ (∃ os, t.out = s.out ++ .ethFrame j (bs ++ natLe 4 (crc32 bs).toNat) :: os)
      ∧ total t (Reg.ethTxFrames j) 0 = (total s (Reg.ethTxFrames j) 0 + 1) % 2 ^ 32)

/-! ## Listeners and the intake -/

/-- R226, R230 to R234, R242: enabling and disabling listeners, with the copies that a disable discards; a host ring takes the copy that the
scheduler chooses, with the bytes that its run of the pool holds; a copy whose deadline is reached starts at that tick where its endpoint can
start it (R244), and has else missed: it is dropped, or sent late, by its policy; a drain listener's tick queues one item. -/
def Obligations.ListenerCommands : Prop :=
  ∀ (s : State) (k : Fin 32) (mask : Word),
    let hit (n : Nat) : Bool := n / 32 == k.val && bit mask (n % 32)
    (bar0Writes s = true → ∃ t, exec (.listenerEnable k mask) s = .next t
      ∧ reg t (Reg.lstEnabled k) = reg s (Reg.lstEnabled k) ||| mask ∧ SameRegs s t [Reg.lstEnabled k]
      ∧ (∀ i, i < 32 → sget 0 t.lq.enAt (32 * k + i) =
          if bit mask i && !bit (reg s (Reg.lstEnabled k)) i then s.lq.enSeq + 1 else sget 0 s.lq.enAt (32 * k + i))
      ∧ t.lq.copies = s.lq.copies ∧ t.lq.drains = s.lq.drains ∧ t = { s with regs := t.regs, lq := t.lq })
    ∧ (bar0Writes s = true → ∃ t, exec (.listenerDisable k mask) s = .next t
      ∧ reg t (Reg.lstEnabled k) = reg s (Reg.lstEnabled k) &&& ~~~mask
      ∧ t.lq.copies = s.lq.copies.filter (fun c => !hit c.listener) ∧ t.lq.drains = s.lq.drains.filter (fun d => !hit d.listener)
      ∧ t = { s with regs := t.regs, lq := t.lq, totals := t.totals })
    ∧ (∀ (r : Fin 16) (c : Copy), ticking s = true → s.integ.arms = [] →
      bestCand s (candidates s 4 r none 0 []) = some (.copy c) → hrRoom s r (16 + c.len) = true →
      (∀ i, i < 8 + ceilDiv c.len 4 → memGood (memGet s .pool (16 * c.gran + i)) = true) →
      let bytes := (wordsBytes ((List.range (ceilDiv c.len 4)).map fun i => memWord s .pool (16 * c.gran + 8 + i))).take c.len
      exec (.endpointStartCopy (.hostRing r)) s =
        .next (hrWrite (count (dropCopy s c.arrival) (Reg.lqSent c.listener) 31 0 1) r 1 c.listener c.inj (itemPayload { c with body := bytes })))
    ∧ (∀ (a sec ns : Word) (c : Copy), ticking s = true → s.integ.arms = [] →
      s.lq.copies.find? (fun c => c.arrival % 2 ^ 32 == a.toNat) = some c → c.missed = false → c.deadline = some (sec, ns) → c.listener < 1024 →
      let started : Bool := !(startCopy s (endpointOf c)).lq.copies.any (fun d => d.arrival == c.arrival)
      (reached s sec ns c.setTb = false → exec (.deadlineMiss a) s = .next s)
      ∧ (reached s sec ns c.setTb = true → started = true → exec (.deadlineMiss a) s = .next (startCopy s (endpointOf c)))
      ∧ (reached s sec ns c.setTb = true → started = false → ∃ t, exec (.deadlineMiss a) s = .next t ∧ FiredOnce s t 0x42
        ∧ (bit c.w0 26 = false → t.lq.copies = s.lq.copies.filter (fun d => d.arrival != c.arrival)
          ∧ total t (Reg.lqLate c.listener) 16 = (total s (Reg.lqLate c.listener) 16 + 1) % 2 ^ 32)
        ∧ (bit c.w0 26 = true → total t (Reg.lqLate c.listener) 0 = (total s (Reg.lqLate c.listener) 0 + 1) % 2 ^ 32)))
    ∧ (∀ (l : Fin 1024), ticking s = true → Quiet s → s.lq.drains.any (fun d => d.listener == l.val) = false →
      let w (i : Nat) : Word := memWord s .lsts (lstAddr s.pack.active l i)
      let slot := fld (w 2) 27 16
      let seq := fld (memWord s .slots (16 * slot + 15)) 31 16
      (∀ i, i < 4 → memGood (memGet s .lsts (lstAddr s.pack.active l i)) = true) → memGood (memGet s .slots (16 * slot + 15)) = true →
      lstKind (w 0) ≠ 0 → lstDrain (w 0) = true → drainTicks (drainMs s % 2 ^ 32) (fld (w 2) 15 0) (fld (w 3) 31 18) = true →
      sget 0 s.lq.tickMs l ≠ drainMs s + 1 → lstEnabled s l = true → epOpen s (lstKind (w 0)) (lstNum (w 0)) = true → seq ≠ 0 →
      bit (w 2) 28 = false → ∃ t, exec (.drainTick l) s = .next t
      ∧ t.lq.drains = s.lq.drains ++ [⟨l, w 0, s.lq.arrival, fld (w 2) 31 29, nextTick s (fld (w 2) 15 0) (fld (w 3) 31 18)⟩]
      ∧ t.lq.arrival = s.lq.arrival + 1 ∧ t = { s with lq := t.lq })

/-- R160, R164, R167 to R170, R187, R188, R343 to R345: the buckets of valid talkers refill by one millisecond; silent unpinned talkers age out;
the chosen record goes to the lowest free engine; a hound that trips wedges its unit. -/
def Obligations.IntakeAndHounds : Prop :=
  ∀ (s : State), ticking s = true → s.integ.arms = [] →
    (s.herder.refillMs < drainMs s → Memory.wf s = true →
      (∀ i w, i ∈ validTalkers s → w = 4 ∨ w = 5 ∨ w = 9 ∨ w = 10 → memGood (memGet s .talkers (16 * i + w)) = true) →
      ∃ t, exec .bucketRefill s = .next t ∧ t.herder.refillMs = s.herder.refillMs + 1
      ∧ (∀ i, i ∈ validTalkers s →
        (fld (talkW s i 4) 15 0 ≠ 0 → (talkW t i 9).toNat = min (fld (talkW s i 9) 23 0 + fld (talkW s i 4) 31 16) (fld (talkW s i 4) 15 0 * 256))
        ∧ (fld (talkW s i 5) 15 0 ≠ 0 → (talkW s i 10).toInt < 2 ^ 24 → (talkW t i 10).toInt =
            min ((talkW s i 10).toInt + fld (talkW s i 5) 31 16 * 16) (fld (talkW s i 5) 15 0 * 16)))
      ∧ t = { s with talkers := t.talkers, herder := t.herder })
    ∧ (s.herder.sweepS < drainMs s / 1000 → Memory.wf s = true →
      (∀ i w, i ∈ validTalkers s → w = 3 ∨ w = 8 → memGood (memGet s .talkers (16 * i + w)) = true) →
      ∃ t, exec .talkerSweep s = .next t ∧ t.herder.sweepS = s.herder.sweepS + 1
      ∧ ∀ i, i ∈ validTalkers s →
        let own := fld (talkW s i 3) 15 0
        let limit := if own = 0 then regF s Reg.talkerCtrl 31 16 else own
        talkerValid t i = !(!bit (talkW s i 3) 30 && fld (talkW s i 8) 16 0 == 0 && limit != 0
          && decide (limit * 250000000 < s.time.tb - (sget 0 s.herder.heard i - 1))))
    ∧ (∀ (e : Nat) (r : Rec), Quiet s → bootBusy s = false → freeEngine s = some e → s.herder.rebuilds = [] →
      nextHead s (readyHeads s) = some r →
      memGood (memGet s .talkers (16 * r.talker + 3)) = true → memGood (memGet s .talkers (16 * r.talker + 6)) = true →
      let a := 512 * s.pack.active + routeIndex s r
      memGood (memGet s .routes a) = true →
      (∀ i, i = 0 ∨ i = 1 ∨ i = 2 ∨ i = 9 ∨ i = 10 ∨ i = 11 → memGood (memGet s .kennel (4 * r.gran + i)) = true) →
      ∃ t, exec .dispatch s = .next t ∧ (engine t e).recd = some r ∧ (engine t e).pc = fld (memWord s .routes a) 14 0
      ∧ (engine t e).bank = s.pack.active ∧ (engine t e).budget = recordPlies s r.talker ∧ (engine t e).plies = 0
      ∧ (engine t e).w.getD 0 0 = memWord s .kennel (4 * r.gran) ∧ (engine t e).w.getD 7 0 = BitVec.ofNat 32 (recordPlies s r.talker)
      ∧ (∀ x, x ≠ e → engine t x = engine s x) ∧ t.herder.waiting = s.herder.waiting.filter (fun x => x.seq != r.seq)
      ∧ total t Reg.herderDispatch 0 = (total s Reg.herderDispatch 0 + 1) % 2 ^ 32)
    ∧ (∀ (e : Fin 32) (r : Rec), (engine s e).recd = some r →
      (wallTicks s (engine s e) ≤ houndLimit s (engine s e) → exec (.engineHoundTrip e) s = .next s)
      ∧ (houndLimit s (engine s e) < wallTicks s (engine s e) → ∃ t, exec (.engineHoundTrip e) s = .next t
        ∧ (engine t e).wedged = true ∧ (engine t e).recd = none ∧ isWedged t (unitEngine e) = true ∧ FiredOnce s t 0x70
        ∧ total t Reg.packAbandon 0 = (total s Reg.packAbandon 0 + 1) % 2 ^ 32))
    ∧ (∀ (x : Crossing) (out idle : Bool) (waited : Nat), isWedged s (crossUnit x) = false → crossAbsent s x = false →
      (4000 * waited ≤ crossLimit s x → exec (.crossingHoundTrip ⟨x, waited⟩ out idle) s = .next s)
      ∧ (waited ≤ s.time.tb → crossLimit s x < 4000 * waited →
      ∃ t, exec (.crossingHoundTrip ⟨x, waited⟩ out idle) s = .next t ∧ isWedged t (crossUnit x) = true
      ∧ total t (Reg.detCount 0x71) 0 = (total s (Reg.detCount 0x71) 0 + 1) % 2 ^ 32
      ∧ (s.integ.wedges.length < 16 → t.integ.wedges.length = s.integ.wedges.length + 1)))

/-! ## Serial ports -/

/-- R126, R132 to R137, R139, R143, R149: characters go to the raw FIFO or to the framer, with their error flags; a start character opens a
sentence, and its LF closes it into a record or rejects it by its checksum; reads of status and data; gaps, breaks and held lines, on a
line whose fall the receiver saw and on one that it found low at PORT_ENABLE; no break is recorded on a line that is held. -/
def Obligations.SerialReceive : Prop :=
  ∀ (s : State) (p : Fin 128),
    let v := serial s p
    let status (b : Nat) (t : State) : Bool := regB t (Reg.spStatus p) b
    let counted (t : State) (off lo : Nat) : Prop := total t off lo = (total s off lo + 1) % 2 ^ 32
    (bar0Ok s = true → ∃ t, exec (.spStatusRead p) s = .next t ∧ t.out = s.out ++ [.readReply 0 (Reg.spStatus p) (wordBytes (spStatus s p))]
      ∧ serial t p = { v with armed := fld (spStatus s p) 31 29 } ∧ t = { s with serial := t.serial, out := t.out })
    ∧ (bar0Ok s = true → ∃ t, exec (.spDataRead p) s = .next t ∧ (serial t p).armed = 0
      ∧ regF t (Reg.spStatus p) 31 29 = regF s (Reg.spStatus p) 31 29 - (regF s (Reg.spStatus p) 31 29 &&& v.armed)
      ∧ SameRegs s t [Reg.spStatus p]
      ∧ (∀ c cs, spMode s p = 2 → v.fifo = c :: cs → (serial t p).fifo = cs
        ∧ t.out = s.out ++ [.readReply 0 (Reg.spData p) (wordBytes (rawWord c))])
      ∧ (spMode s p = 2 → v.fifo = [] → t.out = s.out ++ [.readReply 0 (Reg.spData p) (wordBytes 0)]))
    ∧ (∀ (ch : Byte) (pBit low : Bool) (taps : Fin 256), rxOn s p = true → rxHunts s p = true → s.integ.arms = [] →
      leashObey s p = false → status 12 s = false →
      let d := charMask s p ch
      let pe := (parityBit (regF s (Reg.spFormat p) 4 2) d).isSome && parityBit (regF s (Reg.spFormat p) 4 2) d != some pBit
      ∃ t, exec (.serialCharacter p ch pBit low taps) s = .next t
      ∧ (low = true → spMode s p ≠ 1 → status 31 t = true ∧ FiredOnce s t 0x10)
      ∧ (pe = true → spMode s p ≠ 1 → status 30 t = true ∧ FiredOnce s t 0x11)
      ∧ (spMode s p = 2 → regB s (Reg.spCtrl p) 28 = false → v.fifo.length < 64 → (serial t p).fifo = v.fifo ++ [⟨d, low, pe⟩])
      ∧ (spMode s p = 2 → regB s (Reg.spCtrl p) 28 = false → 64 ≤ v.fifo.length → (serial t p).fifo = v.fifo ∧ FiredOnce s t 0x12)
      ∧ (spMode s p = 0 → v.framer = .hunt → d = 0x24#8 ∨ d = 0x21#8 → (serial t p).text = [d] ∧ (serial t p).framer = .sentence
        ∧ (serial t p).lastChar = some ⟨d, low, pe⟩)
      ∧ (spMode s p = 0 → v.framer = .sentence → d = 0x0A#8 → v.text.length < 256 → tdcOverdue s p = false →
        v.first.any (fun f => f.epoch != (tdcPos s p taps).2.2) = false →
        (serial t p).text = [] ∧ (serial t p).framer = .hunt
        ∧ ((sumPolicy (regF s (Reg.spFramer p) 1 0) (judgeText (v.text ++ [d])).verdict).isSome = true → counted t (Reg.spRxCount p) 0)
        ∧ (sumPolicy (regF s (Reg.spFramer p) 1 0) (judgeText (v.text ++ [d])).verdict = none →
          counted t (Reg.spRxErr p) 0 ∧ FiredOnce s t 0x15)))
    ∧ (∀ taps : Fin 256, rxOn s p = true → ∃ t, exec (.serialFalseStart p taps) s = .next t ∧ (serial t p).idleTb = s.time.tb
      ∧ (serial t p).fifo = v.fifo ∧ (rxHunts s p = true → (serial t p).needIdle = false))
    ∧ (∀ tb, ticking s = true → v.xoffTb = some tb → regF s (Reg.spLeashTimeout p) 15 0 ≠ 0 →
      regF s (Reg.spLeashTimeout p) 15 0 * 250000 ≤ s.time.tb - tb → ∃ t, exec (.leashTimeout p) s = .next t
      ∧ status 13 t = false ∧ (serial t p).xoffTb = none ∧ counted t (Reg.spTxErr p) 0)
    ∧ (rxOn s p = true → spMode s p = 2 → v.text ≠ [] → v.idleTb ≤ s.time.tb →
      charsTicks s p (max 1 (regF s (Reg.spCtrl p) 15 8)) ≤ s.time.tb - v.idleTb → ∃ t, exec (.rawGapClose p) s = .next t
      ∧ (serial t p).text = [] ∧ counted t (Reg.spRxCount p) 0)
    ∧ (∀ l, ticking s = true → portEn s 0 p = true → isWedged s (unitSerial p) = false → lowLevel s p = some l →
      (status 15 s = true → exec (.lineBreak p) s = .next s)
      ∧ (status 14 s = false → status 15 s = false → charsTicks s p 2 ≤ s.time.tb - l.1 → spMode s p ≠ 2 → ∃ t, exec (.lineBreak p) s = .next t
        ∧ status 14 t = true ∧ counted t (Reg.spRxDiscard p) 0 ∧ counted t (Reg.spRxCount p) 0 ∧ (serial t p).text = [])
      ∧ (status 15 s = false → s.integ.arms = [] → regF s (Reg.spHold p) 15 0 ≠ 0 → regF s (Reg.spHold p) 15 0 * 250000 ≤ s.time.tb - l.1 →
        ∃ t, exec (.lineHeld p) s = .next t ∧ status 15 t = true ∧ FiredOnce s t 0x13)
      ∧ ∃ t, exec (.lineRelease p) s = .next t ∧ (serial t p).low = none ∧ (serial t p).needIdle = true ∧ (serial t p).idleTb = s.time.tb
        ∧ status 15 t = false ∧ status 14 t = false)

/-- R124, R128 to R131, R141, R146, R147: an item is staged, with the bytes that its run of the pool holds; it starts on the line at an edge
within 25 ps (1 639 units of 2^-16 ns, cut down to a whole number) of a PS edge or of the end before it, with its bytes cut to the data bits
of a character, and departs with its stamp and count; new settings apply at the character boundary of each direction, and the PORT_SET ends
with the later; a half-duplex attempt that collides stops driving and is tried again after a gap, up to eight times. -/
def Obligations.SerialTransmit : Prop :=
  ∀ (s : State) (p : Fin 128), ticking s = true →
    let v := serial s p
    let counted (t : State) (off lo : Nat) : Prop := total t off lo = (total s off lo + 1) % 2 ^ 32
    let others (t : State) : Prop := ∀ q, q ≠ p.val → serial t q = serial s q
    let nearest50ps (at_ e : Int) : Prop := (at_ - e).natAbs ≤ 1639 ∧ ∃ q : Int, at_ = q * 16384 / 5
    (∀ slot at_ k, v.setTx = some (slot, at_, k) → at_ ≤ tbTime s → ∃ t, exec (.serialSettingsApply p false) s = .next t
      ∧ (serial t p).setTx = none ∧ (v.setRx = none → cmdAt t slot = none) ∧ others t)
    ∧ (∀ slot tb, v.setRx = some (slot, tb) → (tb ≤ s.time.tb → ∃ t, exec (.serialSettingsApply p true) s = .next t
        ∧ (serial t p).setRx = none ∧ (v.setTx = none → cmdAt t slot = none) ∧ others t)
      ∧ (s.time.tb < tb → exec (.serialSettingsApply p true) s = .next s))
    ∧ (∀ c, txFree s p = true → spMode s p ≠ 1 → s.integ.arms = [] →
      (∀ i, i < 8 + ceilDiv c.len 4 → memGood (memGet s .pool (16 * c.gran + i)) = true) →
      bestCand s (candidates s 1 p none 256 []) = some (.copy c) →
      s.lq.copies.any (fun c => boundTo c.w0 1 p none && c.launch.isSome && copyReady s 256 c) = true →
      ∃ t, exec (.serialItemStage p) s = .next t
      ∧ (serial t p).staged = some (txItem { c with body := poolBody s c } (stageLate s c))
        ∧ t.lq.copies = s.lq.copies.filter (fun d => d.arrival != c.arrival)
      ∧ counted t (Reg.lqSent c.listener) 0 ∧ others t)
    ∧ (∀ it, v.staged = some it → portEn s 0 p = true → owns s (epSerial p) = true → spMode s p ≠ 1 → v.run = none →
      regB s (Reg.spStatus p) 13 = false → v.freeAt ≤ tbTime s → it.launch = none → it.tag = none →
      ∃ t r, exec (.serialItemStart p) s = .next t ∧ (serial t p).run = some r ∧ (serial t p).staged = none
      ∧ r.item = it ∧ r.bytes = it.body.map (fun b => b &&& BitVec.ofNat 8 (2 ^ (5 + regF s (Reg.spFormat p) 1 0) - 1))
      ∧ r.endAt = r.startAt + (charsTime s p it.body.length : Nat)
      ∧ (∃ e : Int, v.freeAt ≤ e ∧ e < tbTime s + 555556 ∧ nearest50ps r.startAt e)
      ∧ t.out = s.out ++ [.serialItem p r.bytes r.start.stamp] ∧ others t
      ∧ t = { s with serial := t.serial, out := t.out, freeCount := t.freeCount })
    ∧ (∀ r, v.run = some r → r.pause = none → v.setTx = none → r.endAt ≤ tbTime s → ∃ t, exec (.serialItemEnd p) s = .next t
      ∧ (serial t p).run = none ∧ (serial t p).freeAt = r.endAt ∧ counted t (Reg.spTxCount p) 0
      ∧ reg t (Reg.spTxStampSec p) = BitVec.ofNat 32 (stSec r.start.stamp) ∧ reg t (Reg.spTxStampNs p) = BitVec.ofNat 32 (stNs r.start.stamp)
      ∧ others t)
    ∧ (∀ it, epOpen s 1 p = true → spMode s p = 1 → v.run = none → v.setTx = none → v.staged = some it → gapOver s p v.gap v.gapTb = true →
      s.integ.arms = [] → it.launch = none → it.tag = none → ∃ t r, exec (.halfDuplexAttempt p) s = .next t
      ∧ (serial t p).run = some r ∧ r.bytes = it.body.map (charMask s p) ∧ (serial t p).staged = none ∧ others t)
    ∧ (∀ r, v.run = some r → spMode s p = 1 → ∃ t, exec (.collision p) s = .next t ∧ (serial t p).run = none ∧ counted t (Reg.spTxErr p) 24
      ∧ (∃ os, t.out = s.out ++ .serialStop p :: os) ∧ others t
      ∧ (v.attempts < 7 → (serial t p).staged = some { r.item with late := false, launch := none } ∧ (serial t p).attempts = v.attempts + 1
        ∧ 1 ≤ (serial t p).gap ∧ (serial t p).gap ≤ 16)
      ∧ (7 ≤ v.attempts → (serial t p).staged = none ∧ (serial t p).attempts = 0 ∧ counted t (Reg.spTxErr p) 16 ∧ counted t (Reg.detCount 0x14) 0))

/-! ## Event inputs, event outputs, calibration and monitors -/

/-- R106 to R114: an edge at an input becomes a candidate level with the stamp of its conversion; a level that has held for the width is
accepted and recorded; a coalesced record closes as a BURST, and a held level as a HELD record; the FIFO hands its oldest record on. -/
def Obligations.EventInputs : Prop :=
  ∀ (s : State) (i : Fin 32), eiOn s i = true →
    let v := evIn s i
    let others (t : State) : Prop := ∀ j, j ≠ i.val → evIn t j = evIn s j
    let grew (t : State) (first : Edge) (kind : Nat) (lost : Nat) : Prop :=
      eiRoute s i ≠ 0 → ∃ r, (evIn t i).fifo = v.fifo ++ [r] ∧ r.edge = first ∧ (r.words.getD 0 0).toNat / 2 ^ 28 = kind
        ∧ (r.words.getD 0 0).toNat % 2 ^ 16 = i.val ∧ (r.words.drop 1).take 3 = stampWords first.stamp ∧ r.words.getD 7 0 = BitVec.ofNat 32 lost
    (∀ (taps : Fin 256), v.cand = none → tdcOverdue s (128 + i) = false → (v.convAt = none) →
      ∃ t e, exec (.eiEdge i (!v.ball) taps) s = .next t ∧ (evIn t i).ball = !v.ball ∧ others t
      ∧ e.stamp = stMove (now s) (sext 24 (regF s (Reg.tdcAdj (128 + i)) 23 0) - sext 20 (regF s (Reg.tdcSkew (128 + i)) 19 0)
          - ((tdcPos s (128 + i) taps).2.1 : Int))
      ∧ (v.level = v.ball → (evIn t i).cand = some (tbTime s - ((tdcPos s (128 + i) taps).2.1 : Int), some e)))
    ∧ (∀ (taps : Fin 256), exec (.eiEdge i v.ball taps) s = .next s)
    ∧ (∀ at_ e, v.cand = some (at_, some e) → eiWidthUnits s i ≤ tbTime s - at_ → s.integ.arms = [] → ppsInput s ≠ some i.val →
      v.burst = none → v.burstNext = false → v.fifo.length < 64 → eiActive s i (!v.level) = true → ∃ t, exec (.eiLevelAccepted i) s = .next t
      ∧ (evIn t i).level = !v.level ∧ (evIn t i).cand = none ∧ (evIn t i).activeTb = some s.time.tb ∧ others t ∧ grew t e 0 0
      ∧ t = { s with evIn := t.evIn })
    ∧ (∀ b f, v.burst = some b → b.first = some f → eiRoom s i = true → (250 ≤ s.time.tb - b.lastTb ∨ 2500000 ≤ s.time.tb - b.openTb) →
      ∃ t, exec (.burstClose i) s = .next t ∧ (evIn t i).burst = none ∧ others t ∧ grew t f 2 (min b.lost 0xFFFFFFFF)
      ∧ total t (Reg.eiCounts i) 0 = (total s (Reg.eiCounts i) 0 + 1) % 2 ^ 32 ∧ FiredOnce s t 0x39)
    ∧ (∀ tb f, v.activeTb = some tb → v.held = false → v.burst = none → v.activeEdge = some f → regF s (Reg.eiHold i) 15 0 ≠ 0 →
      regF s (Reg.eiHold i) 15 0 * 250000 ≤ s.time.tb - tb → ∃ t, exec (.eiHeld i) s = .next t ∧ (evIn t i).held = true ∧ others t
      ∧ grew t f 3 0 ∧ FiredOnce s t 0x38)
    ∧ (∀ r rs, v.fifo = r :: rs → r.toKennel = true → r.toRing = false →
      exec (.eiFifoDrain i) s = .next (setEvIn (admitRecord s (eiArrived i r)) i { v with fifo := rs }))

/-- R116 to R120: a target is queued in time order, or counted as late or refused; the edges of the earliest target of the queue are fixed when it
is due, the leading edge within 25 ps of the target with the adjustment; the pulse ends exactly its width behind that edge; a port that is
disabled or not owned drives nothing, and one that is enabled and owned the inactive level between pulses. -/
def Obligations.EventOutputs : Prop :=
  ∀ (s : State) (m : Fin 8),
    let o := evOut s m
    let others (t : State) : Prop := ∀ j, j ≠ m.val → evOut t j = evOut s j
    (∀ frac : Word, bar0Ok s = true →
      let g : EoTarget := ⟨o.heldSec, o.heldNs, frac.setWidth 16, s.time.tb⟩
      (16 * 65536 ≤ eoAhead s g → o.queue.length < 16 →
        exec (.eoPulseQueue m frac) s = .next (setEvOut s m { o with queue := insertBy eoLe g o.queue }))
      ∧ (eoAhead s g < 16 * 65536 → exec (.eoPulseQueue m frac) s = .next (count s (Reg.eoCounts m) 31 24 1))
      ∧ (16 * 65536 ≤ eoAhead s g → 16 ≤ o.queue.length → exec (.eoPulseQueue m frac) s = .next (count s (Reg.eoCounts m) 15 8 1)))
    ∧ (∀ g gs, ticking s = true → isWedged s (unitOf 4 m) = false → portEn s 4 m = true → owns s (epOut m) = true → o.closing = none →
      o.active = [] → o.trailAt = none → o.cmpHits = [] → eoCmpTarget s m = none → o.gen = none → o.queue = g :: gs → eoDue s m g = true →
      let adj := sext 24 (regF s (Reg.eoAdj m) 23 0)
      let lead := tbTime s + eoAhead s g + adj
      let target : Int := ((g.sec.toNat * 1000000000 + g.ns.toNat : Nat) : Int) * 65536 + (g.frac.toNat : Int) + adj
      let high := !regB s (Reg.eoCtrl m) 30
      ∃ t at_, exec (.eoPulse m) s = .next t ∧ (evOut t m).queue = gs
      ∧ (evOut t m).active = [⟨lead, lead + (eoWidth s m * 65536 : Nat), high, at_, eoWidth s m⟩]
      ∧ t.out = s.out ++ [.pulseLead m high at_] ∧ (at_ * 32768 - target * 10).natAbs ≤ 16384 ∧ others t
      ∧ t = { s with evOut := t.evOut, out := t.out, freeCount := t.freeCount })
    ∧ (∀ p ps, ticking s = true → o.active = p :: ps → p.trailAt ≤ tbTime s → ∃ t, exec (.eoPulseEnd m) s = .next t
      ∧ (evOut t m).active = ps ∧ (evOut t m).trailAt = some p.trailAt ∧ others t
      ∧ (ps ≠ [] ∨ o.closing = none → t.out = s.out ++ [.pulseTrail m (!p.high) (p.at50ps + 20 * (p.width : Int))] ∧ SameRegs s t [])
      ∧ ∀ slot n, ps = [] → o.closing = some (slot, n) → cmdAt t slot = none ∧ regB t (Reg.eoCtrl m) 31 = false)
    ∧ ((portEn s 4 m = false ∨ owns s (epOut m) = false → eoBall s m = .highZ)
      ∧ (portEn s 4 m = true → owns s (epOut m) = true → o.active = [] → eoBall s m = .level (regB s (Reg.eoCtrl m) 30)))

/-- R79 to R84: dither starts at the midpoint of a slow interval; an interval that holds its hits commits a table with the next epoch, or is
refused and reported; a condition that has moved restarts it; an idle TDC switches to the newest table. -/
def Obligations.Calibration : Prop :=
  ∀ (s : State) (g : Fin 8), ticking s = true →
    let r := region s g
    let elapsed := s.time.tb - r.startTb
    let others (t : State) : Prop := ∀ h, h ≠ g.val → region t h = region s h
    let committed (t : State) : Prop :=
      (region t g).epoch = (if r.epoch = 15 then 1 else r.epoch + 1) ∧ (region t g).newest = (if r.newest = 1 then 2 else 1)
        ∧ (region t g).hits = 0 ∧ (region t g).startTb = s.time.tb ∧ (region t g).commit = now s
        ∧ bufEpoch (region t g) (region t g).newest = (region t g).epoch ∧ g.val ∈ t.vid.committed
        ∧ reg t (Reg.calCommitNs g) = BitVec.ofNat 32 (stNs (now s))
    let refused (t : State) : Prop :=
      total t (Reg.calRefused g) 0 = (total s (Reg.calRefused g) 0 + 1) % 2 ^ 32 ∧ FiredOnce s t 0x32 ∧ (region t g).hits = 0
        ∧ (region t g).newest = r.newest
    let whole := calTarget r ≤ r.hits ∧ s.integ.arms = [] ∧ r.run = none
    let sound := sget 0 r.hist 255 = 0 ∧ badWidth r.hist r.hits = none ∧ bufHeld s g = false
    (r.mode = .collect → calInterval r ≤ 2 * elapsed → 2 * r.hits < calTarget r →
      exec (.calMidpoint g) s = .next (setRegion s g { r with mode := .dither }))
    ∧ (∀ d, r.mode = .collect → calInterval r ≤ elapsed →
      (r.hits < calTarget r → exec (.calIntervalEnd g d) s = .next (setRegion s g { r with mode := .dither }))
      ∧ (whole → sound → ∃ t, exec (.calIntervalEnd g d) s = .next t ∧ committed t ∧ others t)
      ∧ (whole → sget 0 r.hist 255 ≠ 0 → ∃ t, exec (.calIntervalEnd g d) s = .next t ∧ refused t ∧ others t))
    ∧ (r.mode = .dither → calInterval r ≤ elapsed → whole → sound →
      (∃ t, exec (.calHitsReached g []) s = .next t ∧ committed t ∧ others t) ∧ ∃ t, exec (.calIntervalEnd g []) s = .next t ∧ committed t ∧ others t)
    ∧ (∀ temp mv : BitVec 16,
      let cond := reg s (Reg.calCond g)
      let far := 2 * max 1 (fld r.ctl 23 16) ≤ (temp.toInt - sext 16 (fld cond 15 0)).natAbs
        ∨ max 5 (fld r.ctl 30 24) ≤ ((mv.toNat : Int) - (fld cond 31 16 : Nat)).natAbs
      ∃ t, exec (.calTrigger g temp mv) s = .next t ∧ (region t g).temp = temp ∧ (region t g).mv = mv
      ∧ reg t (Reg.monRegion g) = BitVec.ofNat 32 (mv.toNat * 65536 + temp.toNat) ∧ SameRegs s t [Reg.monRegion g] ∧ others t
      ∧ (¬far → (region t g).hits = r.hits ∧ (region t g).startTb = r.startTb)
      ∧ (far → r.epoch ≠ 0 → r.trigged = false → r.mode = .collect ∨ r.mode = .dither →
        (region t g).hits = 0 ∧ (region t g).startTb = s.time.tb ∧ (region t g).trigged = true))
    ∧ (∀ x : Fin 164, tdcIdle s x = true → tdcUse s x ≠ (region s (tdcRegion x)).newest → (region s (tdcRegion x)).waiting = none →
      ∃ t, exec (.tdcTableSwitch x) s = .next t ∧ tdcUse t x = (region s (tdcRegion x)).newest
      ∧ (∀ y, y ≠ x.val → tdcUse t y = tdcUse s y) ∧ t = { s with tdcUse := t.tdcUse })

/-- R22 to R25, R347, R348: a window's occupancy is shown in percent and judged; the code moves by one toward what is asked; a temperature
beyond a limit, and a second consecutive sample of VCORE outside its band, are reported once. -/
def Obligations.VoltageAndMonitors : Prop :=
  ∀ (s : State), ticking s = true →
    (s.vid.windows < drainMs s / 10 → ∃ t, exec .occupancyWindowEnd s = .next t ∧ t.vid.busy = 0 ∧ t.vid.online = 0
      ∧ t.vid.windows = s.vid.windows + 1 ∧ SameRegs s t [Reg.vidStatus] ∧ vidCode t = vidCode s
      ∧ (s.vid.online ≠ 0 → s.vid.busy ≤ s.vid.online →
        s.vid.online * regF t Reg.vidStatus 15 9 ≤ 100 * s.vid.busy + s.vid.online
        ∧ 100 * s.vid.busy < s.vid.online * (regF t Reg.vidStatus 15 9 + 1)
        ∧ (min 100 (regF s Reg.vidCtrl 30 24) * s.vid.online < 100 * s.vid.busy → t.vid.want = if vidMay s 1 then 1 else 0)
        ∧ (100 * s.vid.busy ≤ min 100 (regF s Reg.vidCtrl 30 24) * s.vid.online →
          100 * s.vid.busy < min 100 (regF s Reg.vidCtrl 22 16) * s.vid.online → t.vid.want = if vidMay s 2 then 2 else 0)))
    ∧ (vidFree s = true → vidWant s ≠ 0 → vidCode s ≤ 14 → ∃ t, exec .vidCodeChange s = .next t
      ∧ (vidWant s = 1 → vidCode t = vidCode s + 1) ∧ (vidWant s = 2 → vidCode t + 1 = vidCode s)
      ∧ t.out = s.out ++ [.vid (vidCode t)] ∧ t.vid.committed = [] ∧ SameRegs s t [Reg.vidStatus])
    ∧ (vidFree s = false → exec .vidCodeChange s = .next s)
    ∧ (∀ (g : Fin 8) (temp : BitVec 16), s.integ.arms = [] →
      let hi := 8 * sext 16 (regF s Reg.monTemp 31 16)
      let lo := 8 * sext 16 (regF s Reg.monTemp 15 0)
      ∃ t, exec (.tempMonitorSample g temp) s = .next t ∧ regF t (Reg.monRegion g) 15 0 = temp.toNat
      ∧ (∀ h, h ≠ g.val → region t h = region s h)
      ∧ (hi < temp.toInt → (region t g).tempHi = true ∧ ((region s g).tempHi = false → FiredOnce s t 0x68))
      ∧ (lo ≤ temp.toInt → temp.toInt ≤ hi → t.out = s.out ∧ SameRegs s t [Reg.monRegion g])
      ∧ (temp.toInt ≤ hi - 40 → (region t g).tempHi = false))
    ∧ (∀ (g : Fin 8) (mv : BitVec 16), s.integ.arms = [] → s.vid.changed = false →
      let req := 810 + 10 * vidCode s
      let above := req + max 1 (regF s Reg.monVcore 31 16) < mv.toNat
      let below := mv.toNat + max 1 (regF s Reg.monVcore 15 0) < req
      ∃ t, exec (.vcoreMonitorSample g mv) s = .next t ∧ regF t (Reg.monRegion g) 31 16 = mv.toNat ∧ (region t g).mv = mv
      ∧ (¬above → ¬below → (region t g).vcoreOut = 0 ∧ t.out = s.out)
      ∧ (above → 0 < (region s g).vcoreOut → (region s g).vcoreSaid = false → FiredOnce s t 0x69 ∧ (region t g).vcoreSaid = true)
      ∧ (above → (region s g).vcoreOut ≤ 0 → (region t g).vcoreOut = 1 ∧ t.out = s.out))

/-! ## CAN and Ethernet -/

/-- R246, R249 to R251, R253 to R255, R158: a received frame is acknowledged but in listen-only mode, and enters the queue that its first matching
filter names, with its SOF stamp; the intake takes RXQ0 first and admits a record with the talker key of the frame, or lets a fast-packet
message grow, which times out; of a listed PGN it takes classic frames of DLC 8 alone. -/
def Obligations.CanReception : Prop :=
  ∀ (s : State) (n : Fin 8),
    let v := can s n
    let counted (t : State) (off lo : Nat) : Prop := total t off lo = (total s off lo + 1) % 2 ^ 32
    let others (t : State) : Prop := ∀ m, m ≠ n.val → can t m = can s m
    let acked (t : State) : Prop := t.out = (if regF s (Reg.cnCtrl n) 30 29 = 1 then s.out else s.out ++ [.canAck n])
    (∀ f : CanFrame, canOn s n = true → v.mode = .active → s.integ.arms = [] →
      (f.remote = false → regB s (Reg.cnCtrl n) 25 = false → exec (.canFrameReceived n f true) s = .next s)
      ∧ (f.remote = true → ∃ t, exec (.canFrameReceived n f false) s = .next t ∧ (can t n).rxq0 = v.rxq0 ∧ (can t n).rxq1 = v.rxq1
        ∧ counted t (Reg.cnRxLost n) 8 ∧ acked t ∧ others t)
      ∧ (∀ k, f.remote = false → (List.range 32).find? (fun k => canMatches s n k f) = some k →
        regB s (Reg.cnFltCfg n k) 30 = false → (regB s (Reg.cnFltCfg n k) 29 = false → v.rxq0.length < 32) →
        (regB s (Reg.cnFltCfg n k) 29 = true → v.rxq1.length < 32) → ∃ t, exec (.canFrameReceived n f false) s = .next t
        ∧ (regB s (Reg.cnFltCfg n k) 29 = false → (can t n).rxq0 = v.rxq0 ++ [⟨f, canSof s n, false⟩] ∧ (can t n).rxq1 = v.rxq1
          ∧ counted t (Reg.cnRxCounts n) 16)
        ∧ (regB s (Reg.cnFltCfg n k) 29 = true → (can t n).rxq1 = v.rxq1 ++ [⟨f, canSof s n, false⟩] ∧ (can t n).rxq0 = v.rxq0
          ∧ counted t (Reg.cnRxCounts n) 0)
        ∧ (v.recv = 0 → (can t n).recv = 0) ∧ (1 ≤ v.recv → v.recv ≤ 127 → (can t n).recv = v.recv - 1)
        ∧ (127 < v.recv → 119 ≤ (can t n).recv ∧ (can t n).recv ≤ 127) ∧ (can t n).tec = v.tec ∧ acked t ∧ others t))
    ∧ (∀ x q0 q1, alive s = true → (v.rxq0 = x :: q0 ∧ v.rxq1 = q1) ∨ (v.rxq0 = [] ∧ q0 = [] ∧ v.rxq1 = x :: q1) →
      let taken := setCan s n { v with rxq0 := q0, rxq1 := q1 }
      let ident := x.frame.ident
      let n2k := canN2k s n && x.frame.ide
      let listed := n2k && (List.range 64).any fun i => regB s (Reg.cnFpPgn n i) 31 && regF s (Reg.cnFpPgn n i) 17 0 == canPgn ident
      let b0 := (x.frame.data.getD 0 0).toNat
      (listed = false → ∃ r, exec (.canIntake n) s = .next (admitRecord taken r)
        ∧ r.typ = 3 ∧ r.src = unitCan n ∧ r.first = x.stamp.stamp ∧ r.last = x.stamp.stamp ∧ r.payload = x.frame.data
        ∧ r.aux0 = canAux0 x.frame ∧ r.key = 2 ^ 92 + n * 2 ^ 88
            + (if n2k then canPgn ident * 2 ^ 64 + canName s n (ident.toNat % 256) else 2 ^ 87 + ident.toNat))
      ∧ (listed = true → x.frame.fdf = true ∨ x.frame.dlc ≠ 8#4 → exec (.canIntake n) s = .next (count taken (Reg.cnFpCounts n) 15 8 1))
      ∧ (∀ r f, listed = true → x.frame.fdf = false → x.frame.dlc = 8#4 → x.frame.data.length = 8 → b0 % 32 ≠ 0 →
        fpFind s n ident (b0 / 32) = some (r, f) →
        f.next = b0 % 32 → f.data.length + 7 < f.length → ∃ t, exec (.canIntake n) s = .next t
        ∧ (∃ g, fpAt t n r = some g ∧ g.data = f.data ++ x.frame.data.drop 1 ∧ g.next = f.next + 1 ∧ g.lastTb = s.time.tb)
        ∧ (∀ k, k ≠ r → fpAt t n k = fpAt s n k) ∧ others t ∧ t = { s with can := t.can, kennel := t.kennel, freeCount := t.freeCount }))
    ∧ (∀ (r : Fin 32) f, ticking s = true → fpAt s n r = some f →
      max 1 (regF s (Reg.cnFpCfg n) 15 0) * 250000 ≤ s.time.tb - f.lastTb → ∃ t, exec (.fastPacketTimeout n r) s = .next t
      ∧ fpAt t n r = none ∧ (∀ k, k ≠ r.val → fpAt t n k = fpAt s n k) ∧ counted t (Reg.cnFpCounts n) 24 ∧ others t
      ∧ t = { s with can := t.can, regs := t.regs, totals := t.totals })

/-- R257 to R266: the lane selects the frame that would win arbitration; a sent frame is counted, lowers TEC and leaves the lane, and one that
was not sent stays; errors raise TEC and REC, and TEC above 255 or a stuck bus puts the port into bus-off, which recovery ends. -/
def Obligations.CanLane : Prop :=
  ∀ (s : State) (n : Fin 8), s.integ.arms = [] → s.pair.releasing = [] →
    let v := can s n
    let counted (t : State) (off lo : Nat) : Prop := total t off lo = (total s off lo + 1) % 2 ^ 32
    let others (t : State) : Prop := ∀ m, m ≠ n.val → can t m = can s m
    let passive : Bool := decide (127 < v.tec) || decide (127 < v.recv)
    (laneSends s n = true → v.mode = .active → v.attempt = .none → v.stuck = false → laneOffers s n ≠ [] →
      ∃ t o, exec (.canLaneSelect n) s = .next t ∧ o ∈ laneOffers s n ∧ (∀ p, p ∈ laneOffers s n → arbKey o.2 ≤ arbKey p.2)
      ∧ (can t n).attempt = (match o.1 with
        | some x => .send x.slot
        | none => .copy) ∧ others t ∧ t.out = s.out)
    ∧ (∀ slot x, canOn s n = true → v.attempt = .send slot → v.sends.find? (fun x => x.slot == slot) = some x → x.lateCancel = false →
      v.closing = none → v.pendSet = none →
      (∃ t, exec (.canAttemptEnd n .sent) s = .next t ∧ (can t n).attempt = .none ∧ (can t n).tec = v.tec - 1
        ∧ (can t n).sends = v.sends.filter (fun y => y.slot != slot) ∧ cmdAt t slot = none ∧ counted t (Reg.cnTxCounts n) 16 ∧ others t)
      ∧ ∀ r, r ≠ .sent → exec (.canAttemptEnd n r) s = .next (setCan s n { v with attempt := .none }))
    ∧ (∀ c f g fs, canOn s n = true → v.attempt = .copy → v.slot = some c → c.frames = f :: g :: fs → v.closing = none →
      v.pendSet = none → ∃ t d, exec (.canAttemptEnd n .sent) s = .next t ∧ (can t n).attempt = .none ∧ (can t n).slot = some d
        ∧ d.frames = g :: fs ∧ d.sent = c.sent ++ [f] ∧ t.out = s.out ++ [.canFrame n { f with esi := f.fdf && passive }]
          ∧ counted t (Reg.cnTxCounts n) 16 ∧ others t)
    ∧ (∀ data inFlag exempt dominant, canOn s n = true → v.mode = .active →
      let runs := 8 * (dominant / 8)
      let flagged (t : State) : Prop :=
        regF s (Reg.cnCtrl n) 30 29 ≠ 1 → ∃ os, t.out = s.out ++ .canErrorFlag n (!passive) :: os
      (v.tec + 8 + runs ≤ 255 → ∃ t, exec (.canError n ⟨.bit, inFlag, exempt, dominant⟩ true data) s = .next t ∧ (can t n).tec = v.tec + 8 + runs
        ∧ (can t n).mode = .active ∧ counted t (Reg.cnErrCountsA n) 24 ∧ FiredOnce s t 0x20 ∧ flagged t ∧ others t)
      ∧ (255 < v.tec + 8 + runs → ∃ t, exec (.canError n ⟨.bit, inFlag, exempt, dominant⟩ true data) s = .next t ∧ (can t n).mode = .busOff
        ∧ (can t n).sends = [] ∧ (can t n).slot = none ∧ (can t n).attempt = .none ∧ counted t (Reg.cnErrCountsB n) 16 ∧ FiredOnce s t 0x25
        ∧ flagged t ∧ others t)
      ∧ (passive = true → v.tec + runs ≤ 255 → ∃ t, exec (.canError n ⟨.ack, false, true, dominant⟩ true data) s = .next t
        ∧ (can t n).tec = v.tec + runs ∧ FiredOnce s t 0x24 ∧ flagged t ∧ others t)
      ∧ (v.tec ≤ 255 → ∃ t, exec (.canError n ⟨.crc, inFlag, exempt, dominant⟩ false data) s = .next t
        ∧ (can t n).recv = min 255 (v.recv + (if inFlag = true then 8 else if 0 < dominant then 9 else 1) + runs)
        ∧ (can t n).tec = v.tec ∧ FiredOnce s t 0x22 ∧ flagged t ∧ others t))
    ∧ (bar0Writes s = true → v.mode = .busOff → regB s (Reg.cnCtrl n) 23 = false → v.recovering = false →
      exec (.cnRecoverStart n) s = .next (setCan s n { v with recovering := true, recov := 0 }))
    ∧ (canOn s n = true → v.mode = .busOff → v.recovering = true → v.stuck = false → exec (.busOffRecovered n) s =
        .next (setCan s n { v with mode := .active, tec := 0, recv := 0, recovering := false, recov := 128 }))
    ∧ (canOn s n = true → v.mode = .active → v.stuck = false → ∃ t, exec (.canStuck n) s = .next t ∧ (can t n).stuck = true
      ∧ (can t n).mode = .busOff ∧ counted t (Reg.cnErrCountsB n) 8 ∧ FiredOnce s t 0x26 ∧ others t)
    ∧ (canOn s n = true → exec (.canStuckRelease n) s = .next (setCan s n { v with stuck := false }))
    ∧ (∀ slot, canOn s n = true → v.mode = .integrating → v.pendApplied = some slot → ∃ t, exec (.canIntegrated n) s = .next t
      ∧ (can t n).mode = .active ∧ (can t n).pendApplied = none ∧ cmdAt t slot = none ∧ others t)
    ∧ (canOn s n = true → v.mode = .integrating → v.pendApplied = none →
      exec (.canIntegrated n) s = .next (setCan s n { v with mode := .active }))

/-- R99, R101, R268 to R276, R288: PHY management frames; the link goes up and down; a received frame is judged and goes to the 61162-450
intake, with the name and the settings in force as the MAC accepts it, or is dropped; a datagram is split, and a good part is admitted under the
key of its source and group, judged under those settings; the timers of the PTP engine
put a Sync, a Delay_Req or a Pdelay_Req with the next sequence number into the port's queue. That the messages carry the fields in this
layout is PRESUMED of IEEE 1588-2019 (log 40). -/
def Obligations.EthernetPorts : Prop :=
  (∀ (s : State) (n : Fin 4),
     let v := eth s n
     let counted (t : State) (off lo : Nat) : Prop := total t off lo = (total s off lo + 1) % 2 ^ 32
     let others (t : State) : Prop := ∀ m, m ≠ n.val → eth t m = eth s m
     (∀ w : Word, bar0Writes s = true → regB s Reg.ethMdioCmd 31 = true → exec (.ethMdioCmd w) s = .next s)
     ∧ (∀ w : Word, bar0Writes s = true → regB s Reg.ethMdioCmd 31 = false → ∃ t, exec (.ethMdioCmd w) s = .next t
       ∧ reg t Reg.ethMdioCmd = (w &&& 0x73FFFFFF#32) ||| 0x80000000#32 ∧ regB t Reg.ethMdioData 31 = false
       ∧ t.out = s.out ++ [.mdio (w &&& 0x73FFFFFF#32)] ∧ SameRegs s t [Reg.ethMdioCmd, Reg.ethMdioData]
       ∧ t = { s with regs := t.regs, out := t.out })
     ∧ (∀ d : BitVec 16, alive s = true → regB s Reg.ethMdioCmd 31 = true → ∃ t, exec (.mdioFrameDone d) s = .next t
       ∧ regB t Reg.ethMdioCmd 31 = false
       ∧ reg t Reg.ethMdioData = (if 2 ≤ regF s Reg.ethMdioCmd 29 28 then BitVec.ofNat 32 (2 ^ 31 + d.toNat) else reg s Reg.ethMdioData)
       ∧ SameRegs s t [Reg.ethMdioCmd, Reg.ethMdioData] ∧ t = { s with regs := t.regs })
     ∧ (ethOn s n = true → n.val ∉ s.integ.lost →
       (v.link = false → ∃ t, exec (.linkChange n true false) s = .next t ∧ (eth t n).link = true ∧ others t
         ∧ t.host.evSeq = (s.host.evSeq + 1) % 65536)
       ∧ (v.link = true → s.pair.releasing = [] → v.closing = none → ∃ t, exec (.linkChange n false false) s = .next t
         ∧ (eth t n).link = false ∧ (eth t n).tx = none ∧ (eth t n).launches = [] ∧ (eth t n).ptp.queue = []
         ∧ (∀ f, f ∈ v.launches → cmdAt t f.slot = none) ∧ others t ∧ t.host.evSeq = (s.host.evSeq + 1) % 65536))
     ∧ (∀ (bs : List Byte) (fcs : Word) (taps : Fin 256), ethOn s n = true → v.link = true → n.val ∉ s.integ.lost → s.integ.arms = [] →
       let e := (convert s (160 + n) taps).2
       let size := bs.length + 4
       let sound := 64 ≤ size ∧ size ≤ (if beAt bs 12 2 = 0x8100 then 1522 else 1518)
       let good := sound ∧ fcs = crc32 bs ∧ ethType bs ≠ 0x8808
       ∃ t, exec (.ethFrameReceived n bs fcs taps) s = .next t ∧ others t
       ∧ (¬sound → counted t (Reg.ethRxErr n) 8 ∧ FiredOnce s t 0x28 ∧ (eth t n).buffer = v.buffer)
       ∧ (sound → fcs ≠ crc32 bs → counted t (Reg.ethRxErr n) 16 ∧ FiredOnce s t 0x28 ∧ (eth t n).buffer = v.buffer)
       ∧ (good → ethAccepts s n bs = false → counted t (Reg.ethRxDrop n) 16 ∧ (eth t n).buffer = v.buffer)
       ∧ (good → ethAccepts s n bs = true → counted t (Reg.ethRxFrames n) 0
         ∧ (∀ g, isPtp bs = false → eth450 s n bs = some g → ipSumGood bs = true → udpSumGood bs = true →
           (v.buffer.map (·.size)).sum + size ≤ 16384 → (eth t n).buffer = v.buffer ++
             [⟨bs, e, g, size, reg s (Reg.ethGrpName n g), regF s (Reg.ethRxCfg n) 27 26, reg s (Reg.ethDupCfg n)⟩])
         ∧ (isPtp bs = false → eth450 s n bs = none → regB s (Reg.ethRxCfg n) 30 = false → (v.buffer.map (·.size)).sum + size ≤ 16384 →
           counted t (Reg.ethRxDrop n) 8 ∧ (eth t n).buffer = v.buffer)))
     ∧ (∀ d rest bs, ticking s = true → s.integ.arms = [] → v.buffer = d :: rest →
       let pieces := splitParts ((udpBytes d.bytes).drop 14) .start []
       let taken := setEth s n { v with buffer := rest }
       let unlined := count (count taken (Reg.eth450Counts n) 7 0 1) (Reg.eth450Counts n) 31 16 1
       (pieces = [.part bs] → bs.length ≤ 256 → sumPolicy d.sum (judgeText bs).verdict ≠ none →
         partSfi (partFields 256 bs) = none → ∃ r, exec (.ethDatagramSplit n) s = .next (admitRecord unlined r)
         ∧ r.typ = 4 ∧ r.src = unitEth n ∧ r.key = 2 * 2 ^ 92 + d.name.toNat ∧ r.payload = bs ∧ r.first = d.stamp.stamp)
       ∧ (pieces = [.malformed] → ∃ t, exec (.ethDatagramSplit n) s = .next t ∧ (eth t n).buffer = rest ∧ others t
         ∧ counted t (Reg.eth450Err n) 24 ∧ FiredOnce s t 0x29)))
  ∧ (∀ (s : State) (p : Fin 4), ethOn s p = true → (eth s p).link = true →
       let v := (eth s p).ptp
       let plain := regB s (Reg.ptpCtrl p) 27 = false ∧ regB s (Reg.ptpCtrl p) 15 = false
       let message (f : PtpFrame) (type seq dst : Nat) : Prop :=
         60 ≤ f.bytes.length ∧ beAt f.bytes 0 6 = dst ∧ beAt f.bytes 12 2 = 0x88F7 ∧ ptpType f.bytes 14 = type ∧ ptpSeq f.bytes 14 = seq % 65536
           ∧ (f.bytes.drop 34).take 10 = ptpId s p
       let kept (t : State) : Prop := (∀ q, q ≠ p.val → eth t q = eth s q) ∧ t = { s with eth := t.eth, freeCount := t.freeCount }
       (ptpState s p = 1 → ptpInterval (regF s (Reg.ptpMsg p) 11 8) ≤ s.time.tb - v.syncTb → ∃ t f, exec (.ptpSyncTimer p) s = .next t
         ∧ (eth t p).ptp = { v with queue := v.queue ++ [f], syncTb := s.time.tb, syncSeq := (v.syncSeq + 1) % 65536 }
         ∧ f.kind = .sync ∧ (plain → message f 0 v.syncSeq 0x011B19000000) ∧ kept t)
       ∧ (ptpState s p = 2 → regB s (Reg.ptpCtrl p) 25 = false → ∃ t f, exec (.ptpDelayReqTimer p) s = .next t
         ∧ (eth t p).ptp = { v with queue := v.queue ++ [f], dreqSeq := (v.dreqSeq + 1) % 65536 }
         ∧ f.kind = .delayReq ∧ (plain → message f 1 v.dreqSeq 0x011B19000000) ∧ kept t)
       ∧ (ptpState s p ≠ 0 → regB s (Reg.ptpCtrl p) 25 = true → ptpInterval (regF s (Reg.ptpMsg p) 3 0) ≤ s.time.tb - v.pdreqTb →
         ∃ t f, exec (.ptpPdelayReqTimer p) s = .next t
         ∧ (eth t p).ptp = { v with queue := v.queue ++ [f], pdreqTb := s.time.tb, pdreqSeq := (v.pdreqSeq + 1) % 65536 }
         ∧ f.kind = .pdelayReq ∧ (plain → message f 2 v.pdreqSeq 0x0180C200000E) ∧ kept t))

/-! ## The cabinet bus -/

/-- R290, R293 to R300, R305, R306, R308: a BAR4 access is served by the window that covers it, or counted; posted writes, reads and the
locked sequence take the bus as the next cycle; no write is taken while 128 cycles are posted; windows, the log, fences, prefetch lines and the
disable of the bridge, which answers no far read any more, do as their rules say. -/
def Obligations.BridgeAccesses : Prop :=
  ∀ (s : State),
    let b := s.bridge
    (∀ off bs en, 2 ^ 24 < off + bs.length → 2 ^ 24 < off + en.length → exec (.bar4Write off bs) s = .fault .outsideBar
      ∧ exec (.bar4Read off en) s = .fault .outsideBar ∧ ∀ x, exec (.bar4UnservedAccess x off en) s = .fault .outsideBar)
    ∧ (∀ off bs, powered s = true → off + bs.length ≤ 2 ^ 24 → served s off bs.length = none →
      exec (.bar4Write off bs) s = .next (if postedFull s then s else count s Reg.cbBadAccess 15 0 1))
    ∧ (∀ off bs, postedFull s = true → off + bs.length ≤ 2 ^ 24 → exec (.bar4Write off bs) s = .next s)
    ∧ (∀ off en, powered s = true → off + en.length ≤ 2 ^ 24 → served s off en.length = none →
      let t := emit (count s Reg.cbBadAccess 15 0 1) (.readReply 4 off (List.replicate (en.countP id) 0xFF#8))
      exec (.bar4Read off en) s = .next t ∧ exec (.bar4UnservedAccess false off en) s = .next t
      ∧ exec (.bar4UnservedAccess true off en) s = .next (if postedFull s then s else count s Reg.cbBadAccess 15 0 1))
    ∧ (∀ off w x y, powered s = true → off + 2 ≤ 2 ^ 24 → served s off 2 = some w → fwFar s w off % 2 = 0 → b.posted.length < 128 →
      ∃ t c, exec (.bar4Write off [some x, some y]) s = .next t ∧ t.bridge.posted = b.posted ++ [c] ∧ c.seq = b.nextSeq ∧ c.window = w
      ∧ c.addr = fwFar s w off ∧ c.strobes = 3
      ∧ c.data = (if regB s (Reg.cbFwCtrl w) 29 then x.toNat * 256 + y.toNat else y.toNat * 256 + x.toNat)
      ∧ t.bridge.nextSeq = (if b.nextSeq + 1 = 2 ^ 32 then 1 else b.nextSeq + 1)
      ∧ (sget none b.lines w = none → b.pref = none → t = { s with bridge := t.bridge }))
    ∧ (∀ off w en, powered s = true → off + en.length ≤ 2 ^ 24 → served s off en.length = some w → true ∈ en → b.reads = [] →
      regB s (Reg.cbFwCtrl w) 30 = false → ∃ t r, exec (.bar4Read off en) s = .next t ∧ t.bridge.reads = [r] ∧ r.window = w
      ∧ r.far = fwFar s w off ∧ r.cycles = readCycles (regB s (Reg.cbFwCtrl w) 29) (fwFar s w off) en ∧ r.after = b.posted.length
      ∧ t = { s with bridge := t.bridge })
    ∧ (∀ op, busReady s = true → s.integ.arms = [] → nextCycle s = some op → ∃ t o, exec .cabinetCycleStart s = .next t
      ∧ t.out = s.out ++ [o] ∧ t.bridge.cycle = some op ∧ t.bridge.cycleTb = s.time.tb
      ∧ (∀ c, op = .posted c → o = .cabinet true false c.addr c.strobes c.data)
      ∧ (∀ c, op = .read c → o = .cabinet false false c.addr c.strobes 0)
      ∧ (∀ r, op = .rmwRead → b.rmw = some r → o = .cabinet false true r.addr 3 0)
      ∧ t = { s with bridge := t.bridge, out := t.out })
    ∧ (∀ (w : Fin 8) (r : Fin 3) (v : Word), bar0Writes s = true → ∃ t, exec (.farWindowWrite w r v) s = .next t
      ∧ sget none t.bridge.lines w = none
      ∧ (r = 0 → reg t (Reg.cbFwCtrl w) = v &&& 0xE01F03FF#32) ∧ (r = 1 → reg t (Reg.cbFwBar w) = v &&& 0x00FFF000#32)
      ∧ (r = 2 → reg t (Reg.cbFwFar w) = v &&& 0x00FFF000#32) ∧ t.bridge.posted = b.posted ∧ t.bridge.reads = b.reads)
    ∧ (∀ (w : Fin 8) p, ticking s = true → bridgeEn s = true → b.pref = none → regB s (Reg.cbFwCtrl w) 30 = true →
      b.prefWant.find? (fun x => x.1 == w.val) = some p → ∃ t, exec (.prefetchLineRead w) s = .next t
      ∧ t.bridge.pref = some ⟨w, p.2, [], false, false⟩ ∧ sget none t.bridge.lines w = none ∧ t.bridge.posted = b.posted)
    ∧ (∀ (w : Fin 8) l, ticking s = true → b.pref = none → sget none b.lines w = some l → 25000 ≤ s.time.tb - l.readTb →
      ∃ t, exec (.prefetchLineAge w) s = .next t ∧ sget none t.bridge.lines w = none
      ∧ ((undelivered l).1 ≠ 0 → FiredOnce s t 0x5A
        ∧ total t (Reg.cbFwPrefDiscard w) 0 = (total s (Reg.cbFwPrefDiscard w) 0 + (undelivered l).1) % 2 ^ 32))
    ∧ (∀ (k : Fin 256) c, cmdReady s k 0x51 = some c →
      (isWedged s (unitOf 9 0x20) = true → exec (.farFence k) s = .next (finish s k stWedged 0 0))
      ∧ (isWedged s (unitOf 9 0x20) = false → c.aux = 0 → ∃ t, exec (.farFence k) s = .next t ∧ cmdAt t k = none ∧ t.bridge.fenceDone = b.finished
        ∧ t.bridge.fenceFailed = b.failed
        ∧ t.bridge.posted = b.posted)
      ∧ (isWedged s (unitOf 9 0x20) = false → c.aux ≠ 0 → ∃ t, exec (.farFence k) s = .next t ∧ cmdAt t k = some { c with phase := .running }
        ∧ t = { s with host := t.host }))
    ∧ (∀ (k : Fin 256) c, cmdReady s k 0x50 = some c →
      (isWedged s (unitOf 9 0x20) = true → exec (.farRmwLocked k) s = .next (finish s k stWedged 0 0))
      ∧ (isWedged s (unitOf 9 0x20) = false → bridgeEn s = false → exec (.farRmwLocked k) s = .next (finish s k stFarFault 0xFFFF 0))
      ∧ (bridgeEn s = true → c.done = 0 → ∃ t r, exec (.farRmwLocked k) s = .next t ∧ t.bridge.rmw = some r ∧ r.slot = k.val
        ∧ r.addr = fld (cmdW c 1) 23 0 ∧ r.andMask = fld (cmdW c 2) 15 0 ∧ r.orMask = fld (cmdW c 2) 31 16 ∧ r.after = c.aux ∧ r.old = none
        ∧ cmdAt t k = some { c with phase := .running } ∧ t.bridge.posted = b.posted))
    ∧ (bar0Writes s = true → ∃ t, exec .cbLogClear s = .next t ∧ (∀ i, i < 16 → regB t (Reg.cbLog i 0) 31 = false)
      ∧ regF t Reg.cbLogStatus 19 16 = 0 ∧ regF t Reg.cbLogStatus 4 0 = 0
      ∧ (∀ off, off ≠ Reg.cbLogStatus → (∀ i, i < 16 → off ≠ Reg.cbLog i 0) → reg t off = reg s off) ∧ t = { s with regs := t.regs })
    ∧ (bar0Writes s = true → regB s Reg.cbCtrl 31 = true → b.cycle = none → ∃ t, exec .bridgeDisable s = .next t ∧ regB t Reg.cbCtrl 31 = false
      ∧ t.bridge.posted = [] ∧ t.bridge.reads = [] ∧ t.bridge.rmw = none ∧ t.bridge.grantTb = none ∧ t.bridge.prefWant = []
      ∧ (∀ r, r ∈ t.bridge.farReads → r.dropped = true ∧ r.sent = true)
      ∧ t.bridge.finished = b.finished + b.posted.length ∧ t.bridge.failed = b.failed + b.posted.length
      ∧ total t Reg.cbDropped 0 = (total s Reg.cbDropped 0 + b.posted.length) % 2 ^ 32)

/-- R291, R292, R297 to R299: a cycle ends with data, with BERR, after its TIMEOUT, or is run again 1 µs after a retry; a posted write that
has ended is finished or failed, and a failure is logged and reported; a read answers the bytes read, or ones after its deadline, also behind
a read whose deadline is later, and where no cycle of it has begun ones alone. -/
def Obligations.BridgeCycles : Prop :=
  ∀ (s : State), ticking s = true → s.bridge.breq = false →
    let b := s.bridge
    let logged (t : State) (det kind op w strobes addr data seq : Nat) : Prop :=
      let i := regF s Reg.cbLogStatus 19 16
      FiredOnce s t det ∧ regF t Reg.cbLogStatus 19 16 = (i + 1) % 16
        ∧ reg t (Reg.cbLog i 0) = BitVec.ofNat 32 (2 ^ 31 + kind * 2 ^ 28 + op * 2 ^ 25 + w * 65536 + strobes * 256)
        ∧ reg t (Reg.cbLog i 1) = BitVec.ofNat 32 addr ∧ reg t (Reg.cbLog i 2) = BitVec.ofNat 32 data ∧ reg t (Reg.cbLog i 3) = BitVec.ofNat 32 seq
    let ended (t : State) (rest : List WriteCycle) (failed : Nat) : Prop :=
      t.bridge.cycle = none ∧ t.bridge.posted = rest ∧ t.bridge.finished = b.finished + 1 ∧ t.bridge.failed = b.failed + failed
        ∧ t.bridge.lastEnd = now s
    (∀ c rest d, b.cycle = some (.posted c) → b.retryTb = none → b.posted = c :: rest → c.window < 8 →
      (∃ t, exec (.cabinetCycleAck true false d) s = .next t ∧ ended t rest 0 ∧ SameBut s t [])
      ∧ (∃ t, exec (.cabinetCycleAck false true d) s = .next t ∧ ended t rest 1 ∧ logged t 0x59 1 0 c.window c.strobes c.addr c.data c.seq
        ∧ total t (Reg.cbFwFaults c.window) 0 = (total s (Reg.cbFwFaults c.window) 0 + 1) % 2 ^ 32)
      ∧ (c.timeout * 250 ≤ s.time.tb - b.cycleTb → ∃ t, exec .cabinetCycleTimeout s = .next t ∧ ended t rest 1
        ∧ logged t 0x58 0 0 c.window c.strobes c.addr c.data c.seq))
    ∧ (∀ op d, b.cycle = some op → b.retryTb = none → b.retries < 16 → exec (.cabinetCycleAck true true d) s =
        .next (setBridge (count s Reg.cbRevCounts 7 0 1) { b with retryTb := some s.time.tb, retries := b.retries + 1 }))
    ∧ (∀ op d, b.cycle = some op → b.retryTb = none → exec (.cabinetCycleAck false false d) s = .next s)
    ∧ (∀ op tb, b.cycle = some op → b.retryTb = some tb → b.grantTb ≠ none → exec .cardRetryWaitEnd s = .next s)
    ∧ (∀ op tb, b.cycle = some op → b.retryTb = some tb → b.grantTb = none → 250 ≤ s.time.tb - tb → ∃ t o, exec .cardRetryWaitEnd s = .next t
      ∧ t.bridge = { b with retryTb := none, cycleTb := s.time.tb } ∧ t.out = s.out ++ [o] ∧ t = { s with bridge := t.bridge, out := t.out })
    ∧ (∀ r c (d : BitVec 16), b.cycle = some (.read c) → b.retryTb = none → b.reads = [r] → r.cycles = [c] → r.after = 0 → r.pref = false →
      r.enables = [true, true] → r.got = [] → r.far % 2 = 0 → r.far < 2 ^ 24 → c.addr = r.far →
      ∃ t, exec (.cabinetCycleAck true false d) s = .next t ∧ t.bridge.cycle = none ∧ t.bridge.reads = []
      ∧ t.out = s.out ++ [.readReply 4 r.off
          (if r.big then [(d >>> 8).setWidth 8, d.setWidth 8] else [d.setWidth 8, (d >>> 8).setWidth 8])]
      ∧ t = { s with bridge := t.bridge, out := t.out })
    ∧ (∀ r, b.reads = [r] → b.cycle = none → r.timeout * 250 ≤ s.time.tb - r.startTb → r.got = [] →
      ∃ t, exec .bar4ReadDeadline s = .next t ∧ t.bridge.reads = [] ∧ FiredOnce s t 0x58
      ∧ t.out.getLast? = some (.readReply 4 r.off (List.replicate (r.enables.countP id) 0xFF#8)))
    ∧ (∀ q r, b.reads = [q, r] → s.time.tb - q.startTb < q.timeout * 250 → q.cycles ≠ [] → r.timeout * 250 ≤ s.time.tb - r.startTb →
      r.started = false → ∃ t, exec .bar4ReadDeadline s = .next t ∧ t.bridge.reads = [q] ∧ FiredOnce s t 0x58
      ∧ t.out.getLast? = some (.readReply 4 r.off (List.replicate (r.enables.countP id) 0xFF#8)))
    ∧ (∀ r (d : BitVec 16), b.cycle = some .rmwRead → b.retryTb = none → b.rmw = some r → bridgeEn s = true → ∃ t,
      exec (.cabinetCycleAck true false d) s = .next t ∧ t.bridge.rmw = some { r with old := some d.toNat, seq := b.nextSeq }
      ∧ t.bridge.cycle = none)
    ∧ (∀ r old (d : BitVec 16), b.cycle = some .rmwWrite → b.retryTb = none → b.rmw = some r → r.old = some old → ∃ t,
      exec (.cabinetCycleAck true false d) s = .next t ∧ t.bridge.rmw = none ∧ t.bridge.cycle = none ∧ cmdAt t r.slot = none
      ∧ t.bridge.finished = b.finished + 1)

/-- R301 to R304: the bus is granted where no host work waits, and a far master whose read waits keeps it until the answer; a far write in a
reverse window is acknowledged and enters the reverse queue of 32; a far read becomes a host read and is answered with its data, or drops it
where it is no longer waited for; the interrupt lines pend and are acknowledged; host work that has waited
HOST_WAIT turns far cycles away, and a far master that keeps the bus is reported. -/
def Obligations.FarMasters : Prop :=
  ∀ (s : State),
    let b := s.bridge
    let bits (off lo i : Nat) (t : State) : Bool := regB t off (lo + i)
    (bridgeEn s = true → b.grantTb = none → b.cycle = none → b.rmw = none → b.hostFirst = false → b.posted = [] → b.reads = [] →
      b.pref = none → ∃ t, exec .farBusRequest s = .next t ∧ t.bridge.breq = true ∧ t.bridge.grantTb = some s.time.tb
      ∧ t.out = s.out ++ [.farGrant true] ∧ t = { s with bridge := t.bridge, out := t.out })
    ∧ (bridgeEn s = true → b.posted ≠ [] → b.hostCycles < max 1 (regF s Reg.cbCtrl 30 24) →
      exec .farBusRequest s = .next (setBridge s { b with breq := true }))
    ∧ (b.breq = true → b.grantTb ≠ none → (∃ r, r ∈ b.farReads ∧ r.dropped = false) →
      exec .farBusRelease s = .next (setBridge s { b with breq := false }))
    ∧ (b.breq = true → (∀ r, r ∈ b.farReads → r.dropped = true) → ∃ t, exec .farBusRelease s = .next t ∧ t.bridge.breq = false
      ∧ t.bridge.grantTb = none ∧ t.bridge.backoff = false
      ∧ t.out = (if b.grantTb.isSome then s.out ++ [.farGrant false] else s.out) ∧ t = { s with bridge := t.bridge, out := t.out })
    ∧ (∀ (a : BitVec 24) (st : BitVec 2) (d : BitVec 16) h, bridgeEn s = true → b.grantTb ≠ none → reverseWindow s a.toNat = some h →
      (b.backoff = true → exec (.farWrite a st d) s = .next (emit (count s Reg.cbRevCounts 15 8 1) (.farAck true false 0)))
      ∧ (b.backoff = false → 32 ≤ b.reverse.length → exec (.farWrite a st d) s = .next s)
      ∧ (b.backoff = false → hostMem s = true → b.reverse.length < 32 →
        let base := (reg s (Reg.cbHwHostHi h)).toNat * 2 ^ 32 + (reg s (Reg.cbHwHostLo h)).toNat
        let big := regB s (Reg.cbHwCtrl h) 30
        let lo : Byte := d.setWidth 8
        let hi : Byte := (d >>> 8).setWidth 8
        let bytes := if st = 3 then (if big then [hi, lo] else [lo, hi]) else if st = 2 then [hi] else if st = 1 then [lo] else []
        let queued := b.reverse ++ [((base + a.toNat % 2 ^ 20) % 2 ^ 64, bytes)]
        exec (.farWrite a st d) s = .next (emit (setBridge (count s Reg.cbRevCounts 31 16 1)
          { b with farAcked := (b.farAcked + 1) % 2 ^ 32, reverse := queued }) (.farAck false false 0)))
      ∧ (b.backoff = false → dmaFree s = true → b.reverse = [] → (∀ r, r ∈ b.farReads → r.sent = true) →
        ∃ t w, exec (.farRead a st) s = .next t ∧ t.bridge.farReads = b.farReads ++ [w]
        ∧ w.host = reverseHost s h a.toNat ∧ w.strobes = st.toNat ∧ w.dropped = false ∧ w.sent = true
        ∧ t.out = s.out ++ [.farDmaRead (reverseHost s h a.toNat) (if st = 3 then 2 else 1)] ∧ t = { s with bridge := t.bridge, out := t.out }))
    ∧ (∀ r rs (d : BitVec 16), b.farReads = r :: rs →
      let left (t : State) : Prop := t.bridge.farReads = rs ∨ t.bridge.farReads = farSent rs
      (r.sent = false → exec (.farReadCompletion (some d)) s = .next s)
      ∧ (r.sent = true → r.dropped = false → r.strobes = 3 → ∃ t os, exec (.farReadCompletion (some d)) s = .next t ∧ left t ∧ SameRegs s t []
        ∧ t.out = s.out ++ .farAck false false (if r.big then d.toNat % 256 * 256 + d.toNat / 256 else d.toNat) :: os)
      ∧ (r.sent = true → r.dropped = false → ∃ t os, exec (.farReadCompletion none) s = .next t ∧ left t
        ∧ t.out = s.out ++ .farAck false true 0 :: os ∧ total t Reg.hostErrors 16 = (total s Reg.hostErrors 16 + 1) % 2 ^ 32)
      ∧ (r.sent = true → r.dropped = true → ∃ t os, exec (.farReadCompletion (some d)) s = .next t ∧ left t
        ∧ t.out = s.out ++ os ∧ ∀ x y z, Out.farAck x y z ∉ os))
    ∧ (∀ i : Fin 4, alive s = true → ∃ t, exec (.farCardInterrupt i) s = .next t ∧ bits Reg.cbIrqCtrl 8 i t = true
      ∧ bits Reg.cbIrqCtrl 4 i t = (bits Reg.cbIrqCtrl 4 i s || bits Reg.cbIrqCtrl 0 i s)
      ∧ (∀ j, j < 4 → j ≠ i.val → bits Reg.cbIrqCtrl 8 j t = bits Reg.cbIrqCtrl 8 j s ∧ bits Reg.cbIrqCtrl 4 j t = bits Reg.cbIrqCtrl 4 j s)
      ∧ (bits Reg.cbIrqCtrl 4 i s = false → bits Reg.cbIrqCtrl 0 i s = true → t.host.evSeq = (s.host.evSeq + 1) % 65536))
    ∧ (∀ i : Fin 4, alive s = true → ∃ t, exec (.cbIrqNRelease i) s = .next t ∧ bits Reg.cbIrqCtrl 8 i t = false
      ∧ (∀ j, j ≠ 8 + i.val → regB t Reg.cbIrqCtrl j = regB s Reg.cbIrqCtrl j) ∧ SameRegs s t [Reg.cbIrqCtrl] ∧ t = { s with regs := t.regs })
    ∧ (∀ v : Word, bar0Writes s = true → ∃ t, exec (.cbIrqAck v) s = .next t ∧ SameBut s t [Reg.cbIrqCtrl]
      ∧ ∀ i, i < 4 → bits Reg.cbIrqCtrl 4 i t =
          (bits Reg.cbIrqCtrl 4 i s && (!bit v i || (bits Reg.cbIrqCtrl 0 i s && bits Reg.cbIrqCtrl 8 i s)))
        ∧ bits Reg.cbIrqCtrl 8 i t = bits Reg.cbIrqCtrl 8 i s ∧ bits Reg.cbIrqCtrl 0 i t = bits Reg.cbIrqCtrl 0 i s)
    ∧ (∀ tb, ticking s = true → bridgeEn s = true → b.grantTb ≠ none → b.backoff = false → b.posted ≠ [] → b.waitTb = some tb →
      max 1 (regF s Reg.cbCtrl 23 16) * 250 ≤ s.time.tb - tb → ∃ t, exec .hostWaitBackoff s = .next t ∧ t.bridge.backoff = true
      ∧ t.out = s.out ++ List.replicate (b.farReads.countP (fun r => !r.dropped)) (.farAck true false 0)
      ∧ (∀ r, r ∈ t.bridge.farReads → r.dropped = true) ∧ t = { s with bridge := t.bridge, out := t.out, regs := t.regs, totals := t.totals })
    ∧ (∀ tb, ticking s = true → b.grantTb = some tb → b.backoff = true → b.holdSaid = false →
      max 1 (regF s Reg.cbHold 15 0) * 250 ≤ s.time.tb - tb → ∃ t, exec .farHoldLimit s = .next t ∧ t.bridge = { b with holdSaid := true }
      ∧ FiredOnce s t 0x58)

/-! ## Panels -/

/-- R311, R312, R316 to R325: a PANEL_UPDATE makes a request for its region, or completes where it cannot; at a frame boundary settings apply,
a finished update completes, a request starts and sets the image, and every running update applies its frame, whose bits shift the highest
segment first and bit 1 of each drive code before bit 0; the sensor, whose read sends 0x5A, and the image are judged. -/
def Obligations.Panels : Prop :=
  ∀ (s : State), (∀ off, memGood (sget 0 s.panelSet off) = true) →
    let counted (t : State) (off lo : Nat) : Prop := total t off lo = (total s off lo + 1) % 2 ^ 32
    (∀ (k : Fin 256) c, cmdReady s k 0x40 = some c →
      let n := fld (cmdW c 1) 2 0
      let g := fld (cmdW c 1) 12 8
      let word := memData (sget 0 s.panelSet (Reg.pnRegion n g))
      let wedged := isWedged s (unitPanel n)
      (wedged = true → exec (.panelUpdate k) s = .next (finish s k stWedged 0 0))
      ∧ (bit (cmdW c 2) 0 = false → panelOpen s n = true → regionDefined s n word = true → (∀ q, q ∈ (panel s n).reqs → q.region ≠ g) →
        ∃ t, exec (.panelUpdate k) s = .next t ∧ (panel t n).reqs = (panel s n).reqs ++ [⟨g, .bindings, some k.val⟩]
        ∧ (panel t n).runs = (panel s n).runs ∧ cmdAt t k = some { c with phase := .opened })
      ∧ (wedged = false → bit (cmdW c 2) 0 = false → (panelOpen s n = false ∨ regionDefined s n word = false) → ∃ t, exec (.panelUpdate k) s = .next t
        ∧ cmdAt t k = none ∧ counted t (Reg.pnCounts n) 0 ∧ t.panels = s.panels)
      ∧ (wedged = false → bit (cmdW c 2) 0 = true → dmaFree s = true → ∃ t, exec (.panelUpdate k) s = .next t ∧ t.panels = s.panels
        ∧ ∃ a len, t.out = s.out ++ [.dmaRead k a len] ∧ a = (cmdW c 4).toNat * 2 ^ 32 + (cmdW c 3).toNat))
    ∧ (∀ n : Fin 8, panelDue s n = true → (panel s n).closing = none → owns s (epPanel n) = true →
      let p := panel s n
      (∀ ws slot, p.pendSet = some (ws, slot) → p.runs = [] → p.reqs = [] → ∃ t, exec (.panelFrameBoundary n) s = .next t
        ∧ (panel t n).pendSet = none ∧ cmdAt t slot = none
        ∧ reg t (Reg.pnCtrl n) = (ws.getD 2 0 &&& 0x40FF03FF#32) ||| (reg s (Reg.pnCtrl n) &&& 0x80000000#32)
        ∧ reg t (Reg.pnLedgerCfg n) = ws.getD 3 0 &&& 0x07FF007F#32)
      ∧ (∀ u, p.pendSet = none → p.runs = [u] → p.reqs = [] → u.next < u.frames → ∃ t rest, exec (.panelFrameBoundary n) s = .next t
        ∧ (panel t n).runs = [{ u with next := u.next + 1 }] ∧ (panel t n).frameMs = drainMs s + 1
        ∧ ∃ bits, bits.length = 2 * panelSegs s n
        ∧ (let codes := u.segs.filterMap fun g => if g.2.getD u.next 0 = 0 then none else some (g.1, g.2.getD u.next 0)
           t.out = s.out ++ .panelFrame n bits codes :: rest
           ∧ ∀ g, g < panelSegs s n →
             let c := ((codes.find? fun x => x.1 == g).map (·.2)).getD 0
             bits[2 * (panelSegs s n - 1 - g)]? = some (c / 2 % 2 == 1) ∧ bits[2 * (panelSegs s n - 1 - g) + 1]? = some (c % 2 == 1)))
      ∧ (∀ u k, p.pendSet = none → p.runs = [u] → p.reqs = [] → u.frames ≤ u.next → u.slot = some k →
        ∃ t, exec (.panelFrameBoundary n) s = .next t ∧ (panel t n).runs = [] ∧ cmdAt t k = none)
      ∧ (∀ q bs, p.pendSet = none → p.runs = [] → p.reqs = [q] → q.region < 32 → q.src = .image bs → s.integ.arms = [] →
        imageCrc s n = reg s (Reg.pnCrc n) → ∃ t u, exec (.panelFrameBoundary n) s = .next t ∧ (panel t n).runs = [u] ∧ u.region = q.region
        ∧ u.slot = q.slot ∧ (panel t n).reqs = [] ∧ reg t (Reg.pnCrc n) = imageCrc t n
        ∧ ∀ g, g < 512 → imageBit t n g =
            (if g ∈ regionSegs s n (memData (sget 0 s.panelSet (Reg.pnRegion n q.region))) then (bs.getD (g / 8) 0).getLsbD (g % 8)
             else imageBit s n g)))
    ∧ (∀ (n : Fin 8) (raw : BitVec 16), ticking s = true → portEn s 5 n = true → owns s (epPanel n) = true →
      regB s (Reg.pnCtrl n) 30 = true → (panel s n).sensorTb = 0 →
      (-640 ≤ raw.toInt → raw.toInt ≤ 1360 → ∃ t, exec (.panelSensorRead n false raw) s = .next t ∧ (panel t n).temp = some raw.toInt
        ∧ regB t (Reg.pnStatus n) 30 = true ∧ t.out = s.out ++ [.panelSensor n [false, true, false, true, true, false, true, false] 17])
      ∧ (raw.toInt < -640 ∨ 1360 < raw.toInt → ∃ t, exec (.panelSensorRead n false raw) s = .next t ∧ (panel t n).temp = none
        ∧ regB t (Reg.pnStatus n) 30 = false ∧ counted t (Reg.pnCounts n) 8)
      ∧ ∃ t, exec (.panelSensorRead n true raw) s = .next t ∧ (panel t n).temp = none ∧ counted t (Reg.pnCounts n) 8)
    ∧ (∀ n : Fin 8, ticking s = true → 10000 ≤ drainMs s - (panel s n).crcTb → s.integ.arms = [] →
      (imageCrc s n = reg s (Reg.pnCrc n) → exec (.panelCrcCheck n) s = .next (setPanel s n { panel s n with crcTb := drainMs s }))
      ∧ (imageCrc s n ≠ reg s (Reg.pnCrc n) → ∃ t, exec (.panelCrcCheck n) s = .next t ∧ (panel t n).crcTb = drainMs s
        ∧ counted t (Reg.pnCounts n) 24 ∧ FiredOnce s t 0x60 ∧ reg t (Reg.pnCrc n) = imageCrc t n))

/-! ## Resets, power, harbour watch -/

/-- R7, R14, R29, R30, R349 to R354, R357, R360, R371: power rises in three steps; a reset by RESET_N, DEVICE_RESET or a function-level reset gives
every register but the always-on ones its reset value and names its cause; the VID balls are high-impedance from the taking of RESET_N to its
release; the boot ends with its result, and BOOT_TIME counts the microseconds since that release; D3hot and the monitored clocks come and go,
and a frame that was being received as its clock stopped is counted in the drop counter of its port (in which field is open, log 169). That the
steps come as commands of their own is the model's choice (log 45). -/
def Obligations.PowerAndResets : Prop :=
  ∀ (s : State),
    let anew (t : State) (cause : Nat) : Prop :=
      reg t Reg.resetCause = BitVec.ofNat 32 (cause + (if s.integ.stopped then 256 else 0))
      ∧ (∀ off, off ≠ Reg.resetCause → off ≠ Reg.cbIrqCtrl → reg t off = if alwaysOn off then reg s off else regReset off)
      ∧ t.kennel = [] ∧ t.talkers = [] ∧ t.host.cmds = [] ∧ t.time = State.reset.time ∧ t.integ.arms = [] ∧ t.pending = s.pending
    (∀ straps : Straps, s.power.phase = .off → ∃ t, exec (.powerOnReset straps) s = .next t ∧ t.power.phase = .rails 0
      ∧ t.power.ref25 = straps.refsel ∧ t.power.sideB = straps.side ∧ t.power.enCore = false
      ∧ t.power.vidOn = false
      ∧ t = { State.reset with pending := s.pending, power := t.power, out := s.out ++ [.vidReleased], freeCount := s.freeCount })
    ∧ (∀ k, s.power.phase = .rails k → ∃ t, exec .pwrEnStep s = .next t
      ∧ t.power.phase = (if 2 ≤ k then .held else .rails (k + 1))
      ∧ (k = 0 → t.power.enIo = true ∧ t.power.enSc = [0, 1, 2, 3, 4, 5, 6, 7]) ∧ (k = 1 → t.power.enCore = true)
      ∧ (2 ≤ k → t.power.enSd = true) ∧ t = { s with power := t.power, out := t.out })
    ∧ (∀ k, s.power.phase = .waking k → k < 3 → ∃ t, exec .pwrEnStep s = .next t ∧ t.power.phase = .waking (k + 1)
      ∧ t = { s with power := t.power, out := t.out })
    ∧ (∀ ns, resetActs s = true → (ns < 1000 → exec (.resetN ns) s = .next s)
      ∧ (10000 ≤ ns → ∃ t, exec (.resetN ns) s = .next t ∧ t.power.phase = .held ∧ anew t 1
        ∧ t.power.enIo = true ∧ t.power.enCore = true ∧ t.power.enSd = true ∧ t.power.vidOn = false ∧ .vidReleased ∈ t.out)
      ∧ (1000 ≤ ns → ns < 10000 → ∃ t, exec (.resetN ns) s = .next t ∧ (t.power.phase = .held ∨ t = { s with freeCount := s.freeCount + 1 })))
    ∧ (∀ straps : Straps, s.power.phase = .held → ∃ t, exec (.resetNRelease straps) s = .next t ∧ t.power.phase = .boot
      ∧ t.power.ref25 = straps.refsel ∧ t.power.sideB = straps.side ∧ t.power.io33 = straps.io33 ∧ t.power.vidOn = true ∧ t.out = s.out ++ [.vid 14]
      ∧ t = { s with power := t.power, out := t.out })
    ∧ (∀ tb, powered s = true → s.host.resetAt = some tb → (s.time.locked = false ∨ 500 ≤ s.time.tb - tb) →
      ∃ t, exec .deviceResetStart s = .next t ∧ t.power.phase = .boot ∧ anew t 2 ∧ t.host.d3 = s.host.d3 ∧ t.host.msix = s.host.msix
      ∧ t.host.resetAt = none)
    ∧ (powered s = true → 8 ∉ s.integ.lost → ∃ t, exec .functionLevelReset s = .next t ∧ t.power.phase = .boot ∧ anew t 3
      ∧ t.host.d3 = State.reset.host.d3 ∧ t.host.msix = State.reset.host.msix)
    ∧ (powered s = true → exec .bar0Usable s = .next { s with host := { s.host with usable := true } })
    ∧ (s.power.phase ≠ .off → ∃ t, exec .vaonRemoved s = .next t ∧ t.power.phase = .off ∧ t.power.enIo = false
      ∧ t = { State.reset with pending := s.pending, power := t.power, out := t.out, freeCount := s.freeCount })
    ∧ (powered s = true → exec (.d3hotTransition true) s = .next { s with host := { s.host with d3 := true } }
      ∧ ∃ t, exec (.d3hotTransition false) s = .next t ∧ t.host.d3 = false ∧ t.power = s.power)
    ∧ (∀ (c : MonClock) (midFrame : Bool), powered s = true → clockNum c ∉ s.integ.lost →
      ∃ t, exec (.monitoredClockLoss ⟨c, midFrame⟩) s = .next t
      ∧ t.integ.lost = s.integ.lost ++ [clockNum c] ∧ (∀ n : Fin 4, c = .rx n → (eth t n).link = false)
      ∧ (∀ n : Fin 4, c = .rx n → midFrame = true → (eth s n).link = true → ∃ k, (k = 16 ∨ k = 8 ∨ k = 0)
        ∧ total t (Reg.ethRxDrop n) k = (total s (Reg.ethRxDrop n) k + 1) % 2 ^ 32)
      ∧ (4 ≤ clockNum c → t = { s with integ := t.integ }))
    ∧ (∀ c : MonClock, clockNum c ∈ s.integ.lost → ∃ t, exec (.monitoredClockReturn c) s = .next t
      ∧ t.integ.lost = s.integ.lost.filter (fun k => k != clockNum c) ∧ (clockNum c ≠ 8 → t = { s with integ := t.integ }))
    ∧ (ticking s = true → s.power.phase = .boot →
      let ends (t : State) (result : Nat) : Prop :=
        t.power.phase = .run ∧ regF t Reg.bootStatus 31 28 = result ∧ regB t Reg.hostStatus 1 = false ∧ regB t Reg.hostStatus 2 = (result == 0)
      ∀ ns, let us := BitVec.ofNat 32 (min ((ns + 4 * s.time.tb) / 1000) 0xFFFFFFFF)
      (∃ t, exec (.boot ⟨.noTable, ns⟩) s = .next t ∧ ends t 1 ∧ reg t Reg.bootTime = us)
      ∧ (∀ size h, ∃ t, exec (.boot ⟨.copyFailed size h, ns⟩) s = .next t ∧ ends t (if headerBad h then 2 else 3) ∧ reg t Reg.bootTime = us
        ∧ t.host.flashSize = some size)
      ∧ ∀ size img, ∃ t, exec (.boot ⟨.image size img, ns⟩) s = .next t ∧ ends t (bootResult img))

/-- R150 to R153, R361 to R363: SLEEP_ENTER commits an entry, or is WRONG_STATE; intake and endpoints stop and the clock is kept; the supplies
fall in three steps; asleep, the hub counts SL periods while no command waits (log 1); a match, WAKE_N or the timer wakes it, and SLEPT shows
the SL periods asleep in units of 32; its watch receivers hand their characters over or end. -/
def Obligations.HarbourWatch : Prop :=
  ∀ (s : State),
    let p := s.power
    let woken (t : State) (source : Nat) : Prop := t.power.phase = .waking 0 ∧ t.power.woke = true ∧ regF t Reg.watchWake 9 0 = source
      ∧ reg t Reg.slept = BitVec.ofNat 32 (min (p.slPeriods / 32) 0xFFFFFFFF) ∧ SameRegs s t [Reg.watchWake, Reg.slept]
    (∀ (k : Fin 256) c, cmdReady s k 0x04 = some c →
      (p.phase = .run → (∀ x, x ∈ sleepNamed c → canWatch s x.2 = true) → ∃ t, exec (.sleepEnter k) s = .next t ∧ t.power.phase = .sleeping 0
        ∧ t.power.named = sleepNamed c ∧ t.power.watches = [] ∧ t.power.entryTb = s.time.tb ∧ cmdAt t k = none)
      ∧ ((p.phase ≠ .run ∨ ∃ x, x ∈ sleepNamed c ∧ canWatch s x.2 = false) → exec (.sleepEnter k) s = .next (finish s k stWrongState 0 0)))
    ∧ (p.phase = .sleeping 0 → p.entrySlot = none → (s.time.locked = false ∨ 25000 ≤ s.time.tb - p.entryTb) →
      ∃ t, exec .sleepEntryStop s = .next t ∧ t.power.phase = .sleeping 1 ∧ t.power.watches.map (fun w => (w.num, w.port)) = p.named
      ∧ reg t Reg.sleepStampSec = BitVec.ofNat 32 (stSec (now s)) ∧ reg t Reg.sleepStampNs = BitVec.ofNat 32 (stNs (now s))
      ∧ t.pair.owned = [] ∧ t.out.getLast? = some .linkDown)
    ∧ (p.phase = .sleeping 1 → exec .sleepPowerDownStep s =
        .next (setPower (emit s (.powerEnable 2 false)) { p with phase := .sleeping 2, enSd := false }))
    ∧ (p.phase = .sleeping 2 → exec .sleepPowerDownStep s =
        .next (setPower (emit s (.powerEnable 1 false)) { p with phase := .sleeping 3, enCore := false }))
    ∧ (p.phase = .sleeping 3 → ∃ t, exec .sleepPowerDownStep s = .next t ∧ t.power.enIo = false
      ∧ t.power.enSc = p.enSc.filter (fun k => p.watches.any (fun w => w.port / 16 == k) && decide (k < 8))
      ∧ t.power.phase = (if p.woke then .waking 0 else .watch))
    ∧ (p.phase = .watch → s.pending = [] → step s = .next { s with power := { p with slPeriods := p.slPeriods + 1 } })
    ∧ (p.phase = .watch → p.woke = false → ∃ t, exec .wakeN s = .next t ∧ woken t 256)
    ∧ (p.phase = .sleeping 1 → p.woke = false → ∃ t, exec .wakeN s = .next t ∧ t.power = { p with woke := true }
      ∧ regF t Reg.watchWake 9 0 = 256)
    ∧ (p.phase = .watch → p.woke = false → regF s Reg.pwrWake 31 16 ≠ 0 → regF s Reg.pwrWake 31 16 * 32768 ≤ p.slPeriods →
      ∃ t, exec .wakeTimer s = .next t ∧ woken t 512)
    ∧ (regF s Reg.pwrWake 31 16 = 0 ∨ p.slPeriods < regF s Reg.pwrWake 31 16 * 32768 → exec .wakeTimer s = .next s)
    ∧ (p.phase = .waking 3 → ∃ t, exec .wakeRelease s = .next t ∧ t.power.phase = .boot ∧ t.power.watches = p.watches
      ∧ reg t Reg.resetCause = BitVec.ofNat 32 (4 + (if s.integ.stopped then 256 else 0))
      ∧ reg t Reg.watchWake = reg s Reg.watchWake ∧ reg t Reg.sleepStampSec = reg s Reg.sleepStampSec ∧ t.kennel = []
      ∧ t.out.getLast? = some (.vid 14))
    ∧ (∀ (j : Fin 8) (ch : Byte) (fe pe : Bool) (idle : Nat) w, p.watches.find? (fun w => w.num == j.val) = some w → p.phase = .watch →
      p.woke = false → (w.needIdle = false ∨ idle ≠ 0) →
      let c : RawChar := ⟨BitVec.ofNat 8 (ch.toNat % 2 ^ (5 + fld w.format 1 0)), fe, pe⟩
      ((watchCompare w c idle).2 = true → ∃ t, exec (.watchCharacter j ch fe pe idle) s = .next t ∧ woken t (2 ^ j.val))
      ∧ ((watchCompare w c idle).2 = false → ∃ t v, exec (.watchCharacter j ch fe pe idle) s = .next t ∧ t.power.phase = .watch
        ∧ t.power.watches.find? (fun w => w.num == j.val) = some v ∧ v.pos = (watchCompare w c idle).1 ∧ v.matched = w.matched
        ∧ v.started = true ∧ t = { s with power := t.power }))
    ∧ (∀ (j : Fin 8) (ch : Byte) (fe pe : Bool) w, p.watches.find? (fun w => w.num == j.val) = some w → w.needIdle = true →
      exec (.watchCharacter j ch fe pe 0) s = .next s)
    ∧ (∀ (n : Fin 128) w, p.watches.find? (fun w => w.port == n.val) = some w → ticking s = true → portEn s 0 n = true →
      isWedged s (unitSerial n) = false → w.buf = [] → w.full = false → ∃ t, exec (.watchTakeover n) s = .next t
      ∧ t.power.watches = p.watches.filter (fun v => v.num != w.num) ∧ (serial t n).needIdle = false ∧ (serial t n).idleTb = s.time.tb
      ∧ t = { s with power := t.power, serial := t.serial })
    ∧ (∀ (j : Fin 8) w, p.watches.find? (fun w => w.num == j.val) = some w → powered s = true → (p.phase = .boot ∨ p.phase = .run) →
      portEn s 0 w.port = false → ∃ t, exec (.watchReceiverTimeout j) s = .next t
      ∧ t.power.watches = p.watches.filter (fun v => v.num != j.val)
      ∧ total t Reg.watchWake 24 = (total s Reg.watchWake 24 + 1) % 2 ^ 32 ∧ t = { s with power := t.power, regs := t.regs, totals := t.totals })

/-! ## The pair link -/

/-- R364 to R368: PAIR_CTRL; a heartbeat is sent, and is good by the rule that judges one heard; a good heartbeat is taken in and a bad one
counted; a silent partner is taken over while PAIR_ALIVE_IN is low; while it is high the silence is a fault, and no endpoint is taken that the
partner's latest heartbeat shows owned; what is held is handed back. -/
def Obligations.PairLink : Prop :=
  ∀ (s : State),
    let p := s.pair
    let counted (t : State) (off lo : Nat) : Prop := total t off lo = (total s off lo + 1) % 2 ^ 32
    let overtaken (t : State) : Prop :=
      t.pair.silent = true ∧ t.pair.acted = some false ∧ counted t Reg.pairCounts 0 ∧ t.host.evSeq = (s.host.evSeq + 1) % 65536
        ∧ (∀ e, e < 156 → homeOf s e = true → mayTake s e = true → e ∈ t.pair.owned) ∧ ∀ e, e < 156 → e ∈ p.owned → e ∈ t.pair.owned
    (∀ v : Word, bar0Writes s = true → bit v 31 = pairEn s → exec (.pairCtrlEnChange v) s = .next (setReg s Reg.pairCtrl v))
    ∧ (∀ v : Word, bar0Writes s = true → bit v 31 ≠ pairEn s → ∃ t, exec (.pairCtrlEnChange v) s = .next t ∧ reg t Reg.pairCtrl = v
      ∧ t.pair.heard = false ∧ t.pair.silent = false ∧ t.pair.heardTb = s.time.tb ∧ t.pair.aliveIn = p.aliveIn ∧ t.pair.taken = []
      ∧ (bit v 31 = false → t.pair.owned = [] ∧ t.pair.releasing = []))
    ∧ (ticking s = true → pairEn s = true → (p.beatTb = 0 ∨ p.beatTb - 1 + 250000 ≤ s.time.tb) → ∃ t, exec .heartbeatSend s = .next t
      ∧ t.out = s.out ++ .heartbeat (beatWords s) :: (if aliveOut s then [] else [.pairAliveOut true])
      ∧ t.pair.seq = (p.seq + 1) % 65536 ∧ t.pair.beatTb = s.time.tb + 1 ∧ t.pair.sending = some s.time.tb
      ∧ t.pair.departs = (p.seq, ⟨now s, 0, s.time.steps⟩) :: p.departs.take 3 ∧ beatGood (beatWords s) = true
      ∧ t = { s with pair := t.pair, out := t.out })
    ∧ (∀ m, ticking s = true → pairEn s = true →
      (beatGood m = false → exec (.heartbeatHeard m) s = .next (count s Reg.pairCounts 15 8 1))
      ∧ (beatGood m = true → ∃ t, exec (.heartbeatHeard m) s = .next t ∧ t.pair.heard = true ∧ t.pair.heardTb = s.time.tb
        ∧ t.pair.silent = false ∧ t.pair.fault = false ∧ counted t Reg.pairCounts 16
        ∧ (∀ e, e < 156 → (e ∈ t.pair.partnerOwn ↔ bit (m.getD (7 + e / 32) 0) (e % 32) = true))
        ∧ (∀ e, e < 156 → (e ∈ t.pair.partnerHome ↔ bit (m.getD (12 + e / 32) 0) (e % 32) = true))))
    ∧ (∀ tb, p.sending = some tb → 25000 ≤ s.time.tb - tb → exec (.pairSymbolTimeout true) s = .next (setPair s { p with sending := none })
      ∧ exec (.pairSymbolTimeout false) s = .next s)
    ∧ (ticking s = true → pairEn s = true → p.silent = false → max 3 (regF s Reg.pairCtrl 15 0) * 250000 ≤ s.time.tb - p.heardTb →
      (p.aliveIn = false → ∃ t, exec .partnerSilent s = .next t ∧ overtaken t)
      ∧ (p.aliveIn = true → ∃ t, exec .partnerSilent s = .next t ∧ t.pair.silent = true ∧ t.pair.acted = some true ∧ t.pair.fault = true
        ∧ t.pair.taken = []
        ∧ (∀ e, e < 156 → homeOf s e = true → e ∉ p.partnerOwn → mayTake s e = true → e ∈ t.pair.owned)
        ∧ ∀ e, e ∈ p.partnerOwn → e ∉ p.owned → e ∉ t.pair.owned))
    ∧ (∀ l : Bool, p.silent = false → exec (.pairAliveInChange l) s = .next (setPair s { p with aliveIn := l }))
    ∧ (ticking s = true → pairEn s = true → p.silent = true → p.acted = some true →
      ∃ t, exec (.pairAliveInChange false) s = .next t ∧ overtaken t ∧ t.pair.aliveIn = false)
    ∧ (ticking s = true → pairEn s = true → p.heard = true → p.silent = false →
      max 1 (regF s Reg.pairCtrl 30 16) * 250000 ≤ s.time.tb - p.sinceTb →
      (∃ e, e ∈ p.owned ∧ homeOf s e = false ∧ e ∉ p.releasing) → ∃ t, exec .handbackDelay s = .next t ∧ t.pair.taken = []
      ∧ ∀ e, e ∈ p.owned → homeOf s e = false → endpointBusy s e = false → e ∉ p.releasing → p.owned.Nodup → e ∉ t.pair.owned)

/-! ## Reset and invariants -/

/-- R7, R18, R353: after reset no command waits, every register reads its reset value, every counter, total and ring is empty, no port is
enabled, the clock is 0, the program store and the routes read all ones and every other checked memory 0, and memories and registers are in
canonical form. -/
def Obligations.ResetState : Prop :=
  let s := State.reset
  s.pending = [] ∧ (∀ off, reg s off = regReset off) ∧ (∀ off lo, total s off lo = 0) ∧ (∀ c n, c < 6 → n < portCount c → portEn s c n = false)
    ∧ (∀ r, r < 18 → ringEn s r = false ∧ ringHead s r = 0 ∧ ringTail s r = 0) ∧ s.time.clk = 0 ∧ now s = 0
    ∧ (∀ m a, memWord s m a = if m = .prog ∨ m = .routes then 0xFFFFFFFF#32 else 0) ∧ (∀ m a, memGood (memGet s m a) = true)
    ∧ s.host.cmds = [] ∧ s.out = [] ∧ Memory.wf s = true ∧ Registers.wf s = true ∧ Queue.wf s = true

/-- Every step keeps the checked memories in canonical form: addresses rise strictly, and no listed word equals what an unlisted address
reads as. -/
def Obligations.StepKeepsMemories : Prop := ∀ s t : State, Memory.wf s = true → step s = .next t → Memory.wf t = true

/-- R190 to R192: the words of Nymsa instructions and their readings correspond one to one. -/
def Obligations.NymsaEncoding : Prop :=
  (∀ i : NyInstr, nyDecode (nyEncode i) = i) ∧ ∀ w : Word, nyEncode (nyDecode w) = w
end

