-- ==== Sys2Proof/Laws/Maps.lean ====
section
/-! SUPPORT. Sparse maps: reading after writing, and the canonical form. -/

namespace Sys2Proof.Machine

/-- Reading any key after a key is removed. -/
theorem sget_serase {α : Type} (d : α) (m : SMap α) (k k' : Nat) :
    sget d (serase m k) k' = if k' = k then d else sget d m k' := by
  induction m with
  | nil => simp [serase, sget]
  | cons e m ih =>
    obtain ⟨a, b⟩ := e
    by_cases h : a = k
    · subst h
      rw [show serase ((a, b) :: m) a = serase m a by simp [serase], ih]
      by_cases h' : k' = a
      · simp [h']
      · simp [sget, h', Ne.symm h']
    · by_cases h' : a = k'
      · simp [serase, sget, h', h' ▸ h]
      · simp [serase, sget, h, h', ih]

/-- Reading any key after a pair is put into a map that does not list it. -/
theorem sget_sinsert {α : Type} (d : α) (m : SMap α) (k k' : Nat) (v : α) (hk : ∀ e ∈ m, e.1 ≠ k) :
    sget d (sinsert m k v) k' = if k' = k then v else sget d m k' := by
  induction m with
  | nil => simp [sinsert, sget, eq_comm]
  | cons e m ih =>
    obtain ⟨a, b⟩ := e
    have ha : a ≠ k := hk (a, b) List.mem_cons_self
    have ih := ih (fun e he => hk e (List.mem_cons_of_mem _ he))
    by_cases h : k < a
    · simp only [sinsert, h, if_true, sget, eq_comm]
    · by_cases h' : a = k'
      · subst h'
        simp [sinsert, h, sget, ha]
      · simp [sinsert, h, sget, h', ih]

/-- A removed key is not listed. -/
theorem mem_serase {α : Type} {m : SMap α} {k : Nat} {e : Nat × α} (h : e ∈ serase m k) : e ∈ m ∧ e.1 ≠ k := by
  induction m with
  | nil => simp [serase] at h
  | cons a m ih =>
    obtain ⟨x, y⟩ := a
    by_cases hx : x = k
    · simp only [serase, hx, if_true] at h
      exact ⟨List.mem_cons_of_mem _ (ih h).1, (ih h).2⟩
    · simp only [serase, hx, if_false, List.mem_cons] at h
      rcases h with rfl | h
      · exact ⟨List.mem_cons_self, hx⟩
      · exact ⟨List.mem_cons_of_mem _ (ih h).1, (ih h).2⟩

/-- Reading any key after a key is written. -/
@[simp] theorem sget_sset {α : Type} [DecidableEq α] (d : α) (m : SMap α) (k k' : Nat) (v : α) :
    sget d (sset d m k v) k' = if k' = k then v else sget d m k' := by
  unfold sset
  split
  · rename_i h
    simp [sget_serase, h]
  · rw [sget_sinsert d _ k k' v (fun e he => (mem_serase he).2), sget_serase]
    split <;> rfl

/-- Reading another key after a key is written, whatever an unlisted key reads as. -/
theorem sget_sset_ne {α : Type} [DecidableEq α] (d d' : α) (m : SMap α) {k k' : Nat} (v : α) (h : k' ≠ k) :
    sget d' (sset d m k v) k' = sget d' m k' := by
  unfold sset
  split
  · simp [sget_serase, h]
  · rw [sget_sinsert d' _ k k' v (fun e he => (mem_serase he).2), sget_serase]
    simp [h]

/-- Removing a key that is not listed. -/
theorem serase_none {α : Type} (m : SMap α) (k : Nat) (h : ∀ e ∈ m, e.1 ≠ k) : serase m k = m := by
  induction m with
  | nil => rfl
  | cons e m ih =>
    obtain ⟨a, b⟩ := e
    have ha : a ≠ k := h (a, b) List.mem_cons_self
    simp [serase, ha, ih (fun e he => h e (List.mem_cons_of_mem _ he))]

/-- Removing a key that was just put in. -/
theorem serase_sinsert {α : Type} (m : SMap α) (k : Nat) (v : α) (h : ∀ e ∈ m, e.1 ≠ k) : serase (sinsert m k v) k = m := by
  induction m with
  | nil => simp [sinsert, serase]
  | cons e m ih =>
    obtain ⟨a, b⟩ := e
    have ha : a ≠ k := h (a, b) List.mem_cons_self
    have hm : ∀ e ∈ m, e.1 ≠ k := fun e he => h e (List.mem_cons_of_mem _ he)
    by_cases hlt : k < a
    · simp [sinsert, hlt, serase, ha, serase_none m k hm]
    · simp [sinsert, hlt, serase, ha, ih hm]

/-- Removing a key that was just written. -/
@[simp] theorem serase_sset {α : Type} [DecidableEq α] (d : α) (m : SMap α) (k : Nat) (v : α) :
    serase (sset d m k v) k = serase m k := by
  have hn : ∀ e ∈ serase m k, e.1 ≠ k := fun e he => (mem_serase he).2
  unfold sset
  split
  · exact serase_none _ _ hn
  · exact serase_sinsert _ _ _ hn

/-- The later of two writes of one key counts. -/
@[simp] theorem sset_sset {α : Type} [DecidableEq α] (d : α) (m : SMap α) (k : Nat) (v w : α) :
    sset d (sset d m k v) k w = sset d m k w := by
  show (if w = d then _ else _) = (if w = d then _ else _)
  simp

/-! ## The canonical form -/

/-- A rising map, from its head. -/
theorem srising_cons {α : Type} (a : Nat) (b : α) (m : SMap α) :
    srising ((a, b) :: m) = true ↔ (∀ e ∈ m.head?, a < e.1) ∧ srising m = true := by
  cases m with
  | nil => simp [srising]
  | cons e m => simp [srising]

/-- In a rising map every later key is larger. -/
theorem srising_lt {α : Type} {a : Nat} {b : α} {m : SMap α} (h : srising ((a, b) :: m) = true) : ∀ e ∈ m, a < e.1 := by
  induction m generalizing a b with
  | nil => simp
  | cons e m ih =>
    obtain ⟨x, y⟩ := e
    have h1 := (srising_cons a b _).1 h
    have hx : a < x := h1.1 (x, y) (by simp)
    intro e he
    rcases List.mem_cons.1 he with rfl | he
    · exact hx
    · exact Nat.lt_trans hx (ih h1.2 e he)

/-- A map whose later keys are larger than its first and which rises behind it. -/
theorem srising_of {α : Type} {a : Nat} {b : α} {m : SMap α} (h : ∀ e ∈ m, a < e.1) (hm : srising m = true) :
    srising ((a, b) :: m) = true :=
  (srising_cons a b m).2 ⟨fun e he => h e (List.mem_of_mem_head? he), hm⟩

/-- Any part of a rising map, taken in order, rises. -/
theorem srising_filter {α : Type} (p : Nat × α → Bool) {m : SMap α} (h : srising m = true) : srising (m.filter p) = true := by
  induction m with
  | nil => rfl
  | cons e m ih =>
    obtain ⟨a, b⟩ := e
    have hm := ((srising_cons a b m).1 h).2
    rw [List.filter_cons]
    split
    · exact srising_of (fun e he => srising_lt h e ((List.mem_filter.1 he).1)) (ih hm)
    · exact ih hm

/-- Removing a key is a filter. -/
theorem serase_eq_filter {α : Type} (m : SMap α) (k : Nat) : serase m k = m.filter (fun e => e.1 != k) := by
  induction m with
  | nil => rfl
  | cons e m ih =>
    obtain ⟨a, b⟩ := e
    by_cases h : a = k <;> simp [serase, h, ih]

/-- The keys and values of a map with a pair put in. -/
theorem mem_sinsert {α : Type} {m : SMap α} {k : Nat} {v : α} {e : Nat × α} (h : e ∈ sinsert m k v) : e = (k, v) ∨ e ∈ m := by
  induction m with
  | nil => exact .inl (by simpa [sinsert] using h)
  | cons x m ih =>
    obtain ⟨a, b⟩ := x
    by_cases hlt : k < a
    · simpa [sinsert, hlt] using h
    · simp only [sinsert, hlt, if_false, List.mem_cons] at h
      rcases h with rfl | h
      · exact .inr List.mem_cons_self
      · rcases ih h with h | h
        · exact .inl h
        · exact .inr (List.mem_cons_of_mem _ h)

/-- A pair put into a rising map that does not list its key. -/
theorem srising_sinsert {α : Type} {m : SMap α} (k : Nat) (v : α) (h : srising m = true) (hk : ∀ e ∈ m, e.1 ≠ k) :
    srising (sinsert m k v) = true := by
  induction m with
  | nil => rfl
  | cons x m ih =>
    obtain ⟨a, b⟩ := x
    have hm := ((srising_cons a b m).1 h).2
    have hgt := srising_lt h
    by_cases hlt : k < a
    · simp only [sinsert, hlt, if_true]
      refine srising_of (fun e he => ?_) h
      rcases List.mem_cons.1 he with rfl | he
      · exact hlt
      · exact Nat.lt_trans hlt (hgt e he)
    · simp only [sinsert, hlt, if_false]
      refine srising_of (fun e he => ?_) (ih hm (fun e he => hk e (List.mem_cons_of_mem _ he)))
      rcases mem_sinsert he with rfl | he
      · exact Nat.lt_of_le_of_ne (Nat.le_of_not_lt hlt) (hk (a, b) List.mem_cons_self)
      · exact hgt e he

/-- A part of a canonical map, taken in order, is canonical. -/
theorem swf_filter {α : Type} [DecidableEq α] (d : α) (p : Nat × α → Bool) {m : SMap α} (h : swf d m = true) :
    swf d (m.filter p) = true := by
  simp only [swf, Bool.and_eq_true, List.all_eq_true] at h ⊢
  exact ⟨srising_filter p h.1, fun e he => h.2 e ((List.mem_filter.1 he).1)⟩

/-- A write keeps the canonical form. -/
theorem swf_sset {α : Type} [DecidableEq α] (d : α) {m : SMap α} (k : Nat) (v : α) (h : swf d m = true) :
    swf d (sset d m k v) = true := by
  have he : swf d (serase m k) = true := by
    rw [serase_eq_filter]
    exact swf_filter d _ h
  unfold sset
  split
  · exact he
  · rename_i hv
    simp only [swf, Bool.and_eq_true, List.all_eq_true] at he ⊢
    refine ⟨srising_sinsert k v he.1 (fun e h => (mem_serase h).2), fun e h => ?_⟩
    rcases mem_sinsert h with rfl | h
    · simpa using hv
    · exact he.2 e h

/-- Two canonical maps with the same reads are equal data. -/
theorem swf_ext {α : Type} [DecidableEq α] (d : α) {m n : SMap α} (hm : swf d m = true) (hn : swf d n = true)
    (h : ∀ k, sget d m k = sget d n k) : m = n := by
  have get : ∀ {m : SMap α} {a : Nat} {b : α}, swf d ((a, b) :: m) = true →
      sget d ((a, b) :: m) a = b ∧ b ≠ d ∧ (∀ k, k < a → sget d ((a, b) :: m) k = d) ∧ swf d m = true := by
    intro m a b hw
    simp only [swf, Bool.and_eq_true, List.all_eq_true] at hw
    have small : ∀ (m : SMap α) (k : Nat), (∀ e ∈ m, k < e.1) → sget d m k = d := by
      intro m k
      induction m with
      | nil => intro _; rfl
      | cons e m ih =>
        obtain ⟨x, y⟩ := e
        intro hx
        have : x ≠ k := Nat.ne_of_gt (hx (x, y) List.mem_cons_self)
        simp [sget, this, ih (fun e he => hx e (List.mem_cons_of_mem _ he))]
    refine ⟨by simp [sget], by simpa using hw.2 (a, b) List.mem_cons_self, fun k hk => ?_, ?_⟩
    · refine small _ k (fun e he => ?_)
      rcases List.mem_cons.1 he with rfl | he
      · exact hk
      · exact Nat.lt_trans hk (srising_lt hw.1 e he)
    · simp only [swf, Bool.and_eq_true, List.all_eq_true]
      exact ⟨((srising_cons a b m).1 hw.1).2, fun e he => hw.2 e (List.mem_cons_of_mem _ he)⟩
  induction m generalizing n with
  | nil =>
    cases n with
    | nil => rfl
    | cons e n =>
      obtain ⟨a, b⟩ := e
      have g := get hn
      exact absurd (g.1.symm.trans (h a).symm) g.2.1
  | cons e m ih =>
    obtain ⟨a, b⟩ := e
    have g := get hm
    cases n with
    | nil =>
      have : b = d := by rw [← g.1, h a]; rfl
      exact absurd this g.2.1
    | cons e' n =>
      obtain ⟨a', b'⟩ := e'
      have g' := get hn
      have haa : a = a' := by
        rcases Nat.lt_trichotomy a a' with hlt | he | hgt
        · exact absurd (by rw [← g.1, h a, g'.2.2.1 a hlt]) g.2.1
        · exact he
        · exact absurd (by rw [← g'.1, ← h a', g.2.2.1 a' hgt]) g'.2.1
      subst haa
      have hb : b = b' := by rw [← g.1, h a, g'.1]
      subst hb
      congr 1
      refine ih g.2.2.2 g'.2.2.2 (fun k => ?_)
      have hk := h k
      by_cases hak : a = k
      · subst hak
        have low : ∀ {m : SMap α}, swf d ((a, b) :: m) = true → sget d m a = d := by
          intro m hw
          simp only [swf, Bool.and_eq_true, List.all_eq_true] at hw
          have hl := srising_lt hw.1
          clear hw
          induction m with
          | nil => rfl
          | cons e m ih =>
            obtain ⟨x, y⟩ := e
            have : x ≠ a := Nat.ne_of_gt (hl (x, y) List.mem_cons_self)
            simp [sget, this, ih (fun e he => hl e (List.mem_cons_of_mem _ he))]
        rw [low hm, low hn]
      · simpa [sget, hak] using hk

end Sys2Proof.Machine
end

