-- ==== Sys2Proof/Laws/State.lean ====
section
/-! SUPPORT. Each field of the state after each primitive update: one lemma a field and update, true by rfl. -/

namespace Sys2Proof.Machine

/-! ## setReg -/

@[simp] theorem setReg_pending (s : State) (o : Nat) (v : Word) : (setReg s o v).pending = s.pending := rfl
@[simp] theorem setReg_power (s : State) (o : Nat) (v : Word) : (setReg s o v).power = s.power := rfl
@[simp] theorem setReg_time (s : State) (o : Nat) (v : Word) : (setReg s o v).time = s.time := rfl
@[simp] theorem setReg_vid (s : State) (o : Nat) (v : Word) : (setReg s o v).vid = s.vid := rfl
@[simp] theorem setReg_regions (s : State) (o : Nat) (v : Word) : (setReg s o v).regions = s.regions := rfl
@[simp] theorem setReg_tdcUse (s : State) (o : Nat) (v : Word) : (setReg s o v).tdcUse = s.tdcUse := rfl
@[simp] theorem setReg_regs (s : State) (o : Nat) (v : Word) : (setReg s o v).regs = sset (regReset o) s.regs o v := rfl
@[simp] theorem setReg_totals (s : State) (o : Nat) (v : Word) : (setReg s o v).totals = s.totals := rfl
@[simp] theorem setReg_host (s : State) (o : Nat) (v : Word) : (setReg s o v).host = s.host := rfl
@[simp] theorem setReg_rings (s : State) (o : Nat) (v : Word) : (setReg s o v).rings = s.rings := rfl
@[simp] theorem setReg_kennel (s : State) (o : Nat) (v : Word) : (setReg s o v).kennel = s.kennel := rfl
@[simp] theorem setReg_scratch (s : State) (o : Nat) (v : Word) : (setReg s o v).scratch = s.scratch := rfl
@[simp] theorem setReg_slots (s : State) (o : Nat) (v : Word) : (setReg s o v).slots = s.slots := rfl
@[simp] theorem setReg_prog (s : State) (o : Nat) (v : Word) : (setReg s o v).prog = s.prog := rfl
@[simp] theorem setReg_routes (s : State) (o : Nat) (v : Word) : (setReg s o v).routes = s.routes := rfl
@[simp] theorem setReg_lsts (s : State) (o : Nat) (v : Word) : (setReg s o v).lsts = s.lsts := rfl
@[simp] theorem setReg_sets (s : State) (o : Nat) (v : Word) : (setReg s o v).sets = s.sets := rfl
@[simp] theorem setReg_talkers (s : State) (o : Nat) (v : Word) : (setReg s o v).talkers = s.talkers := rfl
@[simp] theorem setReg_herder (s : State) (o : Nat) (v : Word) : (setReg s o v).herder = s.herder := rfl
@[simp] theorem setReg_pack (s : State) (o : Nat) (v : Word) : (setReg s o v).pack = s.pack := rfl
@[simp] theorem setReg_lq (s : State) (o : Nat) (v : Word) : (setReg s o v).lq = s.lq := rfl
@[simp] theorem setReg_evIn (s : State) (o : Nat) (v : Word) : (setReg s o v).evIn = s.evIn := rfl
@[simp] theorem setReg_evOut (s : State) (o : Nat) (v : Word) : (setReg s o v).evOut = s.evOut := rfl
@[simp] theorem setReg_serial (s : State) (o : Nat) (v : Word) : (setReg s o v).serial = s.serial := rfl
@[simp] theorem setReg_can (s : State) (o : Nat) (v : Word) : (setReg s o v).can = s.can := rfl
@[simp] theorem setReg_eth (s : State) (o : Nat) (v : Word) : (setReg s o v).eth = s.eth := rfl
@[simp] theorem setReg_dups (s : State) (o : Nat) (v : Word) : (setReg s o v).dups = s.dups := rfl
@[simp] theorem setReg_bridge (s : State) (o : Nat) (v : Word) : (setReg s o v).bridge = s.bridge := rfl
@[simp] theorem setReg_panels (s : State) (o : Nat) (v : Word) : (setReg s o v).panels = s.panels := rfl
@[simp] theorem setReg_panelSet (s : State) (o : Nat) (v : Word) : (setReg s o v).panelSet = s.panelSet := rfl
@[simp] theorem setReg_tap (s : State) (o : Nat) (v : Word) : (setReg s o v).tap = s.tap := rfl
@[simp] theorem setReg_pool (s : State) (o : Nat) (v : Word) : (setReg s o v).pool = s.pool := rfl
@[simp] theorem setReg_ledgers (s : State) (o : Nat) (v : Word) : (setReg s o v).ledgers = s.ledgers := rfl
@[simp] theorem setReg_integ (s : State) (o : Nat) (v : Word) : (setReg s o v).integ = s.integ := rfl
@[simp] theorem setReg_pair (s : State) (o : Nat) (v : Word) : (setReg s o v).pair = s.pair := rfl
@[simp] theorem setReg_freeCount (s : State) (o : Nat) (v : Word) : (setReg s o v).freeCount = s.freeCount := rfl
@[simp] theorem setReg_out (s : State) (o : Nat) (v : Word) : (setReg s o v).out = s.out := rfl

/-! ## emit -/

@[simp] theorem emit_pending (s : State) (o : Out) : (emit s o).pending = s.pending := rfl
@[simp] theorem emit_power (s : State) (o : Out) : (emit s o).power = s.power := rfl
@[simp] theorem emit_time (s : State) (o : Out) : (emit s o).time = s.time := rfl
@[simp] theorem emit_vid (s : State) (o : Out) : (emit s o).vid = s.vid := rfl
@[simp] theorem emit_regions (s : State) (o : Out) : (emit s o).regions = s.regions := rfl
@[simp] theorem emit_tdcUse (s : State) (o : Out) : (emit s o).tdcUse = s.tdcUse := rfl
@[simp] theorem emit_regs (s : State) (o : Out) : (emit s o).regs = s.regs := rfl
@[simp] theorem emit_totals (s : State) (o : Out) : (emit s o).totals = s.totals := rfl
@[simp] theorem emit_host (s : State) (o : Out) : (emit s o).host = s.host := rfl
@[simp] theorem emit_rings (s : State) (o : Out) : (emit s o).rings = s.rings := rfl
@[simp] theorem emit_kennel (s : State) (o : Out) : (emit s o).kennel = s.kennel := rfl
@[simp] theorem emit_scratch (s : State) (o : Out) : (emit s o).scratch = s.scratch := rfl
@[simp] theorem emit_slots (s : State) (o : Out) : (emit s o).slots = s.slots := rfl
@[simp] theorem emit_prog (s : State) (o : Out) : (emit s o).prog = s.prog := rfl
@[simp] theorem emit_routes (s : State) (o : Out) : (emit s o).routes = s.routes := rfl
@[simp] theorem emit_lsts (s : State) (o : Out) : (emit s o).lsts = s.lsts := rfl
@[simp] theorem emit_sets (s : State) (o : Out) : (emit s o).sets = s.sets := rfl
@[simp] theorem emit_talkers (s : State) (o : Out) : (emit s o).talkers = s.talkers := rfl
@[simp] theorem emit_herder (s : State) (o : Out) : (emit s o).herder = s.herder := rfl
@[simp] theorem emit_pack (s : State) (o : Out) : (emit s o).pack = s.pack := rfl
@[simp] theorem emit_lq (s : State) (o : Out) : (emit s o).lq = s.lq := rfl
@[simp] theorem emit_evIn (s : State) (o : Out) : (emit s o).evIn = s.evIn := rfl
@[simp] theorem emit_evOut (s : State) (o : Out) : (emit s o).evOut = s.evOut := rfl
@[simp] theorem emit_serial (s : State) (o : Out) : (emit s o).serial = s.serial := rfl
@[simp] theorem emit_can (s : State) (o : Out) : (emit s o).can = s.can := rfl
@[simp] theorem emit_eth (s : State) (o : Out) : (emit s o).eth = s.eth := rfl
@[simp] theorem emit_dups (s : State) (o : Out) : (emit s o).dups = s.dups := rfl
@[simp] theorem emit_bridge (s : State) (o : Out) : (emit s o).bridge = s.bridge := rfl
@[simp] theorem emit_panels (s : State) (o : Out) : (emit s o).panels = s.panels := rfl
@[simp] theorem emit_panelSet (s : State) (o : Out) : (emit s o).panelSet = s.panelSet := rfl
@[simp] theorem emit_tap (s : State) (o : Out) : (emit s o).tap = s.tap := rfl
@[simp] theorem emit_pool (s : State) (o : Out) : (emit s o).pool = s.pool := rfl
@[simp] theorem emit_ledgers (s : State) (o : Out) : (emit s o).ledgers = s.ledgers := rfl
@[simp] theorem emit_integ (s : State) (o : Out) : (emit s o).integ = s.integ := rfl
@[simp] theorem emit_pair (s : State) (o : Out) : (emit s o).pair = s.pair := rfl
@[simp] theorem emit_freeCount (s : State) (o : Out) : (emit s o).freeCount = s.freeCount := rfl
@[simp] theorem emit_out (s : State) (o : Out) : (emit s o).out = s.out ++ [o] := rfl

/-! ## dmaWrite -/

@[simp] theorem dmaWrite_pending (s : State) (a : Nat) (bs : List Byte) : (dmaWrite s a bs).pending = s.pending := rfl
@[simp] theorem dmaWrite_power (s : State) (a : Nat) (bs : List Byte) : (dmaWrite s a bs).power = s.power := rfl
@[simp] theorem dmaWrite_time (s : State) (a : Nat) (bs : List Byte) : (dmaWrite s a bs).time = s.time := rfl
@[simp] theorem dmaWrite_vid (s : State) (a : Nat) (bs : List Byte) : (dmaWrite s a bs).vid = s.vid := rfl
@[simp] theorem dmaWrite_regions (s : State) (a : Nat) (bs : List Byte) : (dmaWrite s a bs).regions = s.regions := rfl
@[simp] theorem dmaWrite_tdcUse (s : State) (a : Nat) (bs : List Byte) : (dmaWrite s a bs).tdcUse = s.tdcUse := rfl
@[simp] theorem dmaWrite_regs (s : State) (a : Nat) (bs : List Byte) : (dmaWrite s a bs).regs = s.regs := rfl
@[simp] theorem dmaWrite_totals (s : State) (a : Nat) (bs : List Byte) : (dmaWrite s a bs).totals = s.totals := rfl
@[simp] theorem dmaWrite_host (s : State) (a : Nat) (bs : List Byte) : (dmaWrite s a bs).host = s.host := rfl
@[simp] theorem dmaWrite_rings (s : State) (a : Nat) (bs : List Byte) : (dmaWrite s a bs).rings = s.rings := rfl
@[simp] theorem dmaWrite_kennel (s : State) (a : Nat) (bs : List Byte) : (dmaWrite s a bs).kennel = s.kennel := rfl
@[simp] theorem dmaWrite_scratch (s : State) (a : Nat) (bs : List Byte) : (dmaWrite s a bs).scratch = s.scratch := rfl
@[simp] theorem dmaWrite_slots (s : State) (a : Nat) (bs : List Byte) : (dmaWrite s a bs).slots = s.slots := rfl
@[simp] theorem dmaWrite_prog (s : State) (a : Nat) (bs : List Byte) : (dmaWrite s a bs).prog = s.prog := rfl
@[simp] theorem dmaWrite_routes (s : State) (a : Nat) (bs : List Byte) : (dmaWrite s a bs).routes = s.routes := rfl
@[simp] theorem dmaWrite_lsts (s : State) (a : Nat) (bs : List Byte) : (dmaWrite s a bs).lsts = s.lsts := rfl
@[simp] theorem dmaWrite_sets (s : State) (a : Nat) (bs : List Byte) : (dmaWrite s a bs).sets = s.sets := rfl
@[simp] theorem dmaWrite_talkers (s : State) (a : Nat) (bs : List Byte) : (dmaWrite s a bs).talkers = s.talkers := rfl
@[simp] theorem dmaWrite_herder (s : State) (a : Nat) (bs : List Byte) : (dmaWrite s a bs).herder = s.herder := rfl
@[simp] theorem dmaWrite_pack (s : State) (a : Nat) (bs : List Byte) : (dmaWrite s a bs).pack = s.pack := rfl
@[simp] theorem dmaWrite_lq (s : State) (a : Nat) (bs : List Byte) : (dmaWrite s a bs).lq = s.lq := rfl
@[simp] theorem dmaWrite_evIn (s : State) (a : Nat) (bs : List Byte) : (dmaWrite s a bs).evIn = s.evIn := rfl
@[simp] theorem dmaWrite_evOut (s : State) (a : Nat) (bs : List Byte) : (dmaWrite s a bs).evOut = s.evOut := rfl
@[simp] theorem dmaWrite_serial (s : State) (a : Nat) (bs : List Byte) : (dmaWrite s a bs).serial = s.serial := rfl
@[simp] theorem dmaWrite_can (s : State) (a : Nat) (bs : List Byte) : (dmaWrite s a bs).can = s.can := rfl
@[simp] theorem dmaWrite_eth (s : State) (a : Nat) (bs : List Byte) : (dmaWrite s a bs).eth = s.eth := rfl
@[simp] theorem dmaWrite_dups (s : State) (a : Nat) (bs : List Byte) : (dmaWrite s a bs).dups = s.dups := rfl
@[simp] theorem dmaWrite_bridge (s : State) (a : Nat) (bs : List Byte) : (dmaWrite s a bs).bridge = s.bridge := rfl
@[simp] theorem dmaWrite_panels (s : State) (a : Nat) (bs : List Byte) : (dmaWrite s a bs).panels = s.panels := rfl
@[simp] theorem dmaWrite_panelSet (s : State) (a : Nat) (bs : List Byte) : (dmaWrite s a bs).panelSet = s.panelSet := rfl
@[simp] theorem dmaWrite_tap (s : State) (a : Nat) (bs : List Byte) : (dmaWrite s a bs).tap = s.tap := rfl
@[simp] theorem dmaWrite_pool (s : State) (a : Nat) (bs : List Byte) : (dmaWrite s a bs).pool = s.pool := rfl
@[simp] theorem dmaWrite_ledgers (s : State) (a : Nat) (bs : List Byte) : (dmaWrite s a bs).ledgers = s.ledgers := rfl
@[simp] theorem dmaWrite_integ (s : State) (a : Nat) (bs : List Byte) : (dmaWrite s a bs).integ = s.integ := rfl
@[simp] theorem dmaWrite_pair (s : State) (a : Nat) (bs : List Byte) : (dmaWrite s a bs).pair = s.pair := rfl
@[simp] theorem dmaWrite_freeCount (s : State) (a : Nat) (bs : List Byte) : (dmaWrite s a bs).freeCount = s.freeCount := rfl
@[simp] theorem dmaWrite_out (s : State) (a : Nat) (bs : List Byte) : (dmaWrite s a bs).out = s.out ++ dmaChunks (bs.length + 1) a bs := rfl

/-! ## setRing -/

@[simp] theorem setRing_pending (s : State) (r : Nat) (v : Ring) : (setRing s r v).pending = s.pending := rfl
@[simp] theorem setRing_power (s : State) (r : Nat) (v : Ring) : (setRing s r v).power = s.power := rfl
@[simp] theorem setRing_time (s : State) (r : Nat) (v : Ring) : (setRing s r v).time = s.time := rfl
@[simp] theorem setRing_vid (s : State) (r : Nat) (v : Ring) : (setRing s r v).vid = s.vid := rfl
@[simp] theorem setRing_regions (s : State) (r : Nat) (v : Ring) : (setRing s r v).regions = s.regions := rfl
@[simp] theorem setRing_tdcUse (s : State) (r : Nat) (v : Ring) : (setRing s r v).tdcUse = s.tdcUse := rfl
@[simp] theorem setRing_regs (s : State) (r : Nat) (v : Ring) : (setRing s r v).regs = s.regs := rfl
@[simp] theorem setRing_totals (s : State) (r : Nat) (v : Ring) : (setRing s r v).totals = s.totals := rfl
@[simp] theorem setRing_host (s : State) (r : Nat) (v : Ring) : (setRing s r v).host = s.host := rfl
@[simp] theorem setRing_rings (s : State) (r : Nat) (v : Ring) : (setRing s r v).rings = sset Ring.init s.rings r v := rfl
@[simp] theorem setRing_kennel (s : State) (r : Nat) (v : Ring) : (setRing s r v).kennel = s.kennel := rfl
@[simp] theorem setRing_scratch (s : State) (r : Nat) (v : Ring) : (setRing s r v).scratch = s.scratch := rfl
@[simp] theorem setRing_slots (s : State) (r : Nat) (v : Ring) : (setRing s r v).slots = s.slots := rfl
@[simp] theorem setRing_prog (s : State) (r : Nat) (v : Ring) : (setRing s r v).prog = s.prog := rfl
@[simp] theorem setRing_routes (s : State) (r : Nat) (v : Ring) : (setRing s r v).routes = s.routes := rfl
@[simp] theorem setRing_lsts (s : State) (r : Nat) (v : Ring) : (setRing s r v).lsts = s.lsts := rfl
@[simp] theorem setRing_sets (s : State) (r : Nat) (v : Ring) : (setRing s r v).sets = s.sets := rfl
@[simp] theorem setRing_talkers (s : State) (r : Nat) (v : Ring) : (setRing s r v).talkers = s.talkers := rfl
@[simp] theorem setRing_herder (s : State) (r : Nat) (v : Ring) : (setRing s r v).herder = s.herder := rfl
@[simp] theorem setRing_pack (s : State) (r : Nat) (v : Ring) : (setRing s r v).pack = s.pack := rfl
@[simp] theorem setRing_lq (s : State) (r : Nat) (v : Ring) : (setRing s r v).lq = s.lq := rfl
@[simp] theorem setRing_evIn (s : State) (r : Nat) (v : Ring) : (setRing s r v).evIn = s.evIn := rfl
@[simp] theorem setRing_evOut (s : State) (r : Nat) (v : Ring) : (setRing s r v).evOut = s.evOut := rfl
@[simp] theorem setRing_serial (s : State) (r : Nat) (v : Ring) : (setRing s r v).serial = s.serial := rfl
@[simp] theorem setRing_can (s : State) (r : Nat) (v : Ring) : (setRing s r v).can = s.can := rfl
@[simp] theorem setRing_eth (s : State) (r : Nat) (v : Ring) : (setRing s r v).eth = s.eth := rfl
@[simp] theorem setRing_dups (s : State) (r : Nat) (v : Ring) : (setRing s r v).dups = s.dups := rfl
@[simp] theorem setRing_bridge (s : State) (r : Nat) (v : Ring) : (setRing s r v).bridge = s.bridge := rfl
@[simp] theorem setRing_panels (s : State) (r : Nat) (v : Ring) : (setRing s r v).panels = s.panels := rfl
@[simp] theorem setRing_panelSet (s : State) (r : Nat) (v : Ring) : (setRing s r v).panelSet = s.panelSet := rfl
@[simp] theorem setRing_tap (s : State) (r : Nat) (v : Ring) : (setRing s r v).tap = s.tap := rfl
@[simp] theorem setRing_pool (s : State) (r : Nat) (v : Ring) : (setRing s r v).pool = s.pool := rfl
@[simp] theorem setRing_ledgers (s : State) (r : Nat) (v : Ring) : (setRing s r v).ledgers = s.ledgers := rfl
@[simp] theorem setRing_integ (s : State) (r : Nat) (v : Ring) : (setRing s r v).integ = s.integ := rfl
@[simp] theorem setRing_pair (s : State) (r : Nat) (v : Ring) : (setRing s r v).pair = s.pair := rfl
@[simp] theorem setRing_freeCount (s : State) (r : Nat) (v : Ring) : (setRing s r v).freeCount = s.freeCount := rfl
@[simp] theorem setRing_out (s : State) (r : Nat) (v : Ring) : (setRing s r v).out = s.out := rfl

/-! ## setArm -/

@[simp] theorem setArm_pending (s : State) (a : Nat) (v : Option Arm) : (setArm s a v).pending = s.pending := rfl
@[simp] theorem setArm_power (s : State) (a : Nat) (v : Option Arm) : (setArm s a v).power = s.power := rfl
@[simp] theorem setArm_time (s : State) (a : Nat) (v : Option Arm) : (setArm s a v).time = s.time := rfl
@[simp] theorem setArm_vid (s : State) (a : Nat) (v : Option Arm) : (setArm s a v).vid = s.vid := rfl
@[simp] theorem setArm_regions (s : State) (a : Nat) (v : Option Arm) : (setArm s a v).regions = s.regions := rfl
@[simp] theorem setArm_tdcUse (s : State) (a : Nat) (v : Option Arm) : (setArm s a v).tdcUse = s.tdcUse := rfl
@[simp] theorem setArm_regs (s : State) (a : Nat) (v : Option Arm) : (setArm s a v).regs = s.regs := rfl
@[simp] theorem setArm_totals (s : State) (a : Nat) (v : Option Arm) : (setArm s a v).totals = s.totals := rfl
@[simp] theorem setArm_host (s : State) (a : Nat) (v : Option Arm) : (setArm s a v).host = s.host := rfl
@[simp] theorem setArm_rings (s : State) (a : Nat) (v : Option Arm) : (setArm s a v).rings = s.rings := rfl
@[simp] theorem setArm_kennel (s : State) (a : Nat) (v : Option Arm) : (setArm s a v).kennel = s.kennel := rfl
@[simp] theorem setArm_scratch (s : State) (a : Nat) (v : Option Arm) : (setArm s a v).scratch = s.scratch := rfl
@[simp] theorem setArm_slots (s : State) (a : Nat) (v : Option Arm) : (setArm s a v).slots = s.slots := rfl
@[simp] theorem setArm_prog (s : State) (a : Nat) (v : Option Arm) : (setArm s a v).prog = s.prog := rfl
@[simp] theorem setArm_routes (s : State) (a : Nat) (v : Option Arm) : (setArm s a v).routes = s.routes := rfl
@[simp] theorem setArm_lsts (s : State) (a : Nat) (v : Option Arm) : (setArm s a v).lsts = s.lsts := rfl
@[simp] theorem setArm_sets (s : State) (a : Nat) (v : Option Arm) : (setArm s a v).sets = s.sets := rfl
@[simp] theorem setArm_talkers (s : State) (a : Nat) (v : Option Arm) : (setArm s a v).talkers = s.talkers := rfl
@[simp] theorem setArm_herder (s : State) (a : Nat) (v : Option Arm) : (setArm s a v).herder = s.herder := rfl
@[simp] theorem setArm_pack (s : State) (a : Nat) (v : Option Arm) : (setArm s a v).pack = s.pack := rfl
@[simp] theorem setArm_lq (s : State) (a : Nat) (v : Option Arm) : (setArm s a v).lq = s.lq := rfl
@[simp] theorem setArm_evIn (s : State) (a : Nat) (v : Option Arm) : (setArm s a v).evIn = s.evIn := rfl
@[simp] theorem setArm_evOut (s : State) (a : Nat) (v : Option Arm) : (setArm s a v).evOut = s.evOut := rfl
@[simp] theorem setArm_serial (s : State) (a : Nat) (v : Option Arm) : (setArm s a v).serial = s.serial := rfl
@[simp] theorem setArm_can (s : State) (a : Nat) (v : Option Arm) : (setArm s a v).can = s.can := rfl
@[simp] theorem setArm_eth (s : State) (a : Nat) (v : Option Arm) : (setArm s a v).eth = s.eth := rfl
@[simp] theorem setArm_dups (s : State) (a : Nat) (v : Option Arm) : (setArm s a v).dups = s.dups := rfl
@[simp] theorem setArm_bridge (s : State) (a : Nat) (v : Option Arm) : (setArm s a v).bridge = s.bridge := rfl
@[simp] theorem setArm_panels (s : State) (a : Nat) (v : Option Arm) : (setArm s a v).panels = s.panels := rfl
@[simp] theorem setArm_panelSet (s : State) (a : Nat) (v : Option Arm) : (setArm s a v).panelSet = s.panelSet := rfl
@[simp] theorem setArm_tap (s : State) (a : Nat) (v : Option Arm) : (setArm s a v).tap = s.tap := rfl
@[simp] theorem setArm_pool (s : State) (a : Nat) (v : Option Arm) : (setArm s a v).pool = s.pool := rfl
@[simp] theorem setArm_ledgers (s : State) (a : Nat) (v : Option Arm) : (setArm s a v).ledgers = s.ledgers := rfl
@[simp] theorem setArm_integ (s : State) (a : Nat) (v : Option Arm) : (setArm s a v).integ = { s.integ with arms := sset none s.integ.arms a v } := rfl
@[simp] theorem setArm_pair (s : State) (a : Nat) (v : Option Arm) : (setArm s a v).pair = s.pair := rfl
@[simp] theorem setArm_freeCount (s : State) (a : Nat) (v : Option Arm) : (setArm s a v).freeCount = s.freeCount := rfl
@[simp] theorem setArm_out (s : State) (a : Nat) (v : Option Arm) : (setArm s a v).out = s.out := rfl

/-! ## setCmd -/

@[simp] theorem setCmd_pending (s : State) (k : Nat) (f : HostCmd → HostCmd) : (setCmd s k f).pending = s.pending := rfl
@[simp] theorem setCmd_power (s : State) (k : Nat) (f : HostCmd → HostCmd) : (setCmd s k f).power = s.power := rfl
@[simp] theorem setCmd_time (s : State) (k : Nat) (f : HostCmd → HostCmd) : (setCmd s k f).time = s.time := rfl
@[simp] theorem setCmd_vid (s : State) (k : Nat) (f : HostCmd → HostCmd) : (setCmd s k f).vid = s.vid := rfl
@[simp] theorem setCmd_regions (s : State) (k : Nat) (f : HostCmd → HostCmd) : (setCmd s k f).regions = s.regions := rfl
@[simp] theorem setCmd_tdcUse (s : State) (k : Nat) (f : HostCmd → HostCmd) : (setCmd s k f).tdcUse = s.tdcUse := rfl
@[simp] theorem setCmd_regs (s : State) (k : Nat) (f : HostCmd → HostCmd) : (setCmd s k f).regs = s.regs := rfl
@[simp] theorem setCmd_totals (s : State) (k : Nat) (f : HostCmd → HostCmd) : (setCmd s k f).totals = s.totals := rfl
@[simp] theorem setCmd_host (s : State) (k : Nat) (f : HostCmd → HostCmd) : (setCmd s k f).host = { s.host with cmds := s.host.cmds.map (fun c => if c.slot == k then f c else c) } := rfl
@[simp] theorem setCmd_rings (s : State) (k : Nat) (f : HostCmd → HostCmd) : (setCmd s k f).rings = s.rings := rfl
@[simp] theorem setCmd_kennel (s : State) (k : Nat) (f : HostCmd → HostCmd) : (setCmd s k f).kennel = s.kennel := rfl
@[simp] theorem setCmd_scratch (s : State) (k : Nat) (f : HostCmd → HostCmd) : (setCmd s k f).scratch = s.scratch := rfl
@[simp] theorem setCmd_slots (s : State) (k : Nat) (f : HostCmd → HostCmd) : (setCmd s k f).slots = s.slots := rfl
@[simp] theorem setCmd_prog (s : State) (k : Nat) (f : HostCmd → HostCmd) : (setCmd s k f).prog = s.prog := rfl
@[simp] theorem setCmd_routes (s : State) (k : Nat) (f : HostCmd → HostCmd) : (setCmd s k f).routes = s.routes := rfl
@[simp] theorem setCmd_lsts (s : State) (k : Nat) (f : HostCmd → HostCmd) : (setCmd s k f).lsts = s.lsts := rfl
@[simp] theorem setCmd_sets (s : State) (k : Nat) (f : HostCmd → HostCmd) : (setCmd s k f).sets = s.sets := rfl
@[simp] theorem setCmd_talkers (s : State) (k : Nat) (f : HostCmd → HostCmd) : (setCmd s k f).talkers = s.talkers := rfl
@[simp] theorem setCmd_herder (s : State) (k : Nat) (f : HostCmd → HostCmd) : (setCmd s k f).herder = s.herder := rfl
@[simp] theorem setCmd_pack (s : State) (k : Nat) (f : HostCmd → HostCmd) : (setCmd s k f).pack = s.pack := rfl
@[simp] theorem setCmd_lq (s : State) (k : Nat) (f : HostCmd → HostCmd) : (setCmd s k f).lq = s.lq := rfl
@[simp] theorem setCmd_evIn (s : State) (k : Nat) (f : HostCmd → HostCmd) : (setCmd s k f).evIn = s.evIn := rfl
@[simp] theorem setCmd_evOut (s : State) (k : Nat) (f : HostCmd → HostCmd) : (setCmd s k f).evOut = s.evOut := rfl
@[simp] theorem setCmd_serial (s : State) (k : Nat) (f : HostCmd → HostCmd) : (setCmd s k f).serial = s.serial := rfl
@[simp] theorem setCmd_can (s : State) (k : Nat) (f : HostCmd → HostCmd) : (setCmd s k f).can = s.can := rfl
@[simp] theorem setCmd_eth (s : State) (k : Nat) (f : HostCmd → HostCmd) : (setCmd s k f).eth = s.eth := rfl
@[simp] theorem setCmd_dups (s : State) (k : Nat) (f : HostCmd → HostCmd) : (setCmd s k f).dups = s.dups := rfl
@[simp] theorem setCmd_bridge (s : State) (k : Nat) (f : HostCmd → HostCmd) : (setCmd s k f).bridge = s.bridge := rfl
@[simp] theorem setCmd_panels (s : State) (k : Nat) (f : HostCmd → HostCmd) : (setCmd s k f).panels = s.panels := rfl
@[simp] theorem setCmd_panelSet (s : State) (k : Nat) (f : HostCmd → HostCmd) : (setCmd s k f).panelSet = s.panelSet := rfl
@[simp] theorem setCmd_tap (s : State) (k : Nat) (f : HostCmd → HostCmd) : (setCmd s k f).tap = s.tap := rfl
@[simp] theorem setCmd_pool (s : State) (k : Nat) (f : HostCmd → HostCmd) : (setCmd s k f).pool = s.pool := rfl
@[simp] theorem setCmd_ledgers (s : State) (k : Nat) (f : HostCmd → HostCmd) : (setCmd s k f).ledgers = s.ledgers := rfl
@[simp] theorem setCmd_integ (s : State) (k : Nat) (f : HostCmd → HostCmd) : (setCmd s k f).integ = s.integ := rfl
@[simp] theorem setCmd_pair (s : State) (k : Nat) (f : HostCmd → HostCmd) : (setCmd s k f).pair = s.pair := rfl
@[simp] theorem setCmd_freeCount (s : State) (k : Nat) (f : HostCmd → HostCmd) : (setCmd s k f).freeCount = s.freeCount := rfl
@[simp] theorem setCmd_out (s : State) (k : Nat) (f : HostCmd → HostCmd) : (setCmd s k f).out = s.out := rfl

/-! ## setTime -/

@[simp] theorem setTime_pending (s : State) (t : TimeCore) : (setTime s t).pending = s.pending := rfl
@[simp] theorem setTime_power (s : State) (t : TimeCore) : (setTime s t).power = s.power := rfl
@[simp] theorem setTime_time (s : State) (t : TimeCore) : (setTime s t).time = t := rfl
@[simp] theorem setTime_vid (s : State) (t : TimeCore) : (setTime s t).vid = s.vid := rfl
@[simp] theorem setTime_regions (s : State) (t : TimeCore) : (setTime s t).regions = s.regions := rfl
@[simp] theorem setTime_tdcUse (s : State) (t : TimeCore) : (setTime s t).tdcUse = s.tdcUse := rfl
@[simp] theorem setTime_regs (s : State) (t : TimeCore) : (setTime s t).regs = s.regs := rfl
@[simp] theorem setTime_totals (s : State) (t : TimeCore) : (setTime s t).totals = s.totals := rfl
@[simp] theorem setTime_host (s : State) (t : TimeCore) : (setTime s t).host = s.host := rfl
@[simp] theorem setTime_rings (s : State) (t : TimeCore) : (setTime s t).rings = s.rings := rfl
@[simp] theorem setTime_kennel (s : State) (t : TimeCore) : (setTime s t).kennel = s.kennel := rfl
@[simp] theorem setTime_scratch (s : State) (t : TimeCore) : (setTime s t).scratch = s.scratch := rfl
@[simp] theorem setTime_slots (s : State) (t : TimeCore) : (setTime s t).slots = s.slots := rfl
@[simp] theorem setTime_prog (s : State) (t : TimeCore) : (setTime s t).prog = s.prog := rfl
@[simp] theorem setTime_routes (s : State) (t : TimeCore) : (setTime s t).routes = s.routes := rfl
@[simp] theorem setTime_lsts (s : State) (t : TimeCore) : (setTime s t).lsts = s.lsts := rfl
@[simp] theorem setTime_sets (s : State) (t : TimeCore) : (setTime s t).sets = s.sets := rfl
@[simp] theorem setTime_talkers (s : State) (t : TimeCore) : (setTime s t).talkers = s.talkers := rfl
@[simp] theorem setTime_herder (s : State) (t : TimeCore) : (setTime s t).herder = s.herder := rfl
@[simp] theorem setTime_pack (s : State) (t : TimeCore) : (setTime s t).pack = s.pack := rfl
@[simp] theorem setTime_lq (s : State) (t : TimeCore) : (setTime s t).lq = s.lq := rfl
@[simp] theorem setTime_evIn (s : State) (t : TimeCore) : (setTime s t).evIn = s.evIn := rfl
@[simp] theorem setTime_evOut (s : State) (t : TimeCore) : (setTime s t).evOut = s.evOut := rfl
@[simp] theorem setTime_serial (s : State) (t : TimeCore) : (setTime s t).serial = s.serial := rfl
@[simp] theorem setTime_can (s : State) (t : TimeCore) : (setTime s t).can = s.can := rfl
@[simp] theorem setTime_eth (s : State) (t : TimeCore) : (setTime s t).eth = s.eth := rfl
@[simp] theorem setTime_dups (s : State) (t : TimeCore) : (setTime s t).dups = s.dups := rfl
@[simp] theorem setTime_bridge (s : State) (t : TimeCore) : (setTime s t).bridge = s.bridge := rfl
@[simp] theorem setTime_panels (s : State) (t : TimeCore) : (setTime s t).panels = s.panels := rfl
@[simp] theorem setTime_panelSet (s : State) (t : TimeCore) : (setTime s t).panelSet = s.panelSet := rfl
@[simp] theorem setTime_tap (s : State) (t : TimeCore) : (setTime s t).tap = s.tap := rfl
@[simp] theorem setTime_pool (s : State) (t : TimeCore) : (setTime s t).pool = s.pool := rfl
@[simp] theorem setTime_ledgers (s : State) (t : TimeCore) : (setTime s t).ledgers = s.ledgers := rfl
@[simp] theorem setTime_integ (s : State) (t : TimeCore) : (setTime s t).integ = s.integ := rfl
@[simp] theorem setTime_pair (s : State) (t : TimeCore) : (setTime s t).pair = s.pair := rfl
@[simp] theorem setTime_freeCount (s : State) (t : TimeCore) : (setTime s t).freeCount = s.freeCount := rfl
@[simp] theorem setTime_out (s : State) (t : TimeCore) : (setTime s t).out = s.out := rfl

/-! ## setRegion -/

@[simp] theorem setRegion_pending (s : State) (g : Nat) (r : Region) : (setRegion s g r).pending = s.pending := rfl
@[simp] theorem setRegion_power (s : State) (g : Nat) (r : Region) : (setRegion s g r).power = s.power := rfl
@[simp] theorem setRegion_time (s : State) (g : Nat) (r : Region) : (setRegion s g r).time = s.time := rfl
@[simp] theorem setRegion_vid (s : State) (g : Nat) (r : Region) : (setRegion s g r).vid = s.vid := rfl
@[simp] theorem setRegion_regions (s : State) (g : Nat) (r : Region) : (setRegion s g r).regions = sset Region.init s.regions g r := rfl
@[simp] theorem setRegion_tdcUse (s : State) (g : Nat) (r : Region) : (setRegion s g r).tdcUse = s.tdcUse := rfl
@[simp] theorem setRegion_regs (s : State) (g : Nat) (r : Region) : (setRegion s g r).regs = s.regs := rfl
@[simp] theorem setRegion_totals (s : State) (g : Nat) (r : Region) : (setRegion s g r).totals = s.totals := rfl
@[simp] theorem setRegion_host (s : State) (g : Nat) (r : Region) : (setRegion s g r).host = s.host := rfl
@[simp] theorem setRegion_rings (s : State) (g : Nat) (r : Region) : (setRegion s g r).rings = s.rings := rfl
@[simp] theorem setRegion_kennel (s : State) (g : Nat) (r : Region) : (setRegion s g r).kennel = s.kennel := rfl
@[simp] theorem setRegion_scratch (s : State) (g : Nat) (r : Region) : (setRegion s g r).scratch = s.scratch := rfl
@[simp] theorem setRegion_slots (s : State) (g : Nat) (r : Region) : (setRegion s g r).slots = s.slots := rfl
@[simp] theorem setRegion_prog (s : State) (g : Nat) (r : Region) : (setRegion s g r).prog = s.prog := rfl
@[simp] theorem setRegion_routes (s : State) (g : Nat) (r : Region) : (setRegion s g r).routes = s.routes := rfl
@[simp] theorem setRegion_lsts (s : State) (g : Nat) (r : Region) : (setRegion s g r).lsts = s.lsts := rfl
@[simp] theorem setRegion_sets (s : State) (g : Nat) (r : Region) : (setRegion s g r).sets = s.sets := rfl
@[simp] theorem setRegion_talkers (s : State) (g : Nat) (r : Region) : (setRegion s g r).talkers = s.talkers := rfl
@[simp] theorem setRegion_herder (s : State) (g : Nat) (r : Region) : (setRegion s g r).herder = s.herder := rfl
@[simp] theorem setRegion_pack (s : State) (g : Nat) (r : Region) : (setRegion s g r).pack = s.pack := rfl
@[simp] theorem setRegion_lq (s : State) (g : Nat) (r : Region) : (setRegion s g r).lq = s.lq := rfl
@[simp] theorem setRegion_evIn (s : State) (g : Nat) (r : Region) : (setRegion s g r).evIn = s.evIn := rfl
@[simp] theorem setRegion_evOut (s : State) (g : Nat) (r : Region) : (setRegion s g r).evOut = s.evOut := rfl
@[simp] theorem setRegion_serial (s : State) (g : Nat) (r : Region) : (setRegion s g r).serial = s.serial := rfl
@[simp] theorem setRegion_can (s : State) (g : Nat) (r : Region) : (setRegion s g r).can = s.can := rfl
@[simp] theorem setRegion_eth (s : State) (g : Nat) (r : Region) : (setRegion s g r).eth = s.eth := rfl
@[simp] theorem setRegion_dups (s : State) (g : Nat) (r : Region) : (setRegion s g r).dups = s.dups := rfl
@[simp] theorem setRegion_bridge (s : State) (g : Nat) (r : Region) : (setRegion s g r).bridge = s.bridge := rfl
@[simp] theorem setRegion_panels (s : State) (g : Nat) (r : Region) : (setRegion s g r).panels = s.panels := rfl
@[simp] theorem setRegion_panelSet (s : State) (g : Nat) (r : Region) : (setRegion s g r).panelSet = s.panelSet := rfl
@[simp] theorem setRegion_tap (s : State) (g : Nat) (r : Region) : (setRegion s g r).tap = s.tap := rfl
@[simp] theorem setRegion_pool (s : State) (g : Nat) (r : Region) : (setRegion s g r).pool = s.pool := rfl
@[simp] theorem setRegion_ledgers (s : State) (g : Nat) (r : Region) : (setRegion s g r).ledgers = s.ledgers := rfl
@[simp] theorem setRegion_integ (s : State) (g : Nat) (r : Region) : (setRegion s g r).integ = s.integ := rfl
@[simp] theorem setRegion_pair (s : State) (g : Nat) (r : Region) : (setRegion s g r).pair = s.pair := rfl
@[simp] theorem setRegion_freeCount (s : State) (g : Nat) (r : Region) : (setRegion s g r).freeCount = s.freeCount := rfl
@[simp] theorem setRegion_out (s : State) (g : Nat) (r : Region) : (setRegion s g r).out = s.out := rfl

/-! ## setCan -/

@[simp] theorem setCan_pending (s : State) (n : Nat) (v : CanPort) : (setCan s n v).pending = s.pending := rfl
@[simp] theorem setCan_power (s : State) (n : Nat) (v : CanPort) : (setCan s n v).power = s.power := rfl
@[simp] theorem setCan_time (s : State) (n : Nat) (v : CanPort) : (setCan s n v).time = s.time := rfl
@[simp] theorem setCan_vid (s : State) (n : Nat) (v : CanPort) : (setCan s n v).vid = s.vid := rfl
@[simp] theorem setCan_regions (s : State) (n : Nat) (v : CanPort) : (setCan s n v).regions = s.regions := rfl
@[simp] theorem setCan_tdcUse (s : State) (n : Nat) (v : CanPort) : (setCan s n v).tdcUse = s.tdcUse := rfl
@[simp] theorem setCan_regs (s : State) (n : Nat) (v : CanPort) : (setCan s n v).regs = s.regs := rfl
@[simp] theorem setCan_totals (s : State) (n : Nat) (v : CanPort) : (setCan s n v).totals = s.totals := rfl
@[simp] theorem setCan_host (s : State) (n : Nat) (v : CanPort) : (setCan s n v).host = s.host := rfl
@[simp] theorem setCan_rings (s : State) (n : Nat) (v : CanPort) : (setCan s n v).rings = s.rings := rfl
@[simp] theorem setCan_kennel (s : State) (n : Nat) (v : CanPort) : (setCan s n v).kennel = s.kennel := rfl
@[simp] theorem setCan_scratch (s : State) (n : Nat) (v : CanPort) : (setCan s n v).scratch = s.scratch := rfl
@[simp] theorem setCan_slots (s : State) (n : Nat) (v : CanPort) : (setCan s n v).slots = s.slots := rfl
@[simp] theorem setCan_prog (s : State) (n : Nat) (v : CanPort) : (setCan s n v).prog = s.prog := rfl
@[simp] theorem setCan_routes (s : State) (n : Nat) (v : CanPort) : (setCan s n v).routes = s.routes := rfl
@[simp] theorem setCan_lsts (s : State) (n : Nat) (v : CanPort) : (setCan s n v).lsts = s.lsts := rfl
@[simp] theorem setCan_sets (s : State) (n : Nat) (v : CanPort) : (setCan s n v).sets = s.sets := rfl
@[simp] theorem setCan_talkers (s : State) (n : Nat) (v : CanPort) : (setCan s n v).talkers = s.talkers := rfl
@[simp] theorem setCan_herder (s : State) (n : Nat) (v : CanPort) : (setCan s n v).herder = s.herder := rfl
@[simp] theorem setCan_pack (s : State) (n : Nat) (v : CanPort) : (setCan s n v).pack = s.pack := rfl
@[simp] theorem setCan_lq (s : State) (n : Nat) (v : CanPort) : (setCan s n v).lq = s.lq := rfl
@[simp] theorem setCan_evIn (s : State) (n : Nat) (v : CanPort) : (setCan s n v).evIn = s.evIn := rfl
@[simp] theorem setCan_evOut (s : State) (n : Nat) (v : CanPort) : (setCan s n v).evOut = s.evOut := rfl
@[simp] theorem setCan_serial (s : State) (n : Nat) (v : CanPort) : (setCan s n v).serial = s.serial := rfl
@[simp] theorem setCan_can (s : State) (n : Nat) (v : CanPort) : (setCan s n v).can = sset CanPort.init s.can n v := rfl
@[simp] theorem setCan_eth (s : State) (n : Nat) (v : CanPort) : (setCan s n v).eth = s.eth := rfl
@[simp] theorem setCan_dups (s : State) (n : Nat) (v : CanPort) : (setCan s n v).dups = s.dups := rfl
@[simp] theorem setCan_bridge (s : State) (n : Nat) (v : CanPort) : (setCan s n v).bridge = s.bridge := rfl
@[simp] theorem setCan_panels (s : State) (n : Nat) (v : CanPort) : (setCan s n v).panels = s.panels := rfl
@[simp] theorem setCan_panelSet (s : State) (n : Nat) (v : CanPort) : (setCan s n v).panelSet = s.panelSet := rfl
@[simp] theorem setCan_tap (s : State) (n : Nat) (v : CanPort) : (setCan s n v).tap = s.tap := rfl
@[simp] theorem setCan_pool (s : State) (n : Nat) (v : CanPort) : (setCan s n v).pool = s.pool := rfl
@[simp] theorem setCan_ledgers (s : State) (n : Nat) (v : CanPort) : (setCan s n v).ledgers = s.ledgers := rfl
@[simp] theorem setCan_integ (s : State) (n : Nat) (v : CanPort) : (setCan s n v).integ = s.integ := rfl
@[simp] theorem setCan_pair (s : State) (n : Nat) (v : CanPort) : (setCan s n v).pair = s.pair := rfl
@[simp] theorem setCan_freeCount (s : State) (n : Nat) (v : CanPort) : (setCan s n v).freeCount = s.freeCount := rfl
@[simp] theorem setCan_out (s : State) (n : Nat) (v : CanPort) : (setCan s n v).out = s.out := rfl

/-! ## setEth -/

@[simp] theorem setEth_pending (s : State) (n : Nat) (v : EthPort) : (setEth s n v).pending = s.pending := rfl
@[simp] theorem setEth_power (s : State) (n : Nat) (v : EthPort) : (setEth s n v).power = s.power := rfl
@[simp] theorem setEth_time (s : State) (n : Nat) (v : EthPort) : (setEth s n v).time = s.time := rfl
@[simp] theorem setEth_vid (s : State) (n : Nat) (v : EthPort) : (setEth s n v).vid = s.vid := rfl
@[simp] theorem setEth_regions (s : State) (n : Nat) (v : EthPort) : (setEth s n v).regions = s.regions := rfl
@[simp] theorem setEth_tdcUse (s : State) (n : Nat) (v : EthPort) : (setEth s n v).tdcUse = s.tdcUse := rfl
@[simp] theorem setEth_regs (s : State) (n : Nat) (v : EthPort) : (setEth s n v).regs = s.regs := rfl
@[simp] theorem setEth_totals (s : State) (n : Nat) (v : EthPort) : (setEth s n v).totals = s.totals := rfl
@[simp] theorem setEth_host (s : State) (n : Nat) (v : EthPort) : (setEth s n v).host = s.host := rfl
@[simp] theorem setEth_rings (s : State) (n : Nat) (v : EthPort) : (setEth s n v).rings = s.rings := rfl
@[simp] theorem setEth_kennel (s : State) (n : Nat) (v : EthPort) : (setEth s n v).kennel = s.kennel := rfl
@[simp] theorem setEth_scratch (s : State) (n : Nat) (v : EthPort) : (setEth s n v).scratch = s.scratch := rfl
@[simp] theorem setEth_slots (s : State) (n : Nat) (v : EthPort) : (setEth s n v).slots = s.slots := rfl
@[simp] theorem setEth_prog (s : State) (n : Nat) (v : EthPort) : (setEth s n v).prog = s.prog := rfl
@[simp] theorem setEth_routes (s : State) (n : Nat) (v : EthPort) : (setEth s n v).routes = s.routes := rfl
@[simp] theorem setEth_lsts (s : State) (n : Nat) (v : EthPort) : (setEth s n v).lsts = s.lsts := rfl
@[simp] theorem setEth_sets (s : State) (n : Nat) (v : EthPort) : (setEth s n v).sets = s.sets := rfl
@[simp] theorem setEth_talkers (s : State) (n : Nat) (v : EthPort) : (setEth s n v).talkers = s.talkers := rfl
@[simp] theorem setEth_herder (s : State) (n : Nat) (v : EthPort) : (setEth s n v).herder = s.herder := rfl
@[simp] theorem setEth_pack (s : State) (n : Nat) (v : EthPort) : (setEth s n v).pack = s.pack := rfl
@[simp] theorem setEth_lq (s : State) (n : Nat) (v : EthPort) : (setEth s n v).lq = s.lq := rfl
@[simp] theorem setEth_evIn (s : State) (n : Nat) (v : EthPort) : (setEth s n v).evIn = s.evIn := rfl
@[simp] theorem setEth_evOut (s : State) (n : Nat) (v : EthPort) : (setEth s n v).evOut = s.evOut := rfl
@[simp] theorem setEth_serial (s : State) (n : Nat) (v : EthPort) : (setEth s n v).serial = s.serial := rfl
@[simp] theorem setEth_can (s : State) (n : Nat) (v : EthPort) : (setEth s n v).can = s.can := rfl
@[simp] theorem setEth_eth (s : State) (n : Nat) (v : EthPort) : (setEth s n v).eth = sset EthPort.init s.eth n v := rfl
@[simp] theorem setEth_dups (s : State) (n : Nat) (v : EthPort) : (setEth s n v).dups = s.dups := rfl
@[simp] theorem setEth_bridge (s : State) (n : Nat) (v : EthPort) : (setEth s n v).bridge = s.bridge := rfl
@[simp] theorem setEth_panels (s : State) (n : Nat) (v : EthPort) : (setEth s n v).panels = s.panels := rfl
@[simp] theorem setEth_panelSet (s : State) (n : Nat) (v : EthPort) : (setEth s n v).panelSet = s.panelSet := rfl
@[simp] theorem setEth_tap (s : State) (n : Nat) (v : EthPort) : (setEth s n v).tap = s.tap := rfl
@[simp] theorem setEth_pool (s : State) (n : Nat) (v : EthPort) : (setEth s n v).pool = s.pool := rfl
@[simp] theorem setEth_ledgers (s : State) (n : Nat) (v : EthPort) : (setEth s n v).ledgers = s.ledgers := rfl
@[simp] theorem setEth_integ (s : State) (n : Nat) (v : EthPort) : (setEth s n v).integ = s.integ := rfl
@[simp] theorem setEth_pair (s : State) (n : Nat) (v : EthPort) : (setEth s n v).pair = s.pair := rfl
@[simp] theorem setEth_freeCount (s : State) (n : Nat) (v : EthPort) : (setEth s n v).freeCount = s.freeCount := rfl
@[simp] theorem setEth_out (s : State) (n : Nat) (v : EthPort) : (setEth s n v).out = s.out := rfl

/-! ## setEvIn -/

@[simp] theorem setEvIn_pending (s : State) (i : Nat) (v : EvIn) : (setEvIn s i v).pending = s.pending := rfl
@[simp] theorem setEvIn_power (s : State) (i : Nat) (v : EvIn) : (setEvIn s i v).power = s.power := rfl
@[simp] theorem setEvIn_time (s : State) (i : Nat) (v : EvIn) : (setEvIn s i v).time = s.time := rfl
@[simp] theorem setEvIn_vid (s : State) (i : Nat) (v : EvIn) : (setEvIn s i v).vid = s.vid := rfl
@[simp] theorem setEvIn_regions (s : State) (i : Nat) (v : EvIn) : (setEvIn s i v).regions = s.regions := rfl
@[simp] theorem setEvIn_tdcUse (s : State) (i : Nat) (v : EvIn) : (setEvIn s i v).tdcUse = s.tdcUse := rfl
@[simp] theorem setEvIn_regs (s : State) (i : Nat) (v : EvIn) : (setEvIn s i v).regs = s.regs := rfl
@[simp] theorem setEvIn_totals (s : State) (i : Nat) (v : EvIn) : (setEvIn s i v).totals = s.totals := rfl
@[simp] theorem setEvIn_host (s : State) (i : Nat) (v : EvIn) : (setEvIn s i v).host = s.host := rfl
@[simp] theorem setEvIn_rings (s : State) (i : Nat) (v : EvIn) : (setEvIn s i v).rings = s.rings := rfl
@[simp] theorem setEvIn_kennel (s : State) (i : Nat) (v : EvIn) : (setEvIn s i v).kennel = s.kennel := rfl
@[simp] theorem setEvIn_scratch (s : State) (i : Nat) (v : EvIn) : (setEvIn s i v).scratch = s.scratch := rfl
@[simp] theorem setEvIn_slots (s : State) (i : Nat) (v : EvIn) : (setEvIn s i v).slots = s.slots := rfl
@[simp] theorem setEvIn_prog (s : State) (i : Nat) (v : EvIn) : (setEvIn s i v).prog = s.prog := rfl
@[simp] theorem setEvIn_routes (s : State) (i : Nat) (v : EvIn) : (setEvIn s i v).routes = s.routes := rfl
@[simp] theorem setEvIn_lsts (s : State) (i : Nat) (v : EvIn) : (setEvIn s i v).lsts = s.lsts := rfl
@[simp] theorem setEvIn_sets (s : State) (i : Nat) (v : EvIn) : (setEvIn s i v).sets = s.sets := rfl
@[simp] theorem setEvIn_talkers (s : State) (i : Nat) (v : EvIn) : (setEvIn s i v).talkers = s.talkers := rfl
@[simp] theorem setEvIn_herder (s : State) (i : Nat) (v : EvIn) : (setEvIn s i v).herder = s.herder := rfl
@[simp] theorem setEvIn_pack (s : State) (i : Nat) (v : EvIn) : (setEvIn s i v).pack = s.pack := rfl
@[simp] theorem setEvIn_lq (s : State) (i : Nat) (v : EvIn) : (setEvIn s i v).lq = s.lq := rfl
@[simp] theorem setEvIn_evIn (s : State) (i : Nat) (v : EvIn) : (setEvIn s i v).evIn = sset EvIn.init s.evIn i v := rfl
@[simp] theorem setEvIn_evOut (s : State) (i : Nat) (v : EvIn) : (setEvIn s i v).evOut = s.evOut := rfl
@[simp] theorem setEvIn_serial (s : State) (i : Nat) (v : EvIn) : (setEvIn s i v).serial = s.serial := rfl
@[simp] theorem setEvIn_can (s : State) (i : Nat) (v : EvIn) : (setEvIn s i v).can = s.can := rfl
@[simp] theorem setEvIn_eth (s : State) (i : Nat) (v : EvIn) : (setEvIn s i v).eth = s.eth := rfl
@[simp] theorem setEvIn_dups (s : State) (i : Nat) (v : EvIn) : (setEvIn s i v).dups = s.dups := rfl
@[simp] theorem setEvIn_bridge (s : State) (i : Nat) (v : EvIn) : (setEvIn s i v).bridge = s.bridge := rfl
@[simp] theorem setEvIn_panels (s : State) (i : Nat) (v : EvIn) : (setEvIn s i v).panels = s.panels := rfl
@[simp] theorem setEvIn_panelSet (s : State) (i : Nat) (v : EvIn) : (setEvIn s i v).panelSet = s.panelSet := rfl
@[simp] theorem setEvIn_tap (s : State) (i : Nat) (v : EvIn) : (setEvIn s i v).tap = s.tap := rfl
@[simp] theorem setEvIn_pool (s : State) (i : Nat) (v : EvIn) : (setEvIn s i v).pool = s.pool := rfl
@[simp] theorem setEvIn_ledgers (s : State) (i : Nat) (v : EvIn) : (setEvIn s i v).ledgers = s.ledgers := rfl
@[simp] theorem setEvIn_integ (s : State) (i : Nat) (v : EvIn) : (setEvIn s i v).integ = s.integ := rfl
@[simp] theorem setEvIn_pair (s : State) (i : Nat) (v : EvIn) : (setEvIn s i v).pair = s.pair := rfl
@[simp] theorem setEvIn_freeCount (s : State) (i : Nat) (v : EvIn) : (setEvIn s i v).freeCount = s.freeCount := rfl
@[simp] theorem setEvIn_out (s : State) (i : Nat) (v : EvIn) : (setEvIn s i v).out = s.out := rfl

/-! ## setEvOut -/

@[simp] theorem setEvOut_pending (s : State) (m : Nat) (v : EvOut) : (setEvOut s m v).pending = s.pending := rfl
@[simp] theorem setEvOut_power (s : State) (m : Nat) (v : EvOut) : (setEvOut s m v).power = s.power := rfl
@[simp] theorem setEvOut_time (s : State) (m : Nat) (v : EvOut) : (setEvOut s m v).time = s.time := rfl
@[simp] theorem setEvOut_vid (s : State) (m : Nat) (v : EvOut) : (setEvOut s m v).vid = s.vid := rfl
@[simp] theorem setEvOut_regions (s : State) (m : Nat) (v : EvOut) : (setEvOut s m v).regions = s.regions := rfl
@[simp] theorem setEvOut_tdcUse (s : State) (m : Nat) (v : EvOut) : (setEvOut s m v).tdcUse = s.tdcUse := rfl
@[simp] theorem setEvOut_regs (s : State) (m : Nat) (v : EvOut) : (setEvOut s m v).regs = s.regs := rfl
@[simp] theorem setEvOut_totals (s : State) (m : Nat) (v : EvOut) : (setEvOut s m v).totals = s.totals := rfl
@[simp] theorem setEvOut_host (s : State) (m : Nat) (v : EvOut) : (setEvOut s m v).host = s.host := rfl
@[simp] theorem setEvOut_rings (s : State) (m : Nat) (v : EvOut) : (setEvOut s m v).rings = s.rings := rfl
@[simp] theorem setEvOut_kennel (s : State) (m : Nat) (v : EvOut) : (setEvOut s m v).kennel = s.kennel := rfl
@[simp] theorem setEvOut_scratch (s : State) (m : Nat) (v : EvOut) : (setEvOut s m v).scratch = s.scratch := rfl
@[simp] theorem setEvOut_slots (s : State) (m : Nat) (v : EvOut) : (setEvOut s m v).slots = s.slots := rfl
@[simp] theorem setEvOut_prog (s : State) (m : Nat) (v : EvOut) : (setEvOut s m v).prog = s.prog := rfl
@[simp] theorem setEvOut_routes (s : State) (m : Nat) (v : EvOut) : (setEvOut s m v).routes = s.routes := rfl
@[simp] theorem setEvOut_lsts (s : State) (m : Nat) (v : EvOut) : (setEvOut s m v).lsts = s.lsts := rfl
@[simp] theorem setEvOut_sets (s : State) (m : Nat) (v : EvOut) : (setEvOut s m v).sets = s.sets := rfl
@[simp] theorem setEvOut_talkers (s : State) (m : Nat) (v : EvOut) : (setEvOut s m v).talkers = s.talkers := rfl
@[simp] theorem setEvOut_herder (s : State) (m : Nat) (v : EvOut) : (setEvOut s m v).herder = s.herder := rfl
@[simp] theorem setEvOut_pack (s : State) (m : Nat) (v : EvOut) : (setEvOut s m v).pack = s.pack := rfl
@[simp] theorem setEvOut_lq (s : State) (m : Nat) (v : EvOut) : (setEvOut s m v).lq = s.lq := rfl
@[simp] theorem setEvOut_evIn (s : State) (m : Nat) (v : EvOut) : (setEvOut s m v).evIn = s.evIn := rfl
@[simp] theorem setEvOut_evOut (s : State) (m : Nat) (v : EvOut) : (setEvOut s m v).evOut = sset EvOut.init s.evOut m v := rfl
@[simp] theorem setEvOut_serial (s : State) (m : Nat) (v : EvOut) : (setEvOut s m v).serial = s.serial := rfl
@[simp] theorem setEvOut_can (s : State) (m : Nat) (v : EvOut) : (setEvOut s m v).can = s.can := rfl
@[simp] theorem setEvOut_eth (s : State) (m : Nat) (v : EvOut) : (setEvOut s m v).eth = s.eth := rfl
@[simp] theorem setEvOut_dups (s : State) (m : Nat) (v : EvOut) : (setEvOut s m v).dups = s.dups := rfl
@[simp] theorem setEvOut_bridge (s : State) (m : Nat) (v : EvOut) : (setEvOut s m v).bridge = s.bridge := rfl
@[simp] theorem setEvOut_panels (s : State) (m : Nat) (v : EvOut) : (setEvOut s m v).panels = s.panels := rfl
@[simp] theorem setEvOut_panelSet (s : State) (m : Nat) (v : EvOut) : (setEvOut s m v).panelSet = s.panelSet := rfl
@[simp] theorem setEvOut_tap (s : State) (m : Nat) (v : EvOut) : (setEvOut s m v).tap = s.tap := rfl
@[simp] theorem setEvOut_pool (s : State) (m : Nat) (v : EvOut) : (setEvOut s m v).pool = s.pool := rfl
@[simp] theorem setEvOut_ledgers (s : State) (m : Nat) (v : EvOut) : (setEvOut s m v).ledgers = s.ledgers := rfl
@[simp] theorem setEvOut_integ (s : State) (m : Nat) (v : EvOut) : (setEvOut s m v).integ = s.integ := rfl
@[simp] theorem setEvOut_pair (s : State) (m : Nat) (v : EvOut) : (setEvOut s m v).pair = s.pair := rfl
@[simp] theorem setEvOut_freeCount (s : State) (m : Nat) (v : EvOut) : (setEvOut s m v).freeCount = s.freeCount := rfl
@[simp] theorem setEvOut_out (s : State) (m : Nat) (v : EvOut) : (setEvOut s m v).out = s.out := rfl

/-! ## setLq -/

@[simp] theorem setLq_pending (s : State) (q : Listeners) : (setLq s q).pending = s.pending := rfl
@[simp] theorem setLq_power (s : State) (q : Listeners) : (setLq s q).power = s.power := rfl
@[simp] theorem setLq_time (s : State) (q : Listeners) : (setLq s q).time = s.time := rfl
@[simp] theorem setLq_vid (s : State) (q : Listeners) : (setLq s q).vid = s.vid := rfl
@[simp] theorem setLq_regions (s : State) (q : Listeners) : (setLq s q).regions = s.regions := rfl
@[simp] theorem setLq_tdcUse (s : State) (q : Listeners) : (setLq s q).tdcUse = s.tdcUse := rfl
@[simp] theorem setLq_regs (s : State) (q : Listeners) : (setLq s q).regs = s.regs := rfl
@[simp] theorem setLq_totals (s : State) (q : Listeners) : (setLq s q).totals = s.totals := rfl
@[simp] theorem setLq_host (s : State) (q : Listeners) : (setLq s q).host = s.host := rfl
@[simp] theorem setLq_rings (s : State) (q : Listeners) : (setLq s q).rings = s.rings := rfl
@[simp] theorem setLq_kennel (s : State) (q : Listeners) : (setLq s q).kennel = s.kennel := rfl
@[simp] theorem setLq_scratch (s : State) (q : Listeners) : (setLq s q).scratch = s.scratch := rfl
@[simp] theorem setLq_slots (s : State) (q : Listeners) : (setLq s q).slots = s.slots := rfl
@[simp] theorem setLq_prog (s : State) (q : Listeners) : (setLq s q).prog = s.prog := rfl
@[simp] theorem setLq_routes (s : State) (q : Listeners) : (setLq s q).routes = s.routes := rfl
@[simp] theorem setLq_lsts (s : State) (q : Listeners) : (setLq s q).lsts = s.lsts := rfl
@[simp] theorem setLq_sets (s : State) (q : Listeners) : (setLq s q).sets = s.sets := rfl
@[simp] theorem setLq_talkers (s : State) (q : Listeners) : (setLq s q).talkers = s.talkers := rfl
@[simp] theorem setLq_herder (s : State) (q : Listeners) : (setLq s q).herder = s.herder := rfl
@[simp] theorem setLq_pack (s : State) (q : Listeners) : (setLq s q).pack = s.pack := rfl
@[simp] theorem setLq_lq (s : State) (q : Listeners) : (setLq s q).lq = q := rfl
@[simp] theorem setLq_evIn (s : State) (q : Listeners) : (setLq s q).evIn = s.evIn := rfl
@[simp] theorem setLq_evOut (s : State) (q : Listeners) : (setLq s q).evOut = s.evOut := rfl
@[simp] theorem setLq_serial (s : State) (q : Listeners) : (setLq s q).serial = s.serial := rfl
@[simp] theorem setLq_can (s : State) (q : Listeners) : (setLq s q).can = s.can := rfl
@[simp] theorem setLq_eth (s : State) (q : Listeners) : (setLq s q).eth = s.eth := rfl
@[simp] theorem setLq_dups (s : State) (q : Listeners) : (setLq s q).dups = s.dups := rfl
@[simp] theorem setLq_bridge (s : State) (q : Listeners) : (setLq s q).bridge = s.bridge := rfl
@[simp] theorem setLq_panels (s : State) (q : Listeners) : (setLq s q).panels = s.panels := rfl
@[simp] theorem setLq_panelSet (s : State) (q : Listeners) : (setLq s q).panelSet = s.panelSet := rfl
@[simp] theorem setLq_tap (s : State) (q : Listeners) : (setLq s q).tap = s.tap := rfl
@[simp] theorem setLq_pool (s : State) (q : Listeners) : (setLq s q).pool = s.pool := rfl
@[simp] theorem setLq_ledgers (s : State) (q : Listeners) : (setLq s q).ledgers = s.ledgers := rfl
@[simp] theorem setLq_integ (s : State) (q : Listeners) : (setLq s q).integ = s.integ := rfl
@[simp] theorem setLq_pair (s : State) (q : Listeners) : (setLq s q).pair = s.pair := rfl
@[simp] theorem setLq_freeCount (s : State) (q : Listeners) : (setLq s q).freeCount = s.freeCount := rfl
@[simp] theorem setLq_out (s : State) (q : Listeners) : (setLq s q).out = s.out := rfl

/-! ## setPack -/

@[simp] theorem setPack_pending (s : State) (p : Pack) : (setPack s p).pending = s.pending := rfl
@[simp] theorem setPack_power (s : State) (p : Pack) : (setPack s p).power = s.power := rfl
@[simp] theorem setPack_time (s : State) (p : Pack) : (setPack s p).time = s.time := rfl
@[simp] theorem setPack_vid (s : State) (p : Pack) : (setPack s p).vid = s.vid := rfl
@[simp] theorem setPack_regions (s : State) (p : Pack) : (setPack s p).regions = s.regions := rfl
@[simp] theorem setPack_tdcUse (s : State) (p : Pack) : (setPack s p).tdcUse = s.tdcUse := rfl
@[simp] theorem setPack_regs (s : State) (p : Pack) : (setPack s p).regs = s.regs := rfl
@[simp] theorem setPack_totals (s : State) (p : Pack) : (setPack s p).totals = s.totals := rfl
@[simp] theorem setPack_host (s : State) (p : Pack) : (setPack s p).host = s.host := rfl
@[simp] theorem setPack_rings (s : State) (p : Pack) : (setPack s p).rings = s.rings := rfl
@[simp] theorem setPack_kennel (s : State) (p : Pack) : (setPack s p).kennel = s.kennel := rfl
@[simp] theorem setPack_scratch (s : State) (p : Pack) : (setPack s p).scratch = s.scratch := rfl
@[simp] theorem setPack_slots (s : State) (p : Pack) : (setPack s p).slots = s.slots := rfl
@[simp] theorem setPack_prog (s : State) (p : Pack) : (setPack s p).prog = s.prog := rfl
@[simp] theorem setPack_routes (s : State) (p : Pack) : (setPack s p).routes = s.routes := rfl
@[simp] theorem setPack_lsts (s : State) (p : Pack) : (setPack s p).lsts = s.lsts := rfl
@[simp] theorem setPack_sets (s : State) (p : Pack) : (setPack s p).sets = s.sets := rfl
@[simp] theorem setPack_talkers (s : State) (p : Pack) : (setPack s p).talkers = s.talkers := rfl
@[simp] theorem setPack_herder (s : State) (p : Pack) : (setPack s p).herder = s.herder := rfl
@[simp] theorem setPack_pack (s : State) (p : Pack) : (setPack s p).pack = p := rfl
@[simp] theorem setPack_lq (s : State) (p : Pack) : (setPack s p).lq = s.lq := rfl
@[simp] theorem setPack_evIn (s : State) (p : Pack) : (setPack s p).evIn = s.evIn := rfl
@[simp] theorem setPack_evOut (s : State) (p : Pack) : (setPack s p).evOut = s.evOut := rfl
@[simp] theorem setPack_serial (s : State) (p : Pack) : (setPack s p).serial = s.serial := rfl
@[simp] theorem setPack_can (s : State) (p : Pack) : (setPack s p).can = s.can := rfl
@[simp] theorem setPack_eth (s : State) (p : Pack) : (setPack s p).eth = s.eth := rfl
@[simp] theorem setPack_dups (s : State) (p : Pack) : (setPack s p).dups = s.dups := rfl
@[simp] theorem setPack_bridge (s : State) (p : Pack) : (setPack s p).bridge = s.bridge := rfl
@[simp] theorem setPack_panels (s : State) (p : Pack) : (setPack s p).panels = s.panels := rfl
@[simp] theorem setPack_panelSet (s : State) (p : Pack) : (setPack s p).panelSet = s.panelSet := rfl
@[simp] theorem setPack_tap (s : State) (p : Pack) : (setPack s p).tap = s.tap := rfl
@[simp] theorem setPack_pool (s : State) (p : Pack) : (setPack s p).pool = s.pool := rfl
@[simp] theorem setPack_ledgers (s : State) (p : Pack) : (setPack s p).ledgers = s.ledgers := rfl
@[simp] theorem setPack_integ (s : State) (p : Pack) : (setPack s p).integ = s.integ := rfl
@[simp] theorem setPack_pair (s : State) (p : Pack) : (setPack s p).pair = s.pair := rfl
@[simp] theorem setPack_freeCount (s : State) (p : Pack) : (setPack s p).freeCount = s.freeCount := rfl
@[simp] theorem setPack_out (s : State) (p : Pack) : (setPack s p).out = s.out := rfl

/-! ## setHerder -/

@[simp] theorem setHerder_pending (s : State) (h : Herder) : (setHerder s h).pending = s.pending := rfl
@[simp] theorem setHerder_power (s : State) (h : Herder) : (setHerder s h).power = s.power := rfl
@[simp] theorem setHerder_time (s : State) (h : Herder) : (setHerder s h).time = s.time := rfl
@[simp] theorem setHerder_vid (s : State) (h : Herder) : (setHerder s h).vid = s.vid := rfl
@[simp] theorem setHerder_regions (s : State) (h : Herder) : (setHerder s h).regions = s.regions := rfl
@[simp] theorem setHerder_tdcUse (s : State) (h : Herder) : (setHerder s h).tdcUse = s.tdcUse := rfl
@[simp] theorem setHerder_regs (s : State) (h : Herder) : (setHerder s h).regs = s.regs := rfl
@[simp] theorem setHerder_totals (s : State) (h : Herder) : (setHerder s h).totals = s.totals := rfl
@[simp] theorem setHerder_host (s : State) (h : Herder) : (setHerder s h).host = s.host := rfl
@[simp] theorem setHerder_rings (s : State) (h : Herder) : (setHerder s h).rings = s.rings := rfl
@[simp] theorem setHerder_kennel (s : State) (h : Herder) : (setHerder s h).kennel = s.kennel := rfl
@[simp] theorem setHerder_scratch (s : State) (h : Herder) : (setHerder s h).scratch = s.scratch := rfl
@[simp] theorem setHerder_slots (s : State) (h : Herder) : (setHerder s h).slots = s.slots := rfl
@[simp] theorem setHerder_prog (s : State) (h : Herder) : (setHerder s h).prog = s.prog := rfl
@[simp] theorem setHerder_routes (s : State) (h : Herder) : (setHerder s h).routes = s.routes := rfl
@[simp] theorem setHerder_lsts (s : State) (h : Herder) : (setHerder s h).lsts = s.lsts := rfl
@[simp] theorem setHerder_sets (s : State) (h : Herder) : (setHerder s h).sets = s.sets := rfl
@[simp] theorem setHerder_talkers (s : State) (h : Herder) : (setHerder s h).talkers = s.talkers := rfl
@[simp] theorem setHerder_herder (s : State) (h : Herder) : (setHerder s h).herder = h := rfl
@[simp] theorem setHerder_pack (s : State) (h : Herder) : (setHerder s h).pack = s.pack := rfl
@[simp] theorem setHerder_lq (s : State) (h : Herder) : (setHerder s h).lq = s.lq := rfl
@[simp] theorem setHerder_evIn (s : State) (h : Herder) : (setHerder s h).evIn = s.evIn := rfl
@[simp] theorem setHerder_evOut (s : State) (h : Herder) : (setHerder s h).evOut = s.evOut := rfl
@[simp] theorem setHerder_serial (s : State) (h : Herder) : (setHerder s h).serial = s.serial := rfl
@[simp] theorem setHerder_can (s : State) (h : Herder) : (setHerder s h).can = s.can := rfl
@[simp] theorem setHerder_eth (s : State) (h : Herder) : (setHerder s h).eth = s.eth := rfl
@[simp] theorem setHerder_dups (s : State) (h : Herder) : (setHerder s h).dups = s.dups := rfl
@[simp] theorem setHerder_bridge (s : State) (h : Herder) : (setHerder s h).bridge = s.bridge := rfl
@[simp] theorem setHerder_panels (s : State) (h : Herder) : (setHerder s h).panels = s.panels := rfl
@[simp] theorem setHerder_panelSet (s : State) (h : Herder) : (setHerder s h).panelSet = s.panelSet := rfl
@[simp] theorem setHerder_tap (s : State) (h : Herder) : (setHerder s h).tap = s.tap := rfl
@[simp] theorem setHerder_pool (s : State) (h : Herder) : (setHerder s h).pool = s.pool := rfl
@[simp] theorem setHerder_ledgers (s : State) (h : Herder) : (setHerder s h).ledgers = s.ledgers := rfl
@[simp] theorem setHerder_integ (s : State) (h : Herder) : (setHerder s h).integ = s.integ := rfl
@[simp] theorem setHerder_pair (s : State) (h : Herder) : (setHerder s h).pair = s.pair := rfl
@[simp] theorem setHerder_freeCount (s : State) (h : Herder) : (setHerder s h).freeCount = s.freeCount := rfl
@[simp] theorem setHerder_out (s : State) (h : Herder) : (setHerder s h).out = s.out := rfl

/-! ## setEngine -/

@[simp] theorem setEngine_pending (s : State) (e : Nat) (v : Engine) : (setEngine s e v).pending = s.pending := rfl
@[simp] theorem setEngine_power (s : State) (e : Nat) (v : Engine) : (setEngine s e v).power = s.power := rfl
@[simp] theorem setEngine_time (s : State) (e : Nat) (v : Engine) : (setEngine s e v).time = s.time := rfl
@[simp] theorem setEngine_vid (s : State) (e : Nat) (v : Engine) : (setEngine s e v).vid = s.vid := rfl
@[simp] theorem setEngine_regions (s : State) (e : Nat) (v : Engine) : (setEngine s e v).regions = s.regions := rfl
@[simp] theorem setEngine_tdcUse (s : State) (e : Nat) (v : Engine) : (setEngine s e v).tdcUse = s.tdcUse := rfl
@[simp] theorem setEngine_regs (s : State) (e : Nat) (v : Engine) : (setEngine s e v).regs = s.regs := rfl
@[simp] theorem setEngine_totals (s : State) (e : Nat) (v : Engine) : (setEngine s e v).totals = s.totals := rfl
@[simp] theorem setEngine_host (s : State) (e : Nat) (v : Engine) : (setEngine s e v).host = s.host := rfl
@[simp] theorem setEngine_rings (s : State) (e : Nat) (v : Engine) : (setEngine s e v).rings = s.rings := rfl
@[simp] theorem setEngine_kennel (s : State) (e : Nat) (v : Engine) : (setEngine s e v).kennel = s.kennel := rfl
@[simp] theorem setEngine_scratch (s : State) (e : Nat) (v : Engine) : (setEngine s e v).scratch = s.scratch := rfl
@[simp] theorem setEngine_slots (s : State) (e : Nat) (v : Engine) : (setEngine s e v).slots = s.slots := rfl
@[simp] theorem setEngine_prog (s : State) (e : Nat) (v : Engine) : (setEngine s e v).prog = s.prog := rfl
@[simp] theorem setEngine_routes (s : State) (e : Nat) (v : Engine) : (setEngine s e v).routes = s.routes := rfl
@[simp] theorem setEngine_lsts (s : State) (e : Nat) (v : Engine) : (setEngine s e v).lsts = s.lsts := rfl
@[simp] theorem setEngine_sets (s : State) (e : Nat) (v : Engine) : (setEngine s e v).sets = s.sets := rfl
@[simp] theorem setEngine_talkers (s : State) (e : Nat) (v : Engine) : (setEngine s e v).talkers = s.talkers := rfl
@[simp] theorem setEngine_herder (s : State) (e : Nat) (v : Engine) : (setEngine s e v).herder = s.herder := rfl
@[simp] theorem setEngine_pack (s : State) (e : Nat) (v : Engine) : (setEngine s e v).pack = { s.pack with engines := sset Engine.init s.pack.engines e v } := rfl
@[simp] theorem setEngine_lq (s : State) (e : Nat) (v : Engine) : (setEngine s e v).lq = s.lq := rfl
@[simp] theorem setEngine_evIn (s : State) (e : Nat) (v : Engine) : (setEngine s e v).evIn = s.evIn := rfl
@[simp] theorem setEngine_evOut (s : State) (e : Nat) (v : Engine) : (setEngine s e v).evOut = s.evOut := rfl
@[simp] theorem setEngine_serial (s : State) (e : Nat) (v : Engine) : (setEngine s e v).serial = s.serial := rfl
@[simp] theorem setEngine_can (s : State) (e : Nat) (v : Engine) : (setEngine s e v).can = s.can := rfl
@[simp] theorem setEngine_eth (s : State) (e : Nat) (v : Engine) : (setEngine s e v).eth = s.eth := rfl
@[simp] theorem setEngine_dups (s : State) (e : Nat) (v : Engine) : (setEngine s e v).dups = s.dups := rfl
@[simp] theorem setEngine_bridge (s : State) (e : Nat) (v : Engine) : (setEngine s e v).bridge = s.bridge := rfl
@[simp] theorem setEngine_panels (s : State) (e : Nat) (v : Engine) : (setEngine s e v).panels = s.panels := rfl
@[simp] theorem setEngine_panelSet (s : State) (e : Nat) (v : Engine) : (setEngine s e v).panelSet = s.panelSet := rfl
@[simp] theorem setEngine_tap (s : State) (e : Nat) (v : Engine) : (setEngine s e v).tap = s.tap := rfl
@[simp] theorem setEngine_pool (s : State) (e : Nat) (v : Engine) : (setEngine s e v).pool = s.pool := rfl
@[simp] theorem setEngine_ledgers (s : State) (e : Nat) (v : Engine) : (setEngine s e v).ledgers = s.ledgers := rfl
@[simp] theorem setEngine_integ (s : State) (e : Nat) (v : Engine) : (setEngine s e v).integ = s.integ := rfl
@[simp] theorem setEngine_pair (s : State) (e : Nat) (v : Engine) : (setEngine s e v).pair = s.pair := rfl
@[simp] theorem setEngine_freeCount (s : State) (e : Nat) (v : Engine) : (setEngine s e v).freeCount = s.freeCount := rfl
@[simp] theorem setEngine_out (s : State) (e : Nat) (v : Engine) : (setEngine s e v).out = s.out := rfl

/-! ## setPanel -/

@[simp] theorem setPanel_pending (s : State) (n : Nat) (p : PanelPort) : (setPanel s n p).pending = s.pending := rfl
@[simp] theorem setPanel_power (s : State) (n : Nat) (p : PanelPort) : (setPanel s n p).power = s.power := rfl
@[simp] theorem setPanel_time (s : State) (n : Nat) (p : PanelPort) : (setPanel s n p).time = s.time := rfl
@[simp] theorem setPanel_vid (s : State) (n : Nat) (p : PanelPort) : (setPanel s n p).vid = s.vid := rfl
@[simp] theorem setPanel_regions (s : State) (n : Nat) (p : PanelPort) : (setPanel s n p).regions = s.regions := rfl
@[simp] theorem setPanel_tdcUse (s : State) (n : Nat) (p : PanelPort) : (setPanel s n p).tdcUse = s.tdcUse := rfl
@[simp] theorem setPanel_regs (s : State) (n : Nat) (p : PanelPort) : (setPanel s n p).regs = s.regs := rfl
@[simp] theorem setPanel_totals (s : State) (n : Nat) (p : PanelPort) : (setPanel s n p).totals = s.totals := rfl
@[simp] theorem setPanel_host (s : State) (n : Nat) (p : PanelPort) : (setPanel s n p).host = s.host := rfl
@[simp] theorem setPanel_rings (s : State) (n : Nat) (p : PanelPort) : (setPanel s n p).rings = s.rings := rfl
@[simp] theorem setPanel_kennel (s : State) (n : Nat) (p : PanelPort) : (setPanel s n p).kennel = s.kennel := rfl
@[simp] theorem setPanel_scratch (s : State) (n : Nat) (p : PanelPort) : (setPanel s n p).scratch = s.scratch := rfl
@[simp] theorem setPanel_slots (s : State) (n : Nat) (p : PanelPort) : (setPanel s n p).slots = s.slots := rfl
@[simp] theorem setPanel_prog (s : State) (n : Nat) (p : PanelPort) : (setPanel s n p).prog = s.prog := rfl
@[simp] theorem setPanel_routes (s : State) (n : Nat) (p : PanelPort) : (setPanel s n p).routes = s.routes := rfl
@[simp] theorem setPanel_lsts (s : State) (n : Nat) (p : PanelPort) : (setPanel s n p).lsts = s.lsts := rfl
@[simp] theorem setPanel_sets (s : State) (n : Nat) (p : PanelPort) : (setPanel s n p).sets = s.sets := rfl
@[simp] theorem setPanel_talkers (s : State) (n : Nat) (p : PanelPort) : (setPanel s n p).talkers = s.talkers := rfl
@[simp] theorem setPanel_herder (s : State) (n : Nat) (p : PanelPort) : (setPanel s n p).herder = s.herder := rfl
@[simp] theorem setPanel_pack (s : State) (n : Nat) (p : PanelPort) : (setPanel s n p).pack = s.pack := rfl
@[simp] theorem setPanel_lq (s : State) (n : Nat) (p : PanelPort) : (setPanel s n p).lq = s.lq := rfl
@[simp] theorem setPanel_evIn (s : State) (n : Nat) (p : PanelPort) : (setPanel s n p).evIn = s.evIn := rfl
@[simp] theorem setPanel_evOut (s : State) (n : Nat) (p : PanelPort) : (setPanel s n p).evOut = s.evOut := rfl
@[simp] theorem setPanel_serial (s : State) (n : Nat) (p : PanelPort) : (setPanel s n p).serial = s.serial := rfl
@[simp] theorem setPanel_can (s : State) (n : Nat) (p : PanelPort) : (setPanel s n p).can = s.can := rfl
@[simp] theorem setPanel_eth (s : State) (n : Nat) (p : PanelPort) : (setPanel s n p).eth = s.eth := rfl
@[simp] theorem setPanel_dups (s : State) (n : Nat) (p : PanelPort) : (setPanel s n p).dups = s.dups := rfl
@[simp] theorem setPanel_bridge (s : State) (n : Nat) (p : PanelPort) : (setPanel s n p).bridge = s.bridge := rfl
@[simp] theorem setPanel_panels (s : State) (n : Nat) (p : PanelPort) : (setPanel s n p).panels = sset PanelPort.init s.panels n p := rfl
@[simp] theorem setPanel_panelSet (s : State) (n : Nat) (p : PanelPort) : (setPanel s n p).panelSet = s.panelSet := rfl
@[simp] theorem setPanel_tap (s : State) (n : Nat) (p : PanelPort) : (setPanel s n p).tap = s.tap := rfl
@[simp] theorem setPanel_pool (s : State) (n : Nat) (p : PanelPort) : (setPanel s n p).pool = s.pool := rfl
@[simp] theorem setPanel_ledgers (s : State) (n : Nat) (p : PanelPort) : (setPanel s n p).ledgers = s.ledgers := rfl
@[simp] theorem setPanel_integ (s : State) (n : Nat) (p : PanelPort) : (setPanel s n p).integ = s.integ := rfl
@[simp] theorem setPanel_pair (s : State) (n : Nat) (p : PanelPort) : (setPanel s n p).pair = s.pair := rfl
@[simp] theorem setPanel_freeCount (s : State) (n : Nat) (p : PanelPort) : (setPanel s n p).freeCount = s.freeCount := rfl
@[simp] theorem setPanel_out (s : State) (n : Nat) (p : PanelPort) : (setPanel s n p).out = s.out := rfl

/-! ## setPower -/

@[simp] theorem setPower_pending (s : State) (p : Power) : (setPower s p).pending = s.pending := rfl
@[simp] theorem setPower_power (s : State) (p : Power) : (setPower s p).power = p := rfl
@[simp] theorem setPower_time (s : State) (p : Power) : (setPower s p).time = s.time := rfl
@[simp] theorem setPower_vid (s : State) (p : Power) : (setPower s p).vid = s.vid := rfl
@[simp] theorem setPower_regions (s : State) (p : Power) : (setPower s p).regions = s.regions := rfl
@[simp] theorem setPower_tdcUse (s : State) (p : Power) : (setPower s p).tdcUse = s.tdcUse := rfl
@[simp] theorem setPower_regs (s : State) (p : Power) : (setPower s p).regs = s.regs := rfl
@[simp] theorem setPower_totals (s : State) (p : Power) : (setPower s p).totals = s.totals := rfl
@[simp] theorem setPower_host (s : State) (p : Power) : (setPower s p).host = s.host := rfl
@[simp] theorem setPower_rings (s : State) (p : Power) : (setPower s p).rings = s.rings := rfl
@[simp] theorem setPower_kennel (s : State) (p : Power) : (setPower s p).kennel = s.kennel := rfl
@[simp] theorem setPower_scratch (s : State) (p : Power) : (setPower s p).scratch = s.scratch := rfl
@[simp] theorem setPower_slots (s : State) (p : Power) : (setPower s p).slots = s.slots := rfl
@[simp] theorem setPower_prog (s : State) (p : Power) : (setPower s p).prog = s.prog := rfl
@[simp] theorem setPower_routes (s : State) (p : Power) : (setPower s p).routes = s.routes := rfl
@[simp] theorem setPower_lsts (s : State) (p : Power) : (setPower s p).lsts = s.lsts := rfl
@[simp] theorem setPower_sets (s : State) (p : Power) : (setPower s p).sets = s.sets := rfl
@[simp] theorem setPower_talkers (s : State) (p : Power) : (setPower s p).talkers = s.talkers := rfl
@[simp] theorem setPower_herder (s : State) (p : Power) : (setPower s p).herder = s.herder := rfl
@[simp] theorem setPower_pack (s : State) (p : Power) : (setPower s p).pack = s.pack := rfl
@[simp] theorem setPower_lq (s : State) (p : Power) : (setPower s p).lq = s.lq := rfl
@[simp] theorem setPower_evIn (s : State) (p : Power) : (setPower s p).evIn = s.evIn := rfl
@[simp] theorem setPower_evOut (s : State) (p : Power) : (setPower s p).evOut = s.evOut := rfl
@[simp] theorem setPower_serial (s : State) (p : Power) : (setPower s p).serial = s.serial := rfl
@[simp] theorem setPower_can (s : State) (p : Power) : (setPower s p).can = s.can := rfl
@[simp] theorem setPower_eth (s : State) (p : Power) : (setPower s p).eth = s.eth := rfl
@[simp] theorem setPower_dups (s : State) (p : Power) : (setPower s p).dups = s.dups := rfl
@[simp] theorem setPower_bridge (s : State) (p : Power) : (setPower s p).bridge = s.bridge := rfl
@[simp] theorem setPower_panels (s : State) (p : Power) : (setPower s p).panels = s.panels := rfl
@[simp] theorem setPower_panelSet (s : State) (p : Power) : (setPower s p).panelSet = s.panelSet := rfl
@[simp] theorem setPower_tap (s : State) (p : Power) : (setPower s p).tap = s.tap := rfl
@[simp] theorem setPower_pool (s : State) (p : Power) : (setPower s p).pool = s.pool := rfl
@[simp] theorem setPower_ledgers (s : State) (p : Power) : (setPower s p).ledgers = s.ledgers := rfl
@[simp] theorem setPower_integ (s : State) (p : Power) : (setPower s p).integ = s.integ := rfl
@[simp] theorem setPower_pair (s : State) (p : Power) : (setPower s p).pair = s.pair := rfl
@[simp] theorem setPower_freeCount (s : State) (p : Power) : (setPower s p).freeCount = s.freeCount := rfl
@[simp] theorem setPower_out (s : State) (p : Power) : (setPower s p).out = s.out := rfl

/-! ## setPair -/

@[simp] theorem setPair_pending (s : State) (p : Pair) : (setPair s p).pending = s.pending := rfl
@[simp] theorem setPair_power (s : State) (p : Pair) : (setPair s p).power = s.power := rfl
@[simp] theorem setPair_time (s : State) (p : Pair) : (setPair s p).time = s.time := rfl
@[simp] theorem setPair_vid (s : State) (p : Pair) : (setPair s p).vid = s.vid := rfl
@[simp] theorem setPair_regions (s : State) (p : Pair) : (setPair s p).regions = s.regions := rfl
@[simp] theorem setPair_tdcUse (s : State) (p : Pair) : (setPair s p).tdcUse = s.tdcUse := rfl
@[simp] theorem setPair_regs (s : State) (p : Pair) : (setPair s p).regs = s.regs := rfl
@[simp] theorem setPair_totals (s : State) (p : Pair) : (setPair s p).totals = s.totals := rfl
@[simp] theorem setPair_host (s : State) (p : Pair) : (setPair s p).host = s.host := rfl
@[simp] theorem setPair_rings (s : State) (p : Pair) : (setPair s p).rings = s.rings := rfl
@[simp] theorem setPair_kennel (s : State) (p : Pair) : (setPair s p).kennel = s.kennel := rfl
@[simp] theorem setPair_scratch (s : State) (p : Pair) : (setPair s p).scratch = s.scratch := rfl
@[simp] theorem setPair_slots (s : State) (p : Pair) : (setPair s p).slots = s.slots := rfl
@[simp] theorem setPair_prog (s : State) (p : Pair) : (setPair s p).prog = s.prog := rfl
@[simp] theorem setPair_routes (s : State) (p : Pair) : (setPair s p).routes = s.routes := rfl
@[simp] theorem setPair_lsts (s : State) (p : Pair) : (setPair s p).lsts = s.lsts := rfl
@[simp] theorem setPair_sets (s : State) (p : Pair) : (setPair s p).sets = s.sets := rfl
@[simp] theorem setPair_talkers (s : State) (p : Pair) : (setPair s p).talkers = s.talkers := rfl
@[simp] theorem setPair_herder (s : State) (p : Pair) : (setPair s p).herder = s.herder := rfl
@[simp] theorem setPair_pack (s : State) (p : Pair) : (setPair s p).pack = s.pack := rfl
@[simp] theorem setPair_lq (s : State) (p : Pair) : (setPair s p).lq = s.lq := rfl
@[simp] theorem setPair_evIn (s : State) (p : Pair) : (setPair s p).evIn = s.evIn := rfl
@[simp] theorem setPair_evOut (s : State) (p : Pair) : (setPair s p).evOut = s.evOut := rfl
@[simp] theorem setPair_serial (s : State) (p : Pair) : (setPair s p).serial = s.serial := rfl
@[simp] theorem setPair_can (s : State) (p : Pair) : (setPair s p).can = s.can := rfl
@[simp] theorem setPair_eth (s : State) (p : Pair) : (setPair s p).eth = s.eth := rfl
@[simp] theorem setPair_dups (s : State) (p : Pair) : (setPair s p).dups = s.dups := rfl
@[simp] theorem setPair_bridge (s : State) (p : Pair) : (setPair s p).bridge = s.bridge := rfl
@[simp] theorem setPair_panels (s : State) (p : Pair) : (setPair s p).panels = s.panels := rfl
@[simp] theorem setPair_panelSet (s : State) (p : Pair) : (setPair s p).panelSet = s.panelSet := rfl
@[simp] theorem setPair_tap (s : State) (p : Pair) : (setPair s p).tap = s.tap := rfl
@[simp] theorem setPair_pool (s : State) (p : Pair) : (setPair s p).pool = s.pool := rfl
@[simp] theorem setPair_ledgers (s : State) (p : Pair) : (setPair s p).ledgers = s.ledgers := rfl
@[simp] theorem setPair_integ (s : State) (p : Pair) : (setPair s p).integ = s.integ := rfl
@[simp] theorem setPair_pair (s : State) (p : Pair) : (setPair s p).pair = p := rfl
@[simp] theorem setPair_freeCount (s : State) (p : Pair) : (setPair s p).freeCount = s.freeCount := rfl
@[simp] theorem setPair_out (s : State) (p : Pair) : (setPair s p).out = s.out := rfl

/-! ## setSerial -/

@[simp] theorem setSerial_pending (s : State) (p : Nat) (v : SerialPort) : (setSerial s p v).pending = s.pending := rfl
@[simp] theorem setSerial_power (s : State) (p : Nat) (v : SerialPort) : (setSerial s p v).power = s.power := rfl
@[simp] theorem setSerial_time (s : State) (p : Nat) (v : SerialPort) : (setSerial s p v).time = s.time := rfl
@[simp] theorem setSerial_vid (s : State) (p : Nat) (v : SerialPort) : (setSerial s p v).vid = s.vid := rfl
@[simp] theorem setSerial_regions (s : State) (p : Nat) (v : SerialPort) : (setSerial s p v).regions = s.regions := rfl
@[simp] theorem setSerial_tdcUse (s : State) (p : Nat) (v : SerialPort) : (setSerial s p v).tdcUse = s.tdcUse := rfl
@[simp] theorem setSerial_regs (s : State) (p : Nat) (v : SerialPort) : (setSerial s p v).regs = s.regs := rfl
@[simp] theorem setSerial_totals (s : State) (p : Nat) (v : SerialPort) : (setSerial s p v).totals = s.totals := rfl
@[simp] theorem setSerial_host (s : State) (p : Nat) (v : SerialPort) : (setSerial s p v).host = s.host := rfl
@[simp] theorem setSerial_rings (s : State) (p : Nat) (v : SerialPort) : (setSerial s p v).rings = s.rings := rfl
@[simp] theorem setSerial_kennel (s : State) (p : Nat) (v : SerialPort) : (setSerial s p v).kennel = s.kennel := rfl
@[simp] theorem setSerial_scratch (s : State) (p : Nat) (v : SerialPort) : (setSerial s p v).scratch = s.scratch := rfl
@[simp] theorem setSerial_slots (s : State) (p : Nat) (v : SerialPort) : (setSerial s p v).slots = s.slots := rfl
@[simp] theorem setSerial_prog (s : State) (p : Nat) (v : SerialPort) : (setSerial s p v).prog = s.prog := rfl
@[simp] theorem setSerial_routes (s : State) (p : Nat) (v : SerialPort) : (setSerial s p v).routes = s.routes := rfl
@[simp] theorem setSerial_lsts (s : State) (p : Nat) (v : SerialPort) : (setSerial s p v).lsts = s.lsts := rfl
@[simp] theorem setSerial_sets (s : State) (p : Nat) (v : SerialPort) : (setSerial s p v).sets = s.sets := rfl
@[simp] theorem setSerial_talkers (s : State) (p : Nat) (v : SerialPort) : (setSerial s p v).talkers = s.talkers := rfl
@[simp] theorem setSerial_herder (s : State) (p : Nat) (v : SerialPort) : (setSerial s p v).herder = s.herder := rfl
@[simp] theorem setSerial_pack (s : State) (p : Nat) (v : SerialPort) : (setSerial s p v).pack = s.pack := rfl
@[simp] theorem setSerial_lq (s : State) (p : Nat) (v : SerialPort) : (setSerial s p v).lq = s.lq := rfl
@[simp] theorem setSerial_evIn (s : State) (p : Nat) (v : SerialPort) : (setSerial s p v).evIn = s.evIn := rfl
@[simp] theorem setSerial_evOut (s : State) (p : Nat) (v : SerialPort) : (setSerial s p v).evOut = s.evOut := rfl
@[simp] theorem setSerial_serial (s : State) (p : Nat) (v : SerialPort) : (setSerial s p v).serial = sset SerialPort.init s.serial p v := rfl
@[simp] theorem setSerial_can (s : State) (p : Nat) (v : SerialPort) : (setSerial s p v).can = s.can := rfl
@[simp] theorem setSerial_eth (s : State) (p : Nat) (v : SerialPort) : (setSerial s p v).eth = s.eth := rfl
@[simp] theorem setSerial_dups (s : State) (p : Nat) (v : SerialPort) : (setSerial s p v).dups = s.dups := rfl
@[simp] theorem setSerial_bridge (s : State) (p : Nat) (v : SerialPort) : (setSerial s p v).bridge = s.bridge := rfl
@[simp] theorem setSerial_panels (s : State) (p : Nat) (v : SerialPort) : (setSerial s p v).panels = s.panels := rfl
@[simp] theorem setSerial_panelSet (s : State) (p : Nat) (v : SerialPort) : (setSerial s p v).panelSet = s.panelSet := rfl
@[simp] theorem setSerial_tap (s : State) (p : Nat) (v : SerialPort) : (setSerial s p v).tap = s.tap := rfl
@[simp] theorem setSerial_pool (s : State) (p : Nat) (v : SerialPort) : (setSerial s p v).pool = s.pool := rfl
@[simp] theorem setSerial_ledgers (s : State) (p : Nat) (v : SerialPort) : (setSerial s p v).ledgers = s.ledgers := rfl
@[simp] theorem setSerial_integ (s : State) (p : Nat) (v : SerialPort) : (setSerial s p v).integ = s.integ := rfl
@[simp] theorem setSerial_pair (s : State) (p : Nat) (v : SerialPort) : (setSerial s p v).pair = s.pair := rfl
@[simp] theorem setSerial_freeCount (s : State) (p : Nat) (v : SerialPort) : (setSerial s p v).freeCount = s.freeCount := rfl
@[simp] theorem setSerial_out (s : State) (p : Nat) (v : SerialPort) : (setSerial s p v).out = s.out := rfl

/-! ## setBridge -/

@[simp] theorem setBridge_pending (s : State) (b : Bridge) : (setBridge s b).pending = s.pending := rfl
@[simp] theorem setBridge_power (s : State) (b : Bridge) : (setBridge s b).power = s.power := rfl
@[simp] theorem setBridge_time (s : State) (b : Bridge) : (setBridge s b).time = s.time := rfl
@[simp] theorem setBridge_vid (s : State) (b : Bridge) : (setBridge s b).vid = s.vid := rfl
@[simp] theorem setBridge_regions (s : State) (b : Bridge) : (setBridge s b).regions = s.regions := rfl
@[simp] theorem setBridge_tdcUse (s : State) (b : Bridge) : (setBridge s b).tdcUse = s.tdcUse := rfl
@[simp] theorem setBridge_regs (s : State) (b : Bridge) : (setBridge s b).regs = s.regs := rfl
@[simp] theorem setBridge_totals (s : State) (b : Bridge) : (setBridge s b).totals = s.totals := rfl
@[simp] theorem setBridge_host (s : State) (b : Bridge) : (setBridge s b).host = s.host := rfl
@[simp] theorem setBridge_rings (s : State) (b : Bridge) : (setBridge s b).rings = s.rings := rfl
@[simp] theorem setBridge_kennel (s : State) (b : Bridge) : (setBridge s b).kennel = s.kennel := rfl
@[simp] theorem setBridge_scratch (s : State) (b : Bridge) : (setBridge s b).scratch = s.scratch := rfl
@[simp] theorem setBridge_slots (s : State) (b : Bridge) : (setBridge s b).slots = s.slots := rfl
@[simp] theorem setBridge_prog (s : State) (b : Bridge) : (setBridge s b).prog = s.prog := rfl
@[simp] theorem setBridge_routes (s : State) (b : Bridge) : (setBridge s b).routes = s.routes := rfl
@[simp] theorem setBridge_lsts (s : State) (b : Bridge) : (setBridge s b).lsts = s.lsts := rfl
@[simp] theorem setBridge_sets (s : State) (b : Bridge) : (setBridge s b).sets = s.sets := rfl
@[simp] theorem setBridge_talkers (s : State) (b : Bridge) : (setBridge s b).talkers = s.talkers := rfl
@[simp] theorem setBridge_herder (s : State) (b : Bridge) : (setBridge s b).herder = s.herder := rfl
@[simp] theorem setBridge_pack (s : State) (b : Bridge) : (setBridge s b).pack = s.pack := rfl
@[simp] theorem setBridge_lq (s : State) (b : Bridge) : (setBridge s b).lq = s.lq := rfl
@[simp] theorem setBridge_evIn (s : State) (b : Bridge) : (setBridge s b).evIn = s.evIn := rfl
@[simp] theorem setBridge_evOut (s : State) (b : Bridge) : (setBridge s b).evOut = s.evOut := rfl
@[simp] theorem setBridge_serial (s : State) (b : Bridge) : (setBridge s b).serial = s.serial := rfl
@[simp] theorem setBridge_can (s : State) (b : Bridge) : (setBridge s b).can = s.can := rfl
@[simp] theorem setBridge_eth (s : State) (b : Bridge) : (setBridge s b).eth = s.eth := rfl
@[simp] theorem setBridge_dups (s : State) (b : Bridge) : (setBridge s b).dups = s.dups := rfl
@[simp] theorem setBridge_bridge (s : State) (b : Bridge) : (setBridge s b).bridge = b := rfl
@[simp] theorem setBridge_panels (s : State) (b : Bridge) : (setBridge s b).panels = s.panels := rfl
@[simp] theorem setBridge_panelSet (s : State) (b : Bridge) : (setBridge s b).panelSet = s.panelSet := rfl
@[simp] theorem setBridge_tap (s : State) (b : Bridge) : (setBridge s b).tap = s.tap := rfl
@[simp] theorem setBridge_pool (s : State) (b : Bridge) : (setBridge s b).pool = s.pool := rfl
@[simp] theorem setBridge_ledgers (s : State) (b : Bridge) : (setBridge s b).ledgers = s.ledgers := rfl
@[simp] theorem setBridge_integ (s : State) (b : Bridge) : (setBridge s b).integ = s.integ := rfl
@[simp] theorem setBridge_pair (s : State) (b : Bridge) : (setBridge s b).pair = s.pair := rfl
@[simp] theorem setBridge_freeCount (s : State) (b : Bridge) : (setBridge s b).freeCount = s.freeCount := rfl
@[simp] theorem setBridge_out (s : State) (b : Bridge) : (setBridge s b).out = s.out := rfl

/-! ## setMem -/

@[simp] theorem setMem_pending (s : State) (m : Mem) (v : SMap MemWord) : (setMem s m v).pending = s.pending := by cases m <;> rfl
@[simp] theorem setMem_power (s : State) (m : Mem) (v : SMap MemWord) : (setMem s m v).power = s.power := by cases m <;> rfl
@[simp] theorem setMem_time (s : State) (m : Mem) (v : SMap MemWord) : (setMem s m v).time = s.time := by cases m <;> rfl
@[simp] theorem setMem_vid (s : State) (m : Mem) (v : SMap MemWord) : (setMem s m v).vid = s.vid := by cases m <;> rfl
@[simp] theorem setMem_regions (s : State) (m : Mem) (v : SMap MemWord) : (setMem s m v).regions = s.regions := by cases m <;> rfl
@[simp] theorem setMem_tdcUse (s : State) (m : Mem) (v : SMap MemWord) : (setMem s m v).tdcUse = s.tdcUse := by cases m <;> rfl
@[simp] theorem setMem_regs (s : State) (m : Mem) (v : SMap MemWord) : (setMem s m v).regs = s.regs := by cases m <;> rfl
@[simp] theorem setMem_totals (s : State) (m : Mem) (v : SMap MemWord) : (setMem s m v).totals = s.totals := by cases m <;> rfl
@[simp] theorem setMem_host (s : State) (m : Mem) (v : SMap MemWord) : (setMem s m v).host = s.host := by cases m <;> rfl
@[simp] theorem setMem_rings (s : State) (m : Mem) (v : SMap MemWord) : (setMem s m v).rings = s.rings := by cases m <;> rfl
@[simp] theorem setMem_herder (s : State) (m : Mem) (v : SMap MemWord) : (setMem s m v).herder = s.herder := by cases m <;> rfl
@[simp] theorem setMem_pack (s : State) (m : Mem) (v : SMap MemWord) : (setMem s m v).pack = s.pack := by cases m <;> rfl
@[simp] theorem setMem_lq (s : State) (m : Mem) (v : SMap MemWord) : (setMem s m v).lq = s.lq := by cases m <;> rfl
@[simp] theorem setMem_evIn (s : State) (m : Mem) (v : SMap MemWord) : (setMem s m v).evIn = s.evIn := by cases m <;> rfl
@[simp] theorem setMem_evOut (s : State) (m : Mem) (v : SMap MemWord) : (setMem s m v).evOut = s.evOut := by cases m <;> rfl
@[simp] theorem setMem_serial (s : State) (m : Mem) (v : SMap MemWord) : (setMem s m v).serial = s.serial := by cases m <;> rfl
@[simp] theorem setMem_can (s : State) (m : Mem) (v : SMap MemWord) : (setMem s m v).can = s.can := by cases m <;> rfl
@[simp] theorem setMem_eth (s : State) (m : Mem) (v : SMap MemWord) : (setMem s m v).eth = s.eth := by cases m <;> rfl
@[simp] theorem setMem_dups (s : State) (m : Mem) (v : SMap MemWord) : (setMem s m v).dups = s.dups := by cases m <;> rfl
@[simp] theorem setMem_bridge (s : State) (m : Mem) (v : SMap MemWord) : (setMem s m v).bridge = s.bridge := by cases m <;> rfl
@[simp] theorem setMem_panels (s : State) (m : Mem) (v : SMap MemWord) : (setMem s m v).panels = s.panels := by cases m <;> rfl
@[simp] theorem setMem_panelSet (s : State) (m : Mem) (v : SMap MemWord) : (setMem s m v).panelSet = s.panelSet := by cases m <;> rfl
@[simp] theorem setMem_tap (s : State) (m : Mem) (v : SMap MemWord) : (setMem s m v).tap = s.tap := by cases m <;> rfl
@[simp] theorem setMem_ledgers (s : State) (m : Mem) (v : SMap MemWord) : (setMem s m v).ledgers = s.ledgers := by cases m <;> rfl
@[simp] theorem setMem_integ (s : State) (m : Mem) (v : SMap MemWord) : (setMem s m v).integ = s.integ := by cases m <;> rfl
@[simp] theorem setMem_pair (s : State) (m : Mem) (v : SMap MemWord) : (setMem s m v).pair = s.pair := by cases m <;> rfl
@[simp] theorem setMem_freeCount (s : State) (m : Mem) (v : SMap MemWord) : (setMem s m v).freeCount = s.freeCount := by cases m <;> rfl
@[simp] theorem setMem_out (s : State) (m : Mem) (v : SMap MemWord) : (setMem s m v).out = s.out := by cases m <;> rfl

/-- A memory after a memory changed. -/
@[simp] theorem memOf_setMem (s : State) (m n : Mem) (v : SMap MemWord) : memOf (setMem s m v) n = if n = m then v else memOf s n := by
  cases m <;> cases n <;> rfl

end Sys2Proof.Machine
end

