-- ==== Sys2Proof/Laws/Checks.lean ====
section
/-! SUPPORT. Check bits, injection and the checked memories: what one read or write can do. -/

namespace Sys2Proof.Machine

/-- The data of a fresh word. -/
@[simp] theorem memData_memFresh (w : Word) : memData (memFresh w) = w := by
  apply BitVec.eq_of_getLsbD_eq
  intro i hi
  have h := BitVec.getLsbD_append (x := checkBits w) (y := w) (i := i)
  simp only [hi] at h
  simpa [memData, memFresh, hi] using h

/-- The check bits of a fresh word. -/
@[simp] theorem memCheck_memFresh (w : Word) : memCheck (memFresh w) = checkBits w := by
  apply BitVec.eq_of_getLsbD_eq
  intro i hi
  have h := BitVec.getLsbD_append (x := checkBits w) (y := w) (i := 32 + i)
  simp only [show ¬ 32 + i < 32 by omega, Nat.add_sub_cancel_left] at h
  simpa [memCheck, memFresh, hi] using h

/-- A fresh word is good. -/
@[simp] theorem memGood_memFresh (w : Word) : memGood (memFresh w) = true := by simp [memGood]

/-- Nothing is injected while no arm is set. -/
theorem injected_none {s : State} (h : s.integ.arms = []) (det : Nat) (units : List Nat) : injected s det units = (s, false) := by
  have : armOf s det = none := by
    simp only [armOf, h, sget]
    exact List.findSome?_eq_none_iff.2 (fun _ _ => rfl)
  simp [injected, this]

/-- What a memory holds after one word is written. -/
@[simp] theorem memGet_memPut (s : State) (m n : Mem) (a b : Nat) (w : Word) :
    memGet (memPut s m a w) n b = if n = m ∧ b = a then memFresh w else memGet s n b := by
  unfold memGet memPut
  rw [memOf_setMem]
  by_cases h : n = m
  · subst h
    by_cases h' : b = a <;> simp [h']
  · simp [h]

/-- The data of a memory after one word is written. -/
@[simp] theorem memWord_memPut (s : State) (m n : Mem) (a b : Nat) (w : Word) :
    memWord (memPut s m a w) n b = if n = m ∧ b = a then w else memWord s n b := by
  unfold memWord
  rw [memGet_memPut]
  split <;> simp

/-- A checked read of a good word, with no arm set, gives its data and changes nothing. -/
theorem memRead_good {s : State} {m : Mem} {a : Nat} (hi : s.integ.arms = []) (hg : memGood (memGet s m a) = true)
    (readers : List Nat) : memRead s m a readers = ⟨s, memWord s m a, false, false⟩ := by
  simp [memRead, injected_none hi, hg, memWord]

/-- A checked read changes only injection arms and the count of injected occurrences. -/
theorem memRead_frame (s : State) (m : Mem) (a : Nat) (readers : List Nat) :
    (memRead s m a readers).s = (injected s (memDet m) (memUnit m a :: readers)).1 := by
  unfold memRead
  simp only
  split <;> simp_all

/-- Memories that a write of one word touches stay in canonical form. -/
theorem memoryWf_setMem {s : State} (m : Mem) {v : SMap MemWord} (h : Memory.wf s = true) (hv : swf (memDefault m) v = true) :
    Memory.wf (setMem s m v) = true := by
  unfold Memory.wf at h ⊢
  simp only [Bool.and_eq_true] at h ⊢
  cases m <;> simp_all [setMem]

/-- A memory of a hub whose memories are in canonical form. -/
theorem swf_memOf {s : State} (m : Mem) (h : Memory.wf s = true) : swf (memDefault m) (memOf s m) = true := by
  unfold Memory.wf at h
  simp only [Bool.and_eq_true] at h
  cases m <;> simp_all [memOf]

/-- A write of one word keeps every memory in canonical form. -/
theorem memoryWf_memPut {s : State} (m : Mem) (a : Nat) (w : Word) (h : Memory.wf s = true) : Memory.wf (memPut s m a w) = true :=
  memoryWf_setMem m h (swf_sset _ _ _ (swf_memOf m h))

/-- A write of words keeps every memory in canonical form. -/
theorem memoryWf_memPuts {s : State} (m : Mem) (a : Nat) (ws : List Word) (h : Memory.wf s = true) :
    Memory.wf (memPuts s m a ws) = true := by
  induction ws generalizing s a with
  | nil => exact h
  | cons w ws ih => exact ih (a + 1) (memoryWf_memPut m a w h)

/-- Clearing the scratch of an engine group keeps every memory in canonical form. -/
theorem memoryWf_clearScratch {s : State} (g : Nat) (h : Memory.wf s = true) : Memory.wf (clearScratch s g) = true := by
  unfold Memory.wf at h ⊢
  simp only [Bool.and_eq_true] at h ⊢
  have := swf_filter (memDefault .scratch) (fun p => p.1 / 16384 != g) h.1.1.1.1.1.1.1.2
  simp_all [clearScratch]

end Sys2Proof.Machine
end

