-- ==== Sys2Proof/Laws/Nymsa.lean ====
section
/-! SUPPORT. One Nymsa instruction: what the fetch, the ply check and the shared register operations do. -/

namespace Sys2Proof.Machine

/-- An engine after an engine is written. -/
@[simp] theorem engine_setEngine (s : State) (e e' : Nat) (v : Engine) :
    engine (setEngine s e v) e' = if e' = e then v else engine s e' := by simp [engine]

/-- An engine after the rest of the Pack changes. -/
theorem engine_of_engines {s t : State} (h : t.pack.engines = s.pack.engines) (e : Nat) : engine t e = engine s e := by
  simp [engine, h]

/-- The later of two writes of one engine counts. -/
@[simp] theorem setEngine_setEngine (s : State) (e : Nat) (v w : Engine) : setEngine (setEngine s e v) e w = setEngine s e w := by
  simp [setEngine]

/-- The run of a record that met no injected occurrence is not marked. -/
@[simp] theorem markMet_self (s : State) (e : Nat) : markMet s s e = s := by simp [markMet]

/-- A quiet read of a good bank word gives its data and changes nothing. -/
theorem bankRead_good {s : State} {m : Mem} {a : Nat} (q : Quiet s) (hg : memGood (memGet s m a) = true) (r : Nat) (rs : List Nat) :
    bankRead s m a r rs = (s, some (memWord s m a)) := by
  simp [bankRead, q.2.1, q.2.2, memRead_good q.1 hg]

/-- Quiet reads of good bank words change nothing, and none is awaited. -/
theorem bankScan_good {s : State} {m : Mem} (q : Quiet s) (r : Nat) (rs : List Nat) {as : List Nat}
    (hg : ∀ a ∈ as, memGood (memGet s m a) = true) : bankScan s m r rs as = (s, true) := by
  induction as with
  | nil => rfl
  | cons a as ih =>
    simp [bankScan, bankRead_good q (hg a List.mem_cons_self), ih (fun b hb => hg b (List.mem_cons_of_mem _ hb))]

/-- Quiet reads of good bank words give their data and change nothing. -/
theorem bankList_good {s : State} {m : Mem} (q : Quiet s) (r : Nat) (rs : List Nat) {as : List Nat}
    (hg : ∀ a ∈ as, memGood (memGet s m a) = true) : bankList s m r rs as = (s, some (as.map (memWord s m))) := by
  simp [bankList, bankScan_good q r rs hg]

/-- An engine that waits for nothing is not touched by the end of a wait. -/
theorem readerResume_idle {s : State} {e : Nat} (h : (engine s e).waitTb = none) : readerResume s e = s := by
  simp [readerResume, h]

/-- Quiet reads of good bank words by an engine. -/
theorem engBank_good {s : State} {m : Mem} {e : Nat} (q : Quiet s) {as : List Nat}
    (hg : ∀ a ∈ as, memGood (memGet s m a) = true) : engBank s e m as = (s, some (as.map (memWord s m))) := by
  simp [engBank, bankList_good q _ _ hg]

/-- The charge of an instruction, as one write of the Pack. -/
theorem charge_judged (s : State) (e c : Nat) :
    charge (setEngine s e { engine s e with judged := true }) e c = nyAfter s e c id := by
  simp [charge, nyAfter, setEngine, setPack, engine]

/-- The step of an engine whose next word is good and whose budget has room: the cost and the reads that may wait have given their
answers without changing the hub, so the plies are charged and the effect follows. -/
theorem nyStep_runs {α β : Type} {ops : List NyOp} {cost : State → Nat → Word → State × Option (Nat × α)}
    {prep : State → Nat → Word → α → State × Option β} {body : State → Nat → Word → β → State} {e c : Nat} {s : State} {w : Word}
    {op : NyOp} {x : α} {y : β} (h : NyRuns s e w op c) (hop : op ∈ ops) (hc : cost s e w = (s, some (c, x)))
    (hp : prep (setEngine s e { engine s e with judged := true }) e w x =
      (setEngine s e { engine s e with judged := true }, some y)) :
    nyStep ops cost prep body e s = body (nyAfter s e c id) e w y := by
  obtain ⟨q, ⟨hr, hwait, hload⟩, hw, rfl, hb⟩ := h
  have hm : memWord s .prog (engAddr s e) = w := by simp [memWord, hw]
  have hbank : engBank s e .prog [engAddr s e] = (s, some [w]) := by
    rw [engBank_good q (by simp [hw])]
    simp [hm]
  have hin : ops.contains (nyDecode w).op = true := by simpa using hop
  have hinj : (if (engine s e).judged then (s, false) else injected s 0x40 [unitEngine e]) = (s, false) := by
    split
    · rfl
    · exact injected_none q.1 _ _
  have hres : readerResume (setEngine s e { engine s e with judged := true }) e = setEngine s e { engine s e with judged := true } :=
    readerResume_idle (by simp [hwait])
  have hgo : (engReady s e && (engine s e).reload) = false := by rw [hload, Bool.and_false]
  have hon : (!(engReady s e && !(engine s e).reload && ops.contains (nyDecode (memWord s .prog (engAddr s e))).op)) = false := by
    rw [hr, hload, hm, hin]
    rfl
  unfold nyStep
  simp only [hgo, hon, hin, Bool.false_eq_true, if_false, Bool.not_true, hbank, hc, hinj, markMet_self, hp, hres]
  simp [Nat.not_lt.2 hb, charge_judged]

/-- The same for an instruction with a fixed cost that reads nothing that may wait. -/
theorem nyPlain_runs {op : NyOp} {c : Nat} {body : State → Nat → Word → State} {e : Nat} {s : State} {w : Word}
    (h : NyRuns s e w op c) : nyPlain op c body e s = body (nyAfter s e c id) e w :=
  nyStep_runs (x := ()) (y := ()) h (by simp) rfl rfl

/-- The engine after an instruction. -/
@[simp] theorem engine_nyAfter (s : State) (e c : Nat) (f : Engine → Engine) :
    engine (nyAfter s e c f) e =
      f { engine s e with plies := (engine s e).plies + c, pc := ((engine s e).pc + 1) % 32768, judged := false } := by
  simp [engine, nyAfter]

/-- A further change of the engine after an instruction. -/
@[simp] theorem setEngine_nyAfter (s : State) (e c : Nat) (f : Engine → Engine) (g : Engine) :
    setEngine (nyAfter s e c f) e g = nyAfter s e c (fun _ => g) := by
  simp [setEngine, nyAfter]

/-- A register after the plies are charged. -/
@[simp] theorem wreg_nyAfter (s : State) (e c n : Nat) : wreg (nyAfter s e c id) e n = wreg s e n := by simp [wreg]

/-- Two changes of the engine that agree on the engine with its plies charged. -/
theorem nyAfter_eq {s : State} {e c : Nat} {x : Engine} {f : Engine → Engine}
    (h : x = f { engine s e with plies := (engine s e).plies + c, pc := ((engine s e).pc + 1) % 32768, judged := false }) :
    nyAfter s e c (fun _ => x) = nyAfter s e c f := by simp [nyAfter, h]

/-- Memories after an instruction that changes only the engine. -/
@[simp] theorem memGet_nyAfter (s : State) (e c : Nat) (f : Engine → Engine) (m : Mem) (a : Nat) :
    memGet (nyAfter s e c f) m a = memGet s m a := by cases m <;> rfl

/-- Memory data after an instruction that changes only the engine. -/
@[simp] theorem memWord_nyAfter (s : State) (e c : Nat) (f : Engine → Engine) (m : Mem) (a : Nat) :
    memWord (nyAfter s e c f) m a = memWord s m a := by simp [memWord]

/-- Memories after an engine is written. -/
@[simp] theorem memGet_setEngine (s : State) (e : Nat) (v : Engine) (m : Mem) (a : Nat) :
    memGet (setEngine s e v) m a = memGet s m a := by cases m <;> rfl

/-- Memory data after an engine is written. -/
@[simp] theorem memWord_setEngine (s : State) (e : Nat) (v : Engine) (m : Mem) (a : Nat) :
    memWord (setEngine s e v) m a = memWord s m a := by simp [memWord]

/-- The record after the plies are charged. -/
@[simp] theorem engRec_nyAfter (s : State) (e c : Nat) : engRec (nyAfter s e c id) e = engRec s e := by simp [engRec]

/-- A header word after the engine changed. -/
@[simp] theorem recW_nyAfter (s : State) (e c : Nat) (f : Engine → Engine) (r : Rec) (k : Nat) :
    recW (nyAfter s e c f) r k = recW s r k := by simp [recW]

/-- A header word after an engine is written. -/
@[simp] theorem recW_setEngine (s : State) (e : Nat) (v : Engine) (r : Rec) (k : Nat) :
    recW (setEngine s e v) r k = recW s r k := by simp [recW]

/-- LENGTH of the record after the engine changed and kept its record. -/
theorem engLen_nyAfter (s : State) (e c : Nat) (f : Engine → Engine) (hf : ∀ g, (f g).recd = g.recd) :
    engLen (nyAfter s e c f) e = engLen s e := by simp [engLen, recLen, engRec, hf]

/-- LENGTH of the record after the plies are charged. -/
@[simp] theorem engLen_charged (s : State) (e c : Nat) : engLen (nyAfter s e c id) e = engLen s e := engLen_nyAfter s e c id (fun _ => rfl)

/-! ## Payload and pool -/

/-- A quiet read of a good word of the record gives its data and changes nothing. -/
theorem kenGet_good {s : State} {e k : Nat} (hi : s.integ.arms = [])
    (hg : memGood (memGet s .kennel (4 * (engRec s e).gran + k)) = true) :
    kenGet s e k = (s, some (memWord s .kennel (4 * (engRec s e).gran + k))) := by
  simp [kenGet, memRead_good hi hg]

/-- Quiet reads of good words of the record. -/
theorem kenGets_good {s : State} {e : Nat} (hi : s.integ.arms = []) {ks : List Nat}
    (hg : ∀ k ∈ ks, memGood (memGet s .kennel (4 * (engRec s e).gran + k)) = true) :
    kenGets s e ks = (s, some (ks.map fun k => memWord s .kennel (4 * (engRec s e).gran + k))) := by
  induction ks with
  | nil => rfl
  | cons k ks ih =>
    simp [kenGets, kenGet_good hi (hg k List.mem_cons_self), ih (fun j hj => hg j (List.mem_cons_of_mem _ hj))]

/-- The bytes of a word. -/
@[simp] theorem length_wordBytes (w : Word) : (wordBytes w).length = 4 := rfl

/-- Byte i of the bytes of words. -/
theorem wordsBytes_getD (ws : List Word) (i : Nat) :
    (wordsBytes ws).getD i 0 = (wordBytes (ws.getD (i / 4) 0)).getD (i % 4) 0 := by
  induction ws generalizing i with
  | nil =>
    have : (wordBytes (0 : Word)).getD (i % 4) 0 = 0 := by
      have : i % 4 < 4 := Nat.mod_lt _ (by decide)
      rcases (by omega : i % 4 = 0 ∨ i % 4 = 1 ∨ i % 4 = 2 ∨ i % 4 = 3) with h | h | h | h <;> rw [h] <;> decide
    simpa [wordsBytes] using this.symm
  | cons w ws ih =>
    have hc : wordsBytes (w :: ws) = wordBytes w ++ wordsBytes ws := rfl
    by_cases h : i < 4
    · rw [hc, List.getD_append _ _ _ _ (by simpa using h), Nat.div_eq_of_lt h, Nat.mod_eq_of_lt h]
      rfl
    · rw [hc, List.getD_append_right _ _ _ _ (by simpa using Nat.le_of_not_lt h), length_wordBytes, ih]
      have : i / 4 = (i - 4) / 4 + 1 := by omega
      rw [this, List.getD_cons_succ, show (i - 4) % 4 = i % 4 by omega]

/-- The bytes of words. -/
@[simp] theorem length_wordsBytes (ws : List Word) : (wordsBytes ws).length = 4 * ws.length := by
  induction ws with
  | nil => rfl
  | cons w ws ih =>
    rw [show wordsBytes (w :: ws) = wordBytes w ++ wordsBytes ws from rfl, List.length_append, ih]
    simp
    omega

/-- Bytes lo to hi − 1 of words that begin at byte 4 × (lo / 4) of a store. -/
theorem wordsBytes_window (f : Nat → Word) (lo hi : Nat) :
    ((wordsBytes ((List.range ((if lo < hi then (hi + 3) / 4 - lo / 4 else 0))).map fun i => f (lo / 4 + i))).drop (lo % 4)).take (hi - lo)
      = (List.range (hi - lo)).map fun i => (wordBytes (f ((lo + i) / 4))).getD ((lo + i) % 4) 0 := by
  by_cases h : lo < hi
  · simp only [h, if_true]
    apply List.ext_getElem
    · simp; omega
    · intro i h1 h2
      simp only [List.length_map, List.length_range] at h2
      have hr : (lo % 4 + i) / 4 < (hi + 3) / 4 - lo / 4 := by omega
      rw [List.getElem_take, List.getElem_drop, ← List.getD_eq_getElem _ 0, wordsBytes_getD]
      simp only [List.getD_eq_getElem?_getD, List.getElem?_map, List.getElem?_range hr, Option.map_some, Option.getD_some,
        List.getElem_map, List.getElem_range]
      rw [show lo / 4 + (lo % 4 + i) / 4 = (lo + i) / 4 by omega, show (lo % 4 + i) % 4 = (lo + i) % 4 by omega]
  · simp [show hi - lo = 0 by omega]

/-- Payload bytes read quietly from good words are those of the record. -/
theorem kenBytes_good {s : State} {e : Nat} (hi : s.integ.arms = []) (hg : PayloadGood s e) (lo n : Nat) :
    kenBytes s e lo n = (s, some (payload s e lo n)) := by
  have hk : ∀ k ∈ (List.range (if lo < min (lo + n) (engLen s e) then (min (lo + n) (engLen s e) + 3) / 4 - lo / 4 else 0)).map
      (fun i => 12 + lo / 4 + i), memGood (memGet s .kennel (4 * (engRec s e).gran + k)) = true := by
    intro k hk
    simp only [List.mem_map, List.mem_range] at hk
    obtain ⟨i, hi, rfl⟩ := hk
    apply hg
    split at hi
    · simp only [ceilDiv]; omega
    · omega
  unfold kenBytes
  simp only [kenGets_good hi hk, List.map_map, Function.comp_def]
  have hw := wordsBytes_window (fun j => memWord s .kennel (4 * (engRec s e).gran + 12 + j)) lo (min (lo + n) (engLen s e))
  simp only [show ∀ j, 4 * (engRec s e).gran + (12 + lo / 4 + j) = 4 * (engRec s e).gran + 12 + (lo / 4 + j) by omega, hw]
  congr 2
  apply List.ext_getElem
  · simp [payload]; omega
  · intro i h1 h2
    simp only [payload, List.length_map, List.length_range] at h2
    simp only [payload, List.getElem_map, List.getElem_range]
    by_cases hin : lo + i < engLen s e
    · rw [List.getElem_append_left (by simp; omega)]
      simp [hin]
    · rw [List.getElem_append_right (by simp; omega)]
      simp [hin]

end Sys2Proof.Machine
end

