-- ==== Sys2Proof/Laws/Regs.lean ====
section
/-! SUPPORT. Registers, fields and counters: what one write changes. -/

namespace Sys2Proof.Machine

/-- A bit of a word. -/
theorem bit_eq (w : Word) (i : Nat) : bit w i = w.getLsbD i := by
  simp [bit, BitVec.getLsbD, Nat.testBit, Nat.one_and_eq_mod_two]

/-- A number cut at two places. -/
theorem cut3 (n a b : Nat) : n = n % 2 ^ a + 2 ^ a * (n / 2 ^ a % 2 ^ b) + 2 ^ (a + b) * (n / 2 ^ (a + b)) := by
  have h1 := Nat.mod_add_div n (2 ^ a)
  have h2 := Nat.mod_add_div (n / 2 ^ a) (2 ^ b)
  rw [Nat.div_div_eq_div_mul, ← Nat.pow_add] at h2
  have h3 : 2 ^ (a + b) * (n / 2 ^ (a + b)) = 2 ^ a * (2 ^ b * (n / 2 ^ (a + b))) := by rw [Nat.pow_add, Nat.mul_assoc]
  rw [h3, Nat.add_assoc, ← Nat.mul_add, h2, h1]

/-- The number of a word with a field replaced. -/
theorem setFld_toNat {w : Word} {hi lo v : Nat} (h : lo ≤ hi) (h32 : hi < 32) :
    (setFld w hi lo v).toNat =
      w.toNat % 2 ^ lo + 2 ^ lo * (v % 2 ^ (hi + 1 - lo)) + 2 ^ (hi + 1) * (w.toNat / 2 ^ (hi + 1)) := by
  have hc := cut3 w.toNat lo (hi + 1 - lo)
  rw [show lo + (hi + 1 - lo) = hi + 1 by omega] at hc
  have hf : fld w hi lo = w.toNat / 2 ^ lo % 2 ^ (hi + 1 - lo) := by simp [fld, Nat.shiftRight_eq_div_pow]
  have hv : v % 2 ^ (hi + 1 - lo) ≤ 2 ^ (hi + 1 - lo) - 1 := Nat.le_sub_one_of_lt (Nat.mod_lt _ (by positivity))
  have hl : w.toNat % 2 ^ lo < 2 ^ lo := Nat.mod_lt _ (by positivity)
  have hw := w.isLt
  have hp : 2 ^ lo * 2 ^ (hi + 1 - lo) = 2 ^ (hi + 1) := by rw [← Nat.pow_add]; congr 1; omega
  have hq : 2 ^ (hi + 1) * 2 ^ (32 - (hi + 1)) = 2 ^ 32 := by rw [← Nat.pow_add]; congr 1; omega
  have hd : w.toNat / 2 ^ (hi + 1) ≤ 2 ^ (32 - (hi + 1)) - 1 := by
    apply Nat.le_sub_one_of_lt
    rw [Nat.div_lt_iff_lt_mul (by positivity), Nat.mul_comm, hq]
    exact hw
  have e1 : w.toNat - fld w hi lo * 2 ^ lo + v % 2 ^ (hi + 1 - lo) * 2 ^ lo =
      w.toNat % 2 ^ lo + 2 ^ lo * (v % 2 ^ (hi + 1 - lo)) + 2 ^ (hi + 1) * (w.toNat / 2 ^ (hi + 1)) := by
    rw [hf, Nat.mul_comm (w.toNat / 2 ^ lo % _) (2 ^ lo), Nat.mul_comm (v % _) (2 ^ lo)]
    omega
  have hlt : w.toNat % 2 ^ lo + 2 ^ lo * (v % 2 ^ (hi + 1 - lo)) + 2 ^ (hi + 1) * (w.toNat / 2 ^ (hi + 1)) < 2 ^ 32 := by
    have a1 : 2 ^ lo * (v % 2 ^ (hi + 1 - lo)) ≤ 2 ^ lo * (2 ^ (hi + 1 - lo) - 1) := Nat.mul_le_mul_left _ hv
    have a2 : 2 ^ (hi + 1) * (w.toNat / 2 ^ (hi + 1)) ≤ 2 ^ (hi + 1) * (2 ^ (32 - (hi + 1)) - 1) := Nat.mul_le_mul_left _ hd
    rw [Nat.mul_sub, Nat.mul_one, hp] at a1
    rw [Nat.mul_sub, Nat.mul_one, hq] at a2
    have : 2 ^ lo ≤ 2 ^ (hi + 1) := Nat.pow_le_pow_right (by decide) (by omega)
    have : 2 ^ (hi + 1) ≤ 2 ^ 32 := Nat.pow_le_pow_right (by decide) (by omega)
    omega
  unfold setFld
  rw [BitVec.toNat_ofNat, e1, Nat.mod_eq_of_lt hlt]

/-- A field of a word after a field of it, above, below or the same, is replaced. -/
theorem fld_setFld {w : Word} {hi lo v : Nat} (h : lo ≤ hi) (h32 : hi < 32) :
    fld (setFld w hi lo v) hi lo = v % 2 ^ (hi + 1 - lo) := by
  have hp : 2 ^ (hi + 1) = 2 ^ lo * 2 ^ (hi + 1 - lo) := by rw [← Nat.pow_add]; congr 1; omega
  unfold fld
  rw [setFld_toNat h h32, Nat.shiftRight_eq_div_pow, hp]
  have hl : w.toNat % 2 ^ lo < 2 ^ lo := Nat.mod_lt _ (by positivity)
  generalize w.toNat % 2 ^ lo = x at *
  generalize w.toNat / (2 ^ lo * 2 ^ (hi + 1 - lo)) = y
  have : (x + 2 ^ lo * (v % 2 ^ (hi + 1 - lo)) + 2 ^ lo * 2 ^ (hi + 1 - lo) * y) / 2 ^ lo = v % 2 ^ (hi + 1 - lo) + 2 ^ (hi + 1 - lo) * y := by
    rw [Nat.add_assoc, Nat.mul_assoc, ← Nat.mul_add, Nat.add_mul_div_left _ _ (by positivity), Nat.div_eq_of_lt hl, Nat.zero_add]
  rw [this, Nat.add_mul_mod_self_left, Nat.mod_mod]

/-- A register after a register is written. -/
@[simp] theorem reg_setReg (s : State) (o o' : Nat) (v : Word) : reg (setReg s o v) o' = if o' = o then v else reg s o' := by
  unfold reg setReg
  by_cases h : o' = o
  · subst h; simp
  · simp [h, sget_sset_ne]

/-- A field of the register whose field is written. -/
theorem regF_setF_same {s : State} {o hi lo v : Nat} (h : lo ≤ hi) (h32 : hi < 32) :
    regF (setF s o hi lo v) o hi lo = v % 2 ^ (hi + 1 - lo) := by simp [regF, setF, fld_setFld h h32]

/-- Another register after a field is written. -/
theorem reg_setF_other {s : State} {o o' hi lo v : Nat} (h : o' ≠ o) : reg (setF s o hi lo v) o' = reg s o' := by simp [setF, h]

/-- A counter field after it counted: it saturates. -/
theorem regF_count {s : State} {o hi lo n : Nat} (h : lo ≤ hi) (h32 : hi < 32) :
    regF (count s o hi lo n) o hi lo = min (regF s o hi lo + n) (2 ^ (hi + 1 - lo) - 1) := by
  show regF (setF s o hi lo _) o hi lo = _
  rw [regF_setF_same h h32]
  have : 0 < 2 ^ (hi + 1 - lo) := by positivity
  unfold satAdd
  split
  · rw [Nat.mod_eq_of_lt (by omega), Nat.min_eq_left (by assumption)]
  · rw [Nat.mod_eq_of_lt (by omega), Nat.min_eq_right (by omega)]

/-- Another register after a counter counted. -/
theorem reg_count_other {s : State} {o o' hi lo n : Nat} (h : o' ≠ o) : reg (count s o hi lo n) o' = reg s o' :=
  reg_setF_other h

/-- The total of a counter after it counted: it wraps. -/
theorem total_count (s : State) (o hi lo n : Nat) : total (count s o hi lo n) o lo = (total s o lo + n) % 2 ^ 32 := by
  simp [total, count, setF]

/-- A counter changes only its register and its total. -/
theorem count_frame (s : State) (o hi lo n : Nat) :
    count s o hi lo n = { s with regs := (count s o hi lo n).regs, totals := (count s o hi lo n).totals } := rfl

end Sys2Proof.Machine
end

