-- ==== Sys2Proof/Laws/Ops.lean ====
section
/-! SUPPORT. Messages, rings, events, detectors and completions: the fields and registers that each of them can change. -/

namespace Sys2Proof.Machine

/-- A message changes a pending bit, or leaves the hub. -/
theorem message_frame (s : State) (v : Nat) : ∃ r o, message s v = { s with regs := r, out := o } := by
  unfold message
  split
  · exact ⟨s.regs, s.out, rfl⟩
  · split
    · exact ⟨_, s.out, rfl⟩
    · exact ⟨s.regs, _, rfl⟩

/-- A message leaves every register but the pending bits. -/
theorem reg_message (s : State) (v : Nat) {off : Nat} (h : off ≠ Reg.msixPba) : reg (message s v) off = reg s off := by
  unfold message
  split
  · rfl
  · split
    · simp [h]
    · rfl

/-- A ring's message. -/
theorem ringMessage_frame (s : State) (n : Nat) : ∃ r g o, ringMessage s n = { s with regs := r, rings := g, out := o } := by
  unfold ringMessage
  obtain ⟨r, o, h⟩ := message_frame (setRing s n { ring s n with unann := 0, firstTb := 0 }) (regF s (ringOff n + 8) 28 24)
  exact ⟨r, _, o, by rw [h]; rfl⟩

/-- The announcement of an entry. -/
theorem ringAnnounce_frame (s : State) (n : Nat) : ∃ r g o, ringAnnounce s n = { s with regs := r, rings := g, out := o } := by
  unfold ringAnnounce
  extract_lets g x
  obtain ⟨g', hx⟩ : ∃ g', x = { s with rings := g' } := ⟨_, rfl⟩
  clear_value x
  subst hx
  split
  · exact (ringMessage_frame _ n).imp fun r ⟨g, o, h⟩ => ⟨g, o, h⟩
  · exact ⟨s.regs, _, s.out, rfl⟩

/-- An entry written to a ring. -/
theorem ringWrite_frame (s : State) (n units : Nat) (ws : List Word) :
    ∃ r g o, ringWrite s n units ws = { s with regs := r, rings := g, out := o } := ⟨_, _, _, rfl⟩

/-- The block of a ring. -/
theorem ringOff_lt {r : Nat} (h : r < 18) : 0x1400 ≤ ringOff r ∧ ringOff r + 0x20 ≤ 0x2C20 := by
  unfold ringOff
  split
  · omega
  · split
    · omega
    · omega

/-- An announcement leaves the registers outside the rings. -/
theorem reg_ringAnnounce (s : State) (r : Nat) {off : Nat} (h : ¬ringReg off) : reg (ringAnnounce s r) off = reg s off := by
  have hp : off ≠ Reg.msixPba := by
    rintro rfl
    exact h (by unfold ringReg; decide)
  unfold ringAnnounce ringMessage
  extract_lets g x
  have hx : reg x off = reg s off := rfl
  clear_value x
  split
  · rw [reg_message _ _ hp]; exact hx
  · exact hx

/-- An entry leaves the registers outside the rings. -/
theorem reg_ringWrite (s : State) {r : Nat} (units : Nat) (ws : List Word) (hr : r < 18) {off : Nat} (h : ¬ringReg off) :
    reg (ringWrite s r units ws) off = reg s off := by
  have hb := ringOff_lt hr
  have : off ≠ ringOff r + 16 := by
    rintro rfl
    exact h ⟨by omega, by omega⟩
  unfold ringWrite
  simp only [setF, reg_setReg, this, if_false]
  rfl

/-- An entry written and announced. -/
theorem ringPut_frame (s : State) (n units m : Nat) (ws : List Word) :
    ∃ r g o, ringAnnounce (ringWrite s n units ws) m = { s with regs := r, rings := g, out := o } := by
  obtain ⟨r, g, o, h⟩ := ringWrite_frame s n units ws
  obtain ⟨r', g', o', h'⟩ := ringAnnounce_frame (ringWrite s n units ws) m
  exact ⟨r', g', o', by rw [h', h]⟩

/-- An event changes its ring, the event numbers and what leaves the hub. -/
theorem event_frame (s : State) (kind det unit d2 d3 : Nat) (inj : Bool) (t : Stamp) :
    ∃ r g o q f, event s kind det unit d2 d3 inj t =
      { s with regs := r, rings := g, out := o, host := { s.host with evSeq := q, ovf := f } } := by
  unfold event
  extract_lets seq src x w0 src' y
  obtain ⟨q, hx⟩ : ∃ q, x = { s with host := { s.host with evSeq := q } } := ⟨_, rfl⟩
  clear_value w0 x
  subst hx
  split
  · obtain ⟨r, g, o, h⟩ := ringPut_frame y 1 1 1 [w0, BitVec.ofNat 32 unit, BitVec.ofNat 32 d2, BitVec.ofNat 32 d3,
      BitVec.ofNat 32 (stSec t / 2 ^ 32), BitVec.ofNat 32 (stSec t), BitVec.ofNat 32 (stNs t), BitVec.ofNat 32 (seq * 65536 + stFrac t)]
    rw [h]
    exact ⟨r, g, o, q, false, rfl⟩
  · exact ⟨_, s.rings, s.out, q, true, rfl⟩

/-- An event leaves the registers outside the rings. -/
theorem reg_event (s : State) (kind det unit d2 d3 : Nat) (inj : Bool) (t : Stamp) {off : Nat} (h : ¬ringReg off) :
    reg (event s kind det unit d2 d3 inj t) off = reg s off := by
  have h1 : off ≠ ringOff 1 + 20 := by
    rintro rfl
    exact h (by unfold ringReg; decide)
  unfold event
  extract_lets seq src x w0 src' y
  split
  · exact (reg_ringAnnounce _ _ h).trans (reg_ringWrite _ _ _ (by decide) h)
  · exact reg_setF_other h1

/-- A detector that fires changes its count and total, the limit periods, and what an event changes. -/
theorem fireAt_frame (s : State) (det unit d2 d3 : Nat) (inj : Bool) (l : Option Nat) (t : Stamp) :
    ∃ r g o q f m n, fireAt s det unit d2 d3 inj l t =
      { s with regs := r, rings := g, out := o, host := { s.host with evSeq := q, ovf := f }, integ := { s.integ with limits := m },
               totals := sset 0 s.totals (32 * Reg.detCount det) n } := by
  unfold fireAt
  extract_lets x y w
  obtain ⟨r0, n, hy⟩ : ∃ r n, y = { s with regs := r, totals := sset 0 s.totals (32 * Reg.detCount det) n } := ⟨_, _, rfl⟩
  clear_value y x
  subst hy
  have key := event_frame { s with regs := r0, totals := sset 0 s.totals (32 * Reg.detCount det) n } 0 det unit d2 d3 inj t
  obtain ⟨r, g, o, q, f, h⟩ := key
  have hw : w = _ := h
  clear_value w
  subst hw
  split
  · exact ⟨r0, s.rings, s.out, s.host.evSeq, s.host.ovf, s.integ.limits, n, rfl⟩
  · split
    · exact ⟨r, g, o, q, f, s.integ.limits, n, h⟩
    · split
      · exact ⟨r, g, o, q, f, s.integ.limits, n, h⟩
      · split
        · exact ⟨r0, s.rings, s.out, s.host.evSeq, s.host.ovf, s.integ.limits, n, rfl⟩
        · split
          · exact ⟨r, g, o, q, f, _, n, rfl⟩
          · exact ⟨r, g, o, q, f, s.integ.limits, n, rfl⟩

/-- A completion written to its ring. -/
theorem writeCompletion_frame (s : State) (c : Completion) :
    ∃ r g o, writeCompletion s c = { s with regs := r, rings := g, out := o, host := { s.host with free := s.host.free ++ [c.slot] } } := by
  unfold writeCompletion
  extract_lets x src y
  obtain ⟨r0, g0, o0, hx⟩ : ∃ r g o, x = { s with regs := r, rings := g, out := o } := ringWrite_frame _ _ _ _
  have hy : y = { s with regs := r0, rings := g0, out := o0, host := { s.host with free := s.host.free ++ [c.slot] } } := by
    show ({ x with host := { x.host with free := x.host.free ++ [c.slot] } } : State) = _
    rw [hx]
  clear_value x y
  subst hx hy
  split
  · exact ⟨_, _, _, rfl⟩
  · split
    · obtain ⟨r, o, h⟩ := message_frame _ c.vector
      exact ⟨r, g0, o, h⟩
    · exact ringAnnounce_frame _ 0

/-- A finished command is gone; its completion is written, or held. -/
theorem finishAt_frame (s : State) (k st r0 r1 : Nat) (t : Stamp) :
    ∃ r g o fr hd, finishAt s k st r0 r1 t =
      { s with
        regs := r, rings := g, out := o,
        host := { s.host with cmds := s.host.cmds.filter (fun c => c.slot != k), free := fr, held := hd } } := by
  unfold finishAt
  split
  · rename_i h
    refine ⟨s.regs, s.rings, s.out, s.host.free, s.host.held, ?_⟩
    have : s.host.cmds.filter (fun c => c.slot != k) = s.host.cmds := by
      rw [List.filter_eq_self]
      intro c hc
      have := List.find?_eq_none.1 h c hc
      simpa [bne] using this
    rw [this]
  · extract_lets src x w0
    have hx : x = { s with host := { s.host with cmds := s.host.cmds.filter (fun c => c.slot != k) } } := rfl
    clear_value x w0
    subst hx
    generalize (⟨k, _, st, min r0 65535, min r1 65535, stSec t % 2 ^ 32, stNs t, _, _, _⟩ : Completion) = c
    unfold deliver
    split
    · obtain ⟨r, g, o, h⟩ := writeCompletion_frame
        { s with host := { s.host with cmds := s.host.cmds.filter (fun c => c.slot != k) } } c
      exact ⟨r, g, o, _, s.host.held, h⟩
    · exact ⟨s.regs, s.rings, s.out, s.host.free, _, rfl⟩

/-- A finished command is gone. -/
theorem cmdAt_finishAt (s : State) (k st r0 r1 : Nat) (t : Stamp) : cmdAt (finishAt s k st r0 r1 t) k = none := by
  obtain ⟨r, g, o, fr, hd, h⟩ := finishAt_frame s k st r0 r1 t
  rw [h]
  show (s.host.cmds.filter (fun c => c.slot != k)).find? (fun c => c.slot == k) = none
  rw [List.find?_eq_none]
  intro c hc
  have := (List.mem_filter.1 hc).2
  simp_all

end Sys2Proof.Machine
end

