-- ==== Sys2Proof/Machine/TestPort.lean ====
section
/-! DEFINITION. The test access port (17_electrical_package.md R388): its controller follows IEEE 1149.1, which R388 names and does not print
(PRESUMED, log 17). No command of the table drives its balls. -/

namespace Sys2Proof.Machine

/-- The controller's next state at a rising edge of TCK, from TMS. -/
def tapNext (t : TapState) (tms : Bool) : TapState :=
  match t with
  | .testLogicReset => if tms then .testLogicReset else .runTestIdle
  | .runTestIdle => if tms then .selectDr else .runTestIdle
  | .selectDr => if tms then .selectIr else .captureDr
  | .captureDr => if tms then .exit1Dr else .shiftDr
  | .shiftDr => if tms then .exit1Dr else .shiftDr
  | .exit1Dr => if tms then .updateDr else .pauseDr
  | .pauseDr => if tms then .exit2Dr else .pauseDr
  | .exit2Dr => if tms then .updateDr else .shiftDr
  | .updateDr => if tms then .selectDr else .runTestIdle
  | .selectIr => if tms then .testLogicReset else .captureIr
  | .captureIr => if tms then .exit1Ir else .shiftIr
  | .shiftIr => if tms then .exit1Ir else .shiftIr
  | .exit1Ir => if tms then .updateIr else .pauseIr
  | .pauseIr => if tms then .exit2Ir else .pauseIr
  | .exit2Ir => if tms then .updateIr else .shiftIr
  | .updateIr => if tms then .selectDr else .runTestIdle

/-- The clock of the port is present: TCK may stop at any time (R14, R388). -/
def tapClocked (s : State) : Bool := !s.integ.lost.contains 11

/-- A rising edge of TCK moves the controller; in a shift state TDI enters the shift path of the boundary cells, and in Update-DR the cells
take what was shifted. -/
def tapClock (tms tdi : Bool) (s : State) : State :=
  let t := s.tap
  if !tapClocked s then s
  else
    let t := if t.state == .shiftDr then { t with shift := t.shift.drop 1 ++ [tdi] } else t
    let t := { t with state := tapNext t.state tms }
    { s with tap := if t.state == .updateDr then { t with latch := t.shift } else t }

/-- TRST_N low puts the port into its reset state. -/
def tapReset (s : State) : State := { s with tap := Tap.init }

end Sys2Proof.Machine
end

