-- ==== Sys2Proof/Laws/Tick.lean ====
section
/-! SUPPORT. What a step on an empty queue can do, configuration space after reset, and the reset of the test access port. -/

namespace Sys2Proof.Machine

/-- A tick of a hub that does not work moves the clock, and nothing more. -/
theorem hubTick_idle {s : State} (h : ticking (tick s) = false) : hubTick s = tick s := by simp [hubTick, h]

/-- A tick moves the clock, the count of ticks, RATE and the occupancy counts. -/
theorem tick_frame (s : State) : ∃ r t v, tick s = { s with regs := r, time := t, vid := v } := ⟨_, _, _, rfl⟩

/-- A period of SL counts the time asleep. -/
theorem slTick_frame (s : State) : slTick s = { s with power := { s.power with slPeriods := s.power.slPeriods + 1 } } := rfl

/-- With nothing in the queue a step is a tick of TB, a period of SL in harbour watch, or nothing. -/
theorem step_empty {s : State} (h : s.pending = []) :
    step s = .next (if tbRuns s then hubTick s else if s.power.phase == .watch then slTick s else s) := by simp [step, h]

/-- The revision ID is HUB_REV.STEP (R28). -/
theorem config_revision : (State.reset.host.config.revision).toNat = regF State.reset Reg.hubRev 7 0 := by decide

/-- Five edges of TCK with TMS high lead to Test-Logic-Reset from every state of the controller. -/
theorem tapNext_five (t : TapState) : (tapNext · true)^[5] t = .testLogicReset := by cases t <;> rfl

end Sys2Proof.Machine
end

