-- ==== Sys2Proof/Tests/Slice0.lean ====
section
/-! SUPPORT. The model's own tests, and the witnesses of the statements: states that meet their hypotheses. -/

set_option Elab.async false

namespace Sys2Proof.Tests

open Sys2Proof Sys2Proof.Machine

/-! ## States to start from -/

/-- A hub that runs: powered, TB running, BAR0 usable, the boot over. -/
def up : State :=
  let s : State := { State.reset with
    power := { Power.init with phase := .run }, time := { TimeCore.init with locked := true },
    host := { HostIf.init with usable := true, free := [0, 1, 2] } }
  setReg s Reg.hostStatus 0

/-- Registers take values. -/
def put (s : State) (rs : List (Nat × Word)) : State := rs.foldl (fun s e => setReg s e.1 e.2) s

/-- The tick count is another. -/
def at_ (s : State) (tb : Nat) : State := { s with time := { s.time with tb := tb } }

/-- A command in slot 3 has been accepted. -/
def theCmd (ws : List Word) : HostCmd :=
  { slot := 3, gen := 1, words := ws, phase := .accepted, fetch := none, flash := false, got := [], done := 0, aux := 0 }

/-- The hub with that command. -/
def withCmd (s : State) (ws : List Word) : State := { s with host := { s.host with cmds := [theCmd ws] } }

/-- The command is ready. -/
def ready (s : State) (op : Nat) (ws : List Word) : Bool := decide (cmdReady (withCmd s ws) 3 op = some (theCmd ws))

/-- The command answers a next state that satisfies f. -/
def gives (c : Instr) (s : State) (f : State → Bool) : Bool :=
  match exec c s with
  | .next t => f t
  | .fault _ => false
  | .refused _ => false

/-! ## Engines -/

/-- The sentence of the gyro on SP004: `$HEHDT,274.5,T*2B` with CR and LF (R157). -/
def gyro : List Byte :=
  [0x24, 0x48, 0x45, 0x48, 0x44, 0x54, 0x2C, 0x32, 0x37, 0x34, 0x2E, 0x35, 0x2C, 0x54, 0x2A, 0x32, 0x42, 0x0D, 0x0A]

/-- A sentence record of talker 5 with a payload, in granules from 0; LENGTH, START 0 and the place of the star are given. -/
def recorded (text : List Byte) (star : Nat) : State :=
  let a : Arrived := {
    typ := 0, src := 4, key := 1, stage := none, epoch := 3, lost := false, inj := false, charErr := false, woke := false, sum := 0,
    rxq0 := false, first := 7 * 1000000000 * 65536, last := 0, aux0 := star, aux1 := 0, aux2 := 0, payload := text, steps := 0 }
  memPuts up .kennel 0 (recWords a 1 5)

/-- Engine 0 holds that record, with W4 5, W5 2 and W6 0xFFFFFFFF, and its next word is w. -/
def ny (text : List Byte) (star : Nat) (w : Word) : State :=
  let g : Engine := { Engine.init with
    recd := some ⟨1, 0, 5, 5, false, 0⟩, budget := 100,
    w := [0, 0, 0, 0, 5, 2, 0xFFFFFFFF, 0, 0, 0, 0, 0, 0, 0, 0, 0] }
  let s := recorded text star
  memPut { s with pack := { s.pack with engines := sset Engine.init s.pack.engines 0 g } } .prog 0 w

/-- The word of an instruction with D 1, A 4. -/
def asm (op : NyOp) (arg : NyArg) : Word := nyEncode ⟨op, 1, 4, arg⟩

/-- The hypothesis NyRuns, as a Bool. -/
def runs (s : State) (e : Nat) (w : Word) (op : NyOp) (c : Nat) : Bool :=
  s.integ.arms.isEmpty && s.pack.refetch.isEmpty && s.pack.passes.isEmpty && engReady s e && (engine s e).waitTb.isNone && !(engine s e).reload
    && memGet s .prog (engAddr s e) == memFresh w && decide ((nyDecode w).op = op) && decide ((engine s e).plies + c ≤ (engine s e).budget)

/-- The Bool says what the hypothesis says. -/
theorem nyRuns_of_runs {s : State} {e : Nat} {w : Word} {op : NyOp} {c : Nat} (h : runs s e w op c = true) : NyRuns s e w op c := by
  simpa [runs, NyRuns, Quiet, and_assoc] using h

/-- The opcodes whose cost is fixed, with their costs. -/
def costs : List (NyOp × Nat) :=
  [(.nop, 1), (.endRecord, 1), (.br, 1), (.brc, 1), (.call, 1), (.ret, 1), (.budget, 1), (.cur, 1), (.nextf, 2), (.getc, 1), (.skip, 1),
   (.talk, 1), (.fmt, 1), (.pdec, 2), (.plat, 4), (.plon, 4), (.phex, 2), (.pchr, 1), (.ptime, 3), (.pdate, 4)] ++
  [(.add, 1), (.sub, 1), (.mul, 2), (.mulq, 2), (.andW, 1), (.orW, 1), (.xorW, 1), (.shl, 1), (.shr, 1), (.minW, 1), (.maxW, 1),
   (.cmp, 1), (.ldi, 1), (.mov, 1), (.scale, 3), (.tlk, 2), (.rt, 1), (.slotw, 3), (.slotr, 3), (.lds, 1), (.sts, 1)] ++
  [(.tsa, 1), (.tse, 1), (.tnow, 1), (.tdiff, 2), (.timeset, 2), (.openItem, 2), (.putc, 1), (.putf, 1), (.putf, 2), (.opgn, 1),
   (.putb, 1), (.close, 2), (.launch, 1), (.tagItem, 1), (.panel, 2), (.count, 1), (.event, 2), (.ackstat, 2), (.unassigned, 1), (.drop, 1)]

/-- Every instruction with a fixed cost runs from a state, and CHK with the cost of its sentence. -/
theorem wit_engines : costs.all (fun x => runs (ny gyro 14 (asm x.1 (.imm 3))) 0 (asm x.1 (.imm 3)) x.1 x.2)
    && runs (ny gyro 14 (asm .chk (.imm 3))) 0 (asm .chk (.imm 3)) .chk 2 = true := by decide +kernel

/-- The record's payload is good. -/
theorem wit_payload : PayloadGood (ny gyro 14 0) 0 := by
  unfold PayloadGood
  decide +kernel

/-- Engine 0 with fields recorded, each by start and length. -/
def withFields (s : State) (fs : List (Nat × Nat)) : State :=
  setEngine s 0 { engine s 0 with fields := fs.map fun f => memFresh (BitVec.ofNat 32 (f.1 * 65536 + f.2)) }

/-- Engine 0 with an open item of these bytes. -/
def withItem (s : State) (bs : List Byte) : State :=
  setEngine s 0 { engine s 0 with
    item := some ⟨7, 2, 0, bs, none, false, none, none, 0⟩ }

/-- Engine 0 rebuilds. -/
def rebuilding (s : State) : State := setEngine s 0 { engine s 0 with rebuild := some ⟨0, ⟨1, 0, 5, 5, false, 0⟩, 0, 0, 0, false⟩ }

/-- R191: the worked words read as their source lines say, and are what the encoder gives. -/
theorem test_words :
    nyDecode 0x2C03FFFD#32 = ⟨.skip, 0, 0, .imm 0x1FFFD⟩ ∧ nyDecode 0x3E420101#32 = ⟨.pdec, 9, 0, .imm 0x00101⟩
      ∧ nyDecode 0x8AC207D0#32 = ⟨.ldi, 11, 0, .imm 0x007D0⟩ ∧ nyDecode 0xCC240224#32 = ⟨.putf, 0, 9, .reg 0 0x0224⟩
      ∧ nyDecode 0xC02E0403#32 = ⟨.openItem, 0, 11, .imm 0x00403⟩ ∧ nyEncode ⟨.add, 3, 4, .imm 0x1FFFF⟩ = 0x58D3FFFF#32 := by decide

/-- R192: the first and the last opcodes, whatever the other bits are, and the unassigned one. -/
theorem test_opcodes : (nyDecode 0x03FFFFFF#32).op = .nop ∧ (nyDecode 0xFFFFFFFF#32).op = .drop ∧ (nyDecode 0xF8000000#32).op = .unassigned := by
  decide

/-- The opcode table gives no row any bits. -/
theorem test_table_words : decodeTableWord 0 0 = none := rfl

/-- R206: `add w1, w4, #-1` gives 4 with carry, and SUB of W5 from itself sets Z. -/
theorem test_add : gives (.add 0) (ny gyro 14 (asm .add (.imm 0x1FFFF))) (fun t => wreg t 0 1 == 4 && (engine t 0).flags.getLsbD 2) = true := by
  decide +kernel

theorem test_sub_borrow : gives (.sub 0) (ny gyro 14 (asm .sub (.imm 6)))
    (fun t => wreg t 0 1 == 0xFFFFFFFF#32 && (engine t 0).flags.getLsbD 2 && (engine t 0).flags.getLsbD 1) = true := by decide +kernel

/-- R206: MUL overflows: 5 times 0xFFFFFFFF is −5 and does not. -/
theorem test_mul : gives (.mul 0) (ny gyro 14 (nyEncode ⟨.mul, 1, 4, .reg 6 0⟩))
    (fun t => wreg t 0 1 == 0xFFFFFFFB#32 && !(engine t 0).flags.getLsbD 3) = true := by decide +kernel

/-- R197: CALL pushes the address behind it, and RET with an empty stack goes to 32 767. -/
theorem test_call : gives (.call 0) (ny gyro 14 (asm .call (.imm 0x8005))) (fun t => (engine t 0).pc == 5 && (engine t 0).stack == [1]) = true := by
  decide +kernel

theorem test_ret_empty : gives (.ret 0) (ny gyro 14 (asm .ret (.imm 0))) (fun t => (engine t 0).pc == 32767) = true := by decide +kernel

/-- R199: NEXTF at the start of the gyro's sentence takes `HEHDT` behind the `$`. -/
theorem test_nextf : gives (.nextf 0) (ny gyro 14 (asm .nextf (.imm 0)))
    (fun t => wreg t 0 1 == 5 && (engine t 0).cursor == 6 && (engine t 0).fields == [memFresh 0x00010005#32]) = true := by decide +kernel

/-- R201: the checksum 2B of the gyro's sentence is right. -/
theorem test_chk : gives (.chk 0) (ny gyro 14 (asm .chk (.imm 0))) (fun t => wreg t 0 1 == 0x2B && (engine t 0).flags.getLsbD 4) = true := by
  decide +kernel

/-- R203: `12.5` with q 6 is 800. -/
theorem test_pdec : gives (.pdec 0) (withFields (ny [0x31, 0x32, 0x2E, 0x35] 0x1FF (asm .pdec (.imm 0x180))) [(0, 4)])
    (fun t => wreg t 0 1 == 800 && !(engine t 0).flags.getLsbD 6) = true := by decide +kernel

/-- R204: `5957.1234` and `N` are 599 520 567. -/
theorem test_plat : gives (.plat 0)
    (withFields (ny [0x35, 0x39, 0x35, 0x37, 0x2E, 0x31, 0x32, 0x33, 0x34, 0x2C, 0x4E] 0x1FF (asm .plat (.imm 0))) [(0, 9), (10, 1)])
    (fun t => wreg t 0 1 == 599520567) = true := by decide +kernel

/-- R207: the SCALE of the worked example: 800 with M 3 292, S 12 and O 0 gives 643. -/
theorem test_scale : gives (.scale 0)
    (setWreg (memPuts (put (ny gyro 14 (asm .scale (.imm 0))) [(Reg.bankSize 0, 1)]) .prog 1 [3292, 12, 0]) 0 4 800)
    (fun t => wreg t 0 1 == 643) = true := by decide +kernel

/-- R210: the first write of a slot gives it the sequence number 1, and SLOTR reads the sequence number of an empty slot as 0 with BAD. -/
theorem test_slotw : gives (.slotw 0) (ny gyro 14 (asm .slotw (.imm 0))) (fun t => fld (memWord t .slots 95) 31 16 == 1) = true := by
  decide +kernel

theorem test_slotr_empty : gives (.slotr 0) (ny gyro 14 (asm .slotr (.imm 0))) (fun t => wreg t 0 1 == 0 && (engine t 0).flags.getLsbD 6) = true := by
  decide +kernel

/-- R213, R214: PUTC appends to an open item, and sets REF without one. -/
theorem test_putc : gives (.putc 0) (withItem (ny gyro 14 (asm .putc (.imm 0x41))) [0x24])
    (fun t => ((engine t 0).item.map (·.body)) == some [0x24, 0x41]) = true := by decide +kernel

theorem test_putc_ref : gives (.putc 0) (ny gyro 14 (asm .putc (.imm 0x41))) (fun t => (engine t 0).flags.getLsbD 8) = true := by decide +kernel

/-- R212: TIMESET in the follower role is refused with 1. -/
theorem test_timeset : gives (.timeset 0) (put (ny gyro 14 (asm .timeset (.imm 0))) [(Reg.servoStatus, 0)]) (fun t => wreg t 0 1 == 1) = true := by
  decide +kernel

/-- R164: END frees the granules of the record and releases the talker's use. -/
theorem test_end : gives (.endRecord 0) { (ny gyro 14 (asm .endRecord (.imm 0))) with
    herder := { (ny gyro 14 0).herder with runs := [(0, 5)] } } (fun t => t.herder.runs.isEmpty && !engBusy t 0) = true := by decide +kernel

/-! ## Witnesses of the statements about engines -/

/-- A field that is recorded, and its text; and a field that is not. -/
theorem wit_fields : FieldIs (withFields (ny gyro 14 0) [(7, 5)]) 0 0 [0x32, 0x37, 0x34, 0x2E, 0x35] :=
  ⟨memFresh 0x00070005#32, by decide +kernel, by decide +kernel, by decide +kernel⟩

theorem wit_field_none : (engine (withFields (ny gyro 14 0) [(7, 5)]) 0).fields.length ≤ 1 := by decide +kernel

/-- Parsing completes: a value, an empty field, a malformed one, and one that is not recorded, each also where a further field is missing. -/
theorem wit_parsing :
    (let at0 (op : NyOp) (k : BitVec 17) (text : List Byte) (fs : List (Nat × Nat)) : State := withFields (ny text 0x1FF (asm op (.imm k))) fs
    let is (v : Word) (z n bad : Bool) (t : State) : Bool := wreg t 0 1 == v && (engine t 0).flags.getLsbD 0 == z
      && (engine t 0).flags.getLsbD 1 == n && (engine t 0).flags.getLsbD 6 == bad
    gives (.pdec 0) (at0 .pdec 0 [0x2D, 0x35] [(0, 2)]) (is 0xFFFFFFFB false true false)
    && gives (.pdec 0) (at0 .pdec 0 [0x2D, 0x35] [(0, 0)]) (is 0 true false true) && gives (.pdec 0) (at0 .pdec 0 [0x2D] [(0, 1)]) (is 0 false false true)
    && gives (.pdec 0) (at0 .pdec 0 [0x35] []) (is 0 false false true)
    && gives (.plat 0) (at0 .plat 0 (ascii "0000.0001,S") [(0, 9), (10, 1)]) (is 0xFFFFFFEF false true false)
    && gives (.plat 0) (at0 .plat 0 (ascii "0000.0001,S") [(0, 9)]) (is 0 false false true)
    && gives (.plon 0) (at0 .plon 0 (ascii "18000,E") [(0, 5), (6, 1)]) (is 1800000000 false false false)
    && gives (.plon 0) (at0 .plon 0 (ascii "18100,E") [(0, 5), (6, 1)]) (is 0 false false true)
    && gives (.phex 0) (at0 .phex 0 (ascii "fF0A0000") [(0, 8)]) (is 0xFF0A0000 false true false)
    && gives (.phex 0) (at0 .phex 0 (ascii "fF0A00000") [(0, 9)]) (is 0 false false true)
    && gives (.pchr 0) (at0 .pchr 0 (ascii "A") [(0, 1)]) (is 0x41 false false false) && gives (.pchr 0) (at0 .pchr 0 [] [(0, 0)]) (is 0 true false true)
    && gives (.ptime 0) (at0 .ptime 0 (ascii "235960.5") [(0, 8)]) (fun t => is 86400 false false false t && wreg t 0 2 == 500000000)
    && gives (.ptime 0) (at0 .ptime 0 (ascii "240000") [(0, 6)]) (fun t => is 0 false false true t && wreg t 0 2 == 0)
    && gives (.pdate 0) (at0 .pdate 0 (ascii "290270") [(0, 6)]) (is 0 false false true)
    && gives (.pdate 0) (at0 .pdate 0x40 (ascii "29,02,2000") [(0, 2), (3, 2), (6, 4)]) (is 11016 false false false)
    && gives (.pdate 0) (at0 .pdate 0x40 (ascii "29,02,2000") [(0, 2), (3, 2)]) (is 0 false false true)
    && gives (.pdate 0) (at0 .pdate 0x40 (ascii "29,02,2000") [(0, 0), (3, 2)]) (is 0 true false true)) = true := by decide +kernel

/-- R203 to R205: the texts at the ends of their ranges: ties away from zero, the limits of 32 bits, 90 degrees, 60 seconds, the days of
February. -/
theorem test_values :
    (parseDecimal (ascii "0.5") 0 == some (1, false) && parseDecimal (ascii "-.5") 0 == some (-1, false)
    && parseDecimal (ascii "2147483647") 0 == some (2147483647, false) && parseDecimal (ascii "2147483648.") 0 == some (2147483647, true)
    && parseDecimal (ascii "-2147483648") 0 == some (-2147483648, false) && (parseDecimal (ascii "-.") 0).isNone
    && (parseDecimal (ascii "123456789012345678901") 0).isNone
    && parseAngle 2 (ascii "9000") [0x4E] 0x4E 0x53 900000000 == some 900000000 && (parseAngle 2 (ascii "9000.00001") [0x4E] 0x4E 0x53 900000000).isNone
    && (parseAngle 2 (ascii "1260") [0x4E] 0x4E 0x53 900000000).isNone && (parseAngle 2 (ascii "5957.") [0x4E] 0x4E 0x53 900000000).isNone
    && hexVal (ascii "0x") == none && parseTime (ascii "000060.123456789") == some (60, 123456789) && (parseTime (ascii "006000")).isNone
    && parseDate6 (ascii "311269") == some 36524 && parseDate6 (ascii "010170") == some 0
    && [dayNumber 29 2 2000, dayNumber 29 2 2001, dayNumber 31 12 2099] == [some 11016, none, some 47481]) = true := by decide +kernel

/-- NEXTF at the end of the fields, and at a field. -/
theorem wit_nextf :
    ((payload (setEngine (ny gyro 14 0) 0 { engine (ny gyro 14 0) 0 with cursor := 14 }) 0 14 5).headD 0x2A#8 == 0x2A#8
      && (payload (ny gyro 14 0) 0 0 19).headD 0x2A#8 == 0x24#8 && decide (engLen (ny gyro 14 0) 0 = 19)) = true := by decide +kernel

/-- CHK without a star, and on a record that is no sentence. -/
theorem wit_chk : (engStar (ny gyro 0x1FF 0) 0 == 0x1FF && engStar (ny gyro 14 0) 0 == 14 && recType (ny gyro 14 0) (engRec (ny gyro 14 0) 0) == 0
    && engStartOff (ny gyro 14 0) 0 == 0) = true := by decide +kernel

/-- A pool string of two bytes, at the last offsets that its word holds. -/
theorem wit_string : PoolString (memPut (ny gyro 14 0) .prog 0 0xFF626102#32) 0 0 [0x61, 0x62] := by
  refine ⟨by decide +kernel, ?_, ?_⟩
  · intro i h
    have : i = 0 ∨ i = 1 := by simp only [List.length_cons, List.length_nil] at h; omega
    rcases this with rfl | rfl <;> decide +kernel
  · intro i h
    have : i = 0 ∨ i = 1 ∨ i = 2 := by simp only [List.length_cons, List.length_nil] at h; omega
    unfold PoolGood
    rcases this with rfl | rfl | rfl <;> decide +kernel

/-- The pool words of LDI and of SCALE lie at known places and are good. -/
theorem wit_pool : (poolAddrs (ny gyro 14 0) 0 0 0 1 == [0] && (poolAddrs (ny gyro 14 0) 0 131071 0 3).length == 3
    && (poolAddrs (ny gyro 14 0) 0 0 0 3).all (fun p => memGood (memGet (ny gyro 14 0) .prog p))) = true := by decide +kernel

/-- The memories that TLK, RT, LDS, SLOTW, SLOTR, TSA and CLOSE read are good. -/
theorem wit_good : ∀ m a, memGood (memGet State.reset m a) = true := by
  have h : ∀ m, memGood (memDefault m) = true := by
    intro m
    cases m <;> decide +kernel
  intro m a
  have e : memOf State.reset m = [] := by cases m <;> rfl
  unfold memGet
  rw [e]
  exact h m

/-- A slot with sequence number 65 535, and an empty one. -/
theorem wit_slots : (fld (memWord (memPut (ny gyro 14 0) .slots 95 0xFFFF0000#32) .slots 95) 31 16 == 65535
    && fld (memWord (ny gyro 14 0) .slots 95) 31 16 == 0) = true := by decide +kernel

/-- Roles, a lost stamp, and a record whose header is good. -/
theorem wit_time : (isReference (put (ny gyro 14 0) [(Reg.servoStatus, 1)]) && !isReference (put (ny gyro 14 0) [(Reg.servoStatus, 0)])
    && bit (memWord (memPut (ny gyro 14 0) .kennel 0 0x00800000#32) .kennel 0) 23
    && (List.range 9).all (fun k => memGood (memGet (ny gyro 14 0) .kennel k))) = true := by decide +kernel

/-- With an item open and without, in a rebuild run and not. -/
theorem wit_items : ((engine (withItem (ny gyro 14 0) []) 0).item.isSome && (engine (ny gyro 14 0) 0).item.isNone
    && (engine (rebuilding (ny gyro 14 0)) 0).rebuild.isSome && (engine (ny gyro 14 0) 0).rebuild.isNone
    && !portEn up 4 7 && portEn (put up [(Reg.eoCtrl 7, 0x80000000#32)]) 4 7 && decide ((evOut up 7).closing = none)) = true := by decide +kernel

/-- LAUNCH to an output that is enabled, with 15 targets pending and with 16, the target ahead and behind. -/
theorem wit_launch :
    (let s (n : Nat) (clk : Nat) : State :=
      let s := put (ny gyro 14 (asm .launch (.imm 0xF))) [(Reg.eoCtrl 7, 0x80000000#32)]
      setEvOut { s with time := { s.time with clk := clk * 1000000000 * 2 ^ 38 } } 7 { evOut s 7 with queue := List.replicate n ⟨6, 0, 0, 0⟩ }
    runs (s 16 0) 0 (asm .launch (.imm 0xF)) .launch 1 && portEn (s 16 0) 4 7 && (evOut (s 16 0) 7).closing.isNone
    && gives (.launch 0) (s 16 0) (fun t => (engine t 0).flags.getLsbD 8 && total t (Reg.eoCounts 7) 8 == 1)
    && gives (.launch 0) (s 16 6) (fun t => (engine t 0).flags.getLsbD 8 && total t (Reg.eoCounts 7) 24 == 0)
    && gives (.launch 0) (s 15 0) (fun t => !(engine t 0).flags.getLsbD 8 && (evOut t 7).queue.length == 16)
    && gives (.launch 0) (s 15 6) (fun t => !(engine t 0).flags.getLsbD 8 && total t (Reg.eoCounts 7) 24 == 1)) = true := by decide +kernel

/-- A host ring with room for a record, and one without; PANEL asked of a port that can take it and of one that cannot. -/
theorem wit_outside : (hrRoom (put { up with rings := [(2, { Ring.init with size := 6 })] } [(ringOff 2 + 8, 0x80060000#32)]) 0 67
    && !hrRoom up 0 67 && !(panelRequest up 0 0 .bindings none).2
    && (panelRequest { (put up [(Reg.pnCtrl 0, 0x80000010#32)]) with
        panelSet := [(Reg.pnRegion 0 0, memFresh 0x80030000#32)] } 0 0 .bindings none).2
    && gives (.event 0) (ny gyro 14 (asm .event (.imm 0))) (fun t => (engine t 0).flags.getLsbD 8 && total t Reg.progEvtLost 0 == 1)
    && gives (.event 0) (put { ny gyro 14 (asm .event (.imm 0)) with rings := [(2, { Ring.init with size := 6 })] } [(ringOff 2 + 8, 0x80060000#32)])
      (fun t => !(engine t 0).flags.getLsbD 8 && !t.out.isEmpty)) = true := by decide +kernel

/-- A record and a talker whose words are good. -/
theorem wit_ends : ((engine (ny gyro 14 0) 0).recd == some ⟨1, 0, 5, 5, false, 0⟩
    && memGood (memGet (ny gyro 14 0) .talkers 88) && memGood (memGet (ny gyro 14 0) .talkers 90)) = true := by decide +kernel

/-! ## Witnesses of the other statements, with what the commands answer -/

/-- The hub 4 s later. -/
def late : State := at_ up 1000000000

/-- The clock stands at 10 s. -/
def clocked (s : State) : State := { s with time := { s.time with clk := 10 * 1000000000 * 2 ^ 38 } }

/-- Ring r is enabled with 2^k units at address 0, and room in all of them but one. -/
def withRing (s : State) (r k : Nat) : State :=
  put { s with rings := sset Ring.init s.rings r { Ring.init with size := k, phase := true } }
    [(ringOff r + 8, BitVec.ofNat 32 (0x80000000 + k * 65536))]

/-- The answer is this state. -/
def givesState (c : Instr) (s t : State) : Bool := gives c s fun u => decide (u = t)

/-- A step answers a next state that satisfies f. -/
def ticks (s : State) (f : State → Bool) : Bool :=
  match step s with
  | .next t => f t
  | .fault _ => false
  | .refused _ => false

/-- A hub that runs, one that has stopped, one whose TB does not run, and one with a far write queued. -/
theorem wit_clock : (up.pending.isEmpty && tbRuns up && ticking up && !tbRuns State.reset && State.reset.pending.isEmpty && up.bridge.reverse.isEmpty
    && (List.range 128).all (fun p => (serial up p).leash.isEmpty) && (List.range 8).all (fun m => (evOut up m).table == (region up m).newest)
    && ticks up (fun t => t.time.clk == 2 ^ 40 && t.time.tb == 1)
    && (let s := { up with integ := { up.integ with stopped := true } }
        tbRuns s && !ticking s && ticks s fun t => decide (t = { s with time := { s.time with clk := 2 ^ 40, tb := 1 }, vid := t.vid }))
    && (let s := { up with bridge := { up.bridge with reverse := [(16, [1, 2]), (32, [3])] } }
        hostMem s && ticks s fun t => t.bridge.reverse == [(32, [3])] && t.out == [.dmaWrite 16 [1, 2]])) = true := by decide +kernel

theorem wit_time_registers : (bar0Ok up && !regB up (Reg.cmpCtrl 3) 0
    && (let s := put late [(Reg.cmpCtrl 3, 1)]
        reached s (reg s (Reg.cmpSec 3)) (reg s (Reg.cmpNs 3)) (cmpUnit s 3).setTb && ticking s
          && gives (.compareHit 3) s fun t => !regB t (Reg.cmpCtrl 3) 0)
    && (let s := put late [(Reg.cmpCtrl 3, 1), (Reg.cmpPeriod 3, 1)]
        let next := shortAdd (reg s (Reg.cmpSec 3)) (reg s (Reg.cmpNs 3)) 1000
        decide (dNow s next.1 next.2 < 0) && gives (.compareHit 3) s fun t => reg t (Reg.cmpNs 3) == 1000)) = true := by decide +kernel

theorem wit_time_events :
    (powered up && gives .pllLock up (fun t => regB t Reg.timeStatus 0 && t.regions.isEmpty)
    && (let s := put { up with time := TimeCore.init } [(Reg.calCtrl, 0x8A0807D0#32), (Reg.calHits, 5)]
        powered s && !s.time.locked && gives .pllLock s fun t => t.time.locked
          && (region t 7).mode == .dither && (region t 7).target == 5 && (region t 7).ctl == 0x8A0807D0#32)
    && gives .refclkLoss (put up [(Reg.timeStatus, 1)]) (fun t => !regB t Reg.timeStatus 0)
    && (let s := put late [(Reg.servoStatus, 0x03000000)]
        servoState s == 3 && decide (holdTicks s ≤ s.time.tb - s.time.sampleTb) && gives .holdTimeout s fun t => servoState t == 4)
    && (let s := clocked { late with time := { late.time with tod := some ⟨0, ⟨0, 0, 0⟩, none⟩ } }
        decide (((0 : Nat) : Int) + pairWindow s + eiWidth s (regF s Reg.servoStatus 20 16) * 4 * 65536 ≤ now s)
          && gives .pairWindowClose s fun t => t.time.tod.isNone)) = true := by decide +kernel

theorem wit_pairing :
    ([(2, 0), (6, 5), (3, 0), (3, 3000000)].all fun x =>
      let s := put (clocked { late with time := { late.time with tod := some ⟨9, ⟨0, 0, 0⟩, some ⟨⟨(9000000000 + x.2) * 65536, 0, 0⟩, 0⟩⟩ } })
        [(Reg.servoStatus, BitVec.ofNat 32 (x.1 * 2 ^ 24 + 1))]
      ticking s && isReference s && s.integ.arms.isEmpty && servoState s == x.1 && !regB s Reg.timeCtrl 0
        && (x.1 != 3 || decide (x.2 * 65536 ≤ regF s Reg.jumpThr 29 0 * 65536) == decide (x.2 = 0))
        && gives .todPairing s fun t =>
          t.time.tod.isNone && servoState t == (if x.1 = 3 ∧ x.2 ≠ 0 then 5 else 3)) = true := by decide +kernel

theorem wit_detectors : ((put up [(Reg.detEvtMask 0, 2)]) |> fun s => regB s (Reg.detEvtMask 0) 1 && !regB s (Reg.detEvtMask 0) 0
    && !ringRoom s 1 1 && ringRoom (withRing s 1 6) 1 1 && Memory.wf s) = true := by decide +kernel

/-- At the last entry of the ring, where the phase toggles, and before it. -/
theorem wit_ring_entries :
    ([0, 62, 63].all fun n =>
      let s := put (withRing up 0 6) [(ringOff 0 + 16, BitVec.ofNat 32 n)]
      decide (ringTail s 0 + 1 ≤ ringUnits s 0) && decide ((ring s 0).size ≤ 16)
        && (ring (ringWrite s 0 1 [0, 0, 0, 0]) 0).phase == decide (n < 63)) = true := by decide +kernel

/-- The host and its completion ring are enabled, and window 7 is loaded. -/
def submits (ws : List Word) : State :=
  let s := withRing (put up [(Reg.hostCtrl, 1)]) 0 8
  { s with host := { s.host with loaded := [7], cmdBuf := (List.range ws.length).map fun k => (112 + k, ws.getD k 0) } }

theorem wit_windows : (bar0Ok up && refusal up 7 == 5 && refusal (submits [0x40000000]) 7 == 0 && refusal (submits [1, 0x5E5E]) 7 == 0
    && gives (.cmdBufWrite 7 15 [5]) up (fun t => sget 0 t.host.cmdBuf 127 == 5)
    && gives (.cmdBufWrite 7 15 [5, 6]) up (fun t => total t Reg.hostErrors 0 == 1)
    && gives (.cmdAccept 7) (submits [0x40000000]) (fun t => t.host.free == [1, 2] && t.host.cmds.map (·.slot) == [0])
    && gives (.deviceReset 7) (submits [1, 0x5E5E]) (fun t => t.host.resetAt == some 0)) = true := by decide +kernel

/-- R41: the first handle of slot 0x2A is 0x012A, the next 0x022A; 255 is followed by 1. -/
theorem test_handles : ([(0, 0x012A), (1, 0x022A), (255, 0x012A)].all fun x =>
    let s : State := { up with host := { up.host with free := [0x2A], gens := if x.1 = 0 then [] else [(0x2A, x.1)] } }
    (allocate s []).2 == x.2) = true := by decide +kernel

theorem wit_acceptance :
    (refusal up 7 == 5 && refusal (put (submits [0x40000000]) [(Reg.hostCtrl, 0)]) 7 == 4 && refusal (submits [0x7F]) 7 == 2
    && refusal (submits [1, 0]) 7 == 3 && refusal (submits [0x22, 0x1008]) 7 == 3 && refusal (submits [0x12, 5]) 7 == 3
    && refusal (submits [0x30, 0, 1000000000]) 7 == 3 && refusal (submits [0x31, 0, 9]) 7 == 3
    && refusal (put (submits [0x11]) [(Reg.hostStatus, 2)]) 7 == 6
    && refusal ({ submits [0x61] with host := { (submits [0x61]).host with free := [] } }) 7 == 1) = true := by decide +kernel

theorem wit_completion : (ready up 0 [0] && ringRoom (withRing up 0 8) 0 1 && !ringRoom up 0 1
    && gives (.nopCommand 3) (withCmd (withRing up 0 8) [0]) (fun t => t.host.free == [0, 1, 2, 3] && cmdAt t 3 == none)
    && gives (.nopCommand 3) (withCmd up [0]) (fun t => t.host.free == [0, 1, 2] && t.host.held.map (·.handle) == [0x103])
    && (let s := withRing { up with host := { up.host with held := [⟨3, 0x103, 0, 0, 0, 0, 0, false, false, 0⟩] } } 0 8
        alive s && gives .heldCompletionFlush s fun t => t.host.held.isEmpty && t.host.free == [0, 1, 2, 3])) = true := by decide +kernel

theorem wit_ring_commands :
    (bar0Ok up && gives (.ringEnable 0 0x80000000) up (fun t => ringUnits t 0 == 256)
    && gives (.ringHeadWrite 17 0x105) (withRing up 17 8) (fun t => ringHead t 17 == 5)
    && ([false, true].all fun masked =>
      let s := put { (withRing late 0 8) with rings := [(0, { Ring.init with size := 8, unann := 1, firstTb := 0 })] }
        [(ringOff 0 + 8, 0x80080005), (Reg.msixTable 0 3, if masked then 1 else 0)]
      ticking s && (ring s 0).unann == 1 && regF s (ringOff 0 + 8) 7 0 == 5 && s.host.msix && hostMem s && regB s (Reg.msixTable 0 3) 0 == masked
        && gives (.ringModerationTimer 0) s fun t => (ring t 0).unann == 0 && regB t Reg.msixPba 0 == masked && t.out.isEmpty == masked)
    && gives (.msixUnmask 0) (put up [(Reg.msixPba, 1)]) (fun t => t.out.length == 1 && !regB t Reg.msixPba 0)) = true := by decide +kernel

/-- A register with RW and one with W1C bits, an offset without a register, a misaligned one, and one whose read clears. -/
theorem wit_registers :
    (plainReg Reg.monTemp && (regSpec Reg.monTemp).isSome && plainReg 0x7FFF8 == false && plainRead Reg.retrCountA
    && gives (.registerWrite (BitVec.ofNat 19 Reg.monTemp) 0x12345678) up (fun t => reg t Reg.monTemp != 0)
    && gives (.registerWrite 0x70A00#19 7) up (fun t => decide (t = up)) && plainReg 0x70A00 && (regSpec 0x70A00).isNone
    && gives (.registerWrite 0x70901#19 7) up (fun t => total t Reg.hostErrors 0 == 1)
    && gives (.rcRegisterRead (BitVec.ofNat 19 Reg.retrCountA)) (put up [(Reg.retrCountA, 0x00010001)])
      (fun t => reg t Reg.retrCountA == 0 && t.out == [.readReply 0 Reg.retrCountA [1, 0, 1, 0]])
    && !bar0WellFormed false 2 [true, true] && gives (.bar0BadAccess false 2 [true, true]) up (fun t => t.out == [.readReply 0 2 [0xFF, 0xFF]])
    && gives (.bar0BadAccess false 4 [true, true, true, false]) up (fun t => t.out == [.readReply 0 4 [0xFF, 0xFF, 0xFF, 0xFF]])
    && gives (.bar0BadAccess true 4 [true, true, true, false]) up (fun t => t.out.isEmpty && total t Reg.hostErrors 0 == 1)
    && (let s := { up with bridge := { up.bridge with posted := List.replicate 128 ⟨1, 7, 4, 3, 0, 4, 0⟩ } }
        bar0Ok s && postedFull s && !postedFull up && gives (.registerWrite (BitVec.ofNat 19 Reg.monTemp) 0) s fun t => decide (t = s))
    && (let s := { up with panelSet := [(Reg.pnRegion 7 31, memFresh 0x1234#32)] }
        (panelWordAt (Reg.pnRegion 7 31)).isSome && gives (.rcRegisterRead (BitVec.ofNat 19 (Reg.pnRegion 7 31))) s
          fun t => t.out == [.readReply 0 (Reg.pnRegion 7 31) [0x34, 0x12, 0, 0]])) = true := by
  decide +kernel

/-- A good word, a word in error, the statistics block, and the ends of the window. -/
theorem wit_bar2 : (bar0Ok up && memGood (memGet up .kennel 0x7FFFF)
    && gives (.bar2Read 0x1FFFFC 4) up (fun t => t.out == [.readReply 2 0x1FFFFC [0, 0, 0, 0]])
    && (let s : State := { up with kennel := [(5, 1)] }
        !memGood (memGet s .kennel 5) && gives (.bar2Read 20 4) s fun t => total t (Reg.detCount 0) 0 == 1)
    && gives (.bar2Read 0x24FFFC 4) up (fun t => t.out.length == 1)
    && gives (.bar2Write 0xFFFFFC 4) up (fun t => total t Reg.hostErrors 0 == 1)) = true := by decide +kernel

theorem test_bar2_past_end : exec (.bar2Read 0xFFFFFD 4) up = .fault .outsideBar := rfl

/-- The command in slot 3 runs, with a read outstanding that is the flash's or the host's, these bytes held, and these done. -/
def fetching (s : State) (ws : List Word) (f : Fetch) (flash : Bool) (got : List Byte) (done : Nat) : State :=
  { s with host := { s.host with
    cmds := [{ theCmd ws with phase := .running, fetch := some f, flash := flash, got := got, done := done }] } }

/-- The command has completed. -/
def ended (t : State) : Bool := cmdAt t 3 == none

theorem wit_time_commands :
    (let ref := put up [(Reg.servoStatus, 0x02000001)]
    ready up 0x30 [0x30, 1, 999999999] && !isReference up
    && gives (.timeStep 3) (withCmd up [0x30, 1, 999999999]) (fun t => t.time.clk == 1999999999 * 2 ^ 38 && ended t)
    && ready ref 0x30 [0x30] && isReference ref && ready ref 0x32 [0x32]
    && gives (.timeReacquire 3) (withCmd (put up [(Reg.servoStatus, 0x03000001)]) [0x32]) (fun t => servoState t == 6)
    && ready up 0x32 [0x32] && ready up 0x31 [0x31, 1, 10] && gives (.timeRole 3) (withCmd up [0x31, 1, 10]) (fun t => isReference t && servoState t == 2)
    && ready ref 0x31 [0x31, 0x30, 10] && gives (.timeRole 3) (withCmd ref [0x31, 0x30, 10]) (fun t => servoState t == 0)) = true := by
  decide +kernel

/-- Group 7 in one state, the other groups online. -/
def inGroup (n : Nat) : State := { up with pack := { up.pack with groups := if n = 2 then [] else [(7, n)] } }

theorem wit_groups :
    (ready (inGroup 0) 0x23 [0x23, 7] && groupState (inGroup 0) 7 == 0 && ready (inGroup 2) 0x23 [0x23, 7] && groupState (inGroup 2) 7 == 2
    && alive (inGroup 1) && groupState (inGroup 1) 7 == 1 && ready (inGroup 2) 0x24 [0x24, 7] && ready (inGroup 1) 0x24 [0x24, 7]
    && gives (.engineGroupOnline 3) (withCmd (inGroup 0) [0x23, 7]) (fun t => groupState t 7 == 1)
    && [1, 3].all (fun n => givesState (.engineGroupOnline 3) (withCmd (inGroup n) [0x23, 7]) (withCmd (inGroup n) [0x23, 7])
      && givesState (.engineGroupOffline 3) (withCmd (inGroup n) [0x24, 7]) (withCmd (inGroup n) [0x24, 7]))
    && gives (.engineGroupOnline 3) (withCmd (inGroup 2) [0x23, 7]) ended && gives (.engineGroupOffline 3) (withCmd (inGroup 0) [0x24, 7]) ended
    && gives (.groupPowered 7) (inGroup 1) (fun t => groupState t 7 == 2)
    && gives (.engineGroupOffline 3) (withCmd (inGroup 2) [0x24, 7]) (fun t => groupState t 7 == 3)
    && groupState (inGroup 3) 7 == 3 && (List.range 4).all (fun j => !engBusy (inGroup 3) (28 + j))
    && gives (.groupDrained 7) (inGroup 3) (fun t => groupState t 7 == 0)) = true := by decide +kernel

/-- A header of an image of one program word, and its word. -/
def image : List Byte := wordsBytes ([0x4E594D31, 1, 1] ++ List.replicate 13 0)

theorem wit_banks :
    (let idle := setPack up { up.pack with active := 1 }
    let busy := setPack (ny gyro 14 0) { (ny gyro 14 0).pack with active := 1 }
    let swapping := fun s : State => setPack { s with host := { s.host with cmds := [{ theCmd [0x11] with phase := .running }] } }
      { s.pack with swapEnded := some 5 }
    let h (j : Nat) : Word := (bytesWords 16 image).getD j 0
    ready up 0x11 [0x11] && !oldBankBusy idle && oldBankBusy busy && ready (ny gyro 14 0) 0x11 [0x11]
    && gives (.bankSwap 3) (withCmd up [0x11]) (fun t => t.pack.active == 1 && ended t)
    && gives .bankSwapDrained (swapping up) (fun t => t.pack.swapEnded.isNone && ended t)
    && ready up 0x10 [0x10, 0, 0xFC0, 0, 68] && dmaFree up && ready up 0x10 [0x10, 1, 0, 0, 64] && !isWedged up unitFlash
    && gives (.loadProgram 3) (withCmd up [0x10, 0, 0xFF0, 0, 68]) (fun t => t.out == [.dmaRead 3 0xFF0 16])
    && gives (.loadProgram 3) (withCmd up [0x10, 1, 0, 0, 64]) (fun t => t.out == [.flash 0 0 [] 64])
    && !imageBad h 68 && imageBad h 67 && !loadOpen (theCmd [0x10, 0, 0, 0, 68])
    && gives (.dmaReadCompletion 3 (some image)) (fetching up [0x10, 0, 0, 0, 68] ⟨0, 64, 0⟩ false [] 0)
      (fun t => reg t (Reg.bankSize 1) == 1 && memWord t .prog 32768 == 0xFFFFFFFF#32)
    && (let ws : List Word := [0x10, 0, 0, 0, 72, 0, 0, 0, 0, 0, 0, 0, 0, 0, 0, 0] ++ [0x4E594D31, 1, 2] ++ List.replicate 13 0
        loadOpen (theCmd ws) && decide (0 + 1 ≤ fld (loadHead (theCmd ws) 2) 15 0 + fld (loadHead (theCmd ws) 3) 15 0)
          && gives (.dmaReadCompletion 3 (some [1, 2, 3, 4])) (fetching up ws ⟨64, 4, 4⟩ false [] 0)
            fun t => memWord t .prog 32768 == 0x04030201#32 && memGet t .prog 32769 == memGet up .prog 32769)
    && gives (.programRefetchDone (some [7])) { up with pack := { up.pack with refetch := [⟨0, 65535, [], false, false, 0, true⟩] } }
      (fun t => memWord t .prog 65535 == 7 && t.pack.refetch.isEmpty)
    && [(0, 65535), (1, 1023), (2, 16383), (3, 32767)].all (fun x => [false, true].all fun flash =>
      gives (.programRefetchDone none) { up with pack := { up.pack with refetch := [⟨x.1, x.2, [], false, flash, 0, true⟩] } } fun t =>
        t.pack.refetch.isEmpty && total t Reg.hostErrors 16 == (if flash then 0 else 1) && total t (Reg.detCount 4) 0 == 1
          && total t Reg.retrCountC 0 == 1 && memGet t (memOfStore x.1) x.2 == memFresh (if x.1 < 2 then 0xFFFFFFFF else 0)
          && (List.range 8).all fun i => x.1 != 2 || memGet t .lsts (16376 + i) == memFresh 0)) = true := by decide +kernel

theorem wit_tables :
    (ready up 0x12 [0x12, 4, 4095, 2] && ready up 0x12 [0x12, 4, 4095, 1] && decide ((tableSize 4).1 = 4096)
    && gives (.tableWrite 3) (withCmd up [0x12, 4, 4095, 1, 0xFE0, 0]) (fun t => t.out == [.dmaRead 3 0xFE0 32])
    && gives (.dmaReadCompletion 3 (some (List.replicate 64 5))) (fetching up [0x12, 4, 4095, 1] ⟨0, 64, 0⟩ false [] 0)
      (fun t => ended t && memWord t .slots 65535 == 0x05050505#32 && memWord t .slots 65519 == 0)
    && gives (.dmaReadCompletion 3 none) (fetching up [0x12, 4, 4095, 1] ⟨8, 64, 0⟩ false [] 0)
      (fun t => ended t && reg t Reg.dmaFaultAddrLo == 8)
    && ready up 0x13 [0x13, 3, 4096, 1] && ready up 0x13 [0x13, 3, 4095, 1] && hostMem up
    && (List.range 16).all (fun j => memGood (memGet up (tableMem 3) (16 * 4095 + j)))
    && gives (.tableRead 3) (withCmd up [0x13, 3, 4095, 1]) (fun t => ended t && !t.out.isEmpty)
    && ready up 0x25 [0x25, 3, 1023, 24576] && gives (.quotaSet 3) (withCmd up [0x25, 3, 1023, 24576]) (fun t => reg t (Reg.lqQuota 1023) == 24576)
    && (let s := memPuts up .talkers 65520 [0, 0, 0, 0x80000000]
        talkerValid s 4095 && memGood (memGet s .talkers 65523) && ready s 0x25 [0x25, 0, 4095, 9]
          && gives (.quotaSet 3) (withCmd s [0x25, 0, 4095, 9]) fun t => talkW t 4095 4 == 9)
    && ready up 0x25 [0x25, 3, 1024, 0] && ready up 0x25 [0x25, 3, 0, 24577] && ready up 0x25 [0x25, 2, 4096, 0]) = true := by decide +kernel

theorem wit_flash :
    (let stuck := { up with integ := { up.integ with wedged := [unitFlash] } }
    isWedged stuck unitFlash && [0x80, 0x81, 0x82].all (fun op => ready stuck op [BitVec.ofNat 32 op]
      && ready up op [BitVec.ofNat 32 op, 0, 0, 0, 4096]) && !isWedged up unitFlash && dmaFree up
    && gives (.flashRead 3) (withCmd up [0x80, 0, 0, 0xFFC, 8]) (fun t => t.out == [.flash 0 0xFFC [] 4])
    && gives (.flashWrite 3) (withCmd up [0x81, 0xFFC, 0, 0, 8]) (fun t => t.out == [.dmaRead 3 0xFFC 4])
    && gives (.flashErase 3) (withCmd up [0x82, 0, 0, 4096, 4096]) (fun t => t.out == [.flash 2 4096 [] 4096])
    && (let s := { up with host := { up.host with flashSize := some 8192 } }
        gives (.flashErase 3) (withCmd s [0x82, 0, 0, 4096, 4096]) (fun t => t.out == [.flash 2 4096 [] 4096])
          && gives (.flashErase 3) (withCmd s [0x82, 0, 0, 4096, 8192]) fun t => t.out.isEmpty && t.host.held.map (·.status) == [stBadParam])
    && gives (.flashOperationEnd 3 false []) (fetching up [0x80, 0, 0, 0, 4] ⟨0, 4, 0⟩ true [] 0) ended
    && gives (.flashOperationEnd 3 true [1, 2, 3, 4]) (fetching up [0x80, 0, 0, 0, 4] ⟨0, 4, 0⟩ true [] 0) (fun t => ended t && !t.out.isEmpty)
    && gives (.flashOperationEnd 3 true []) (fetching up [0x81, 0, 0, 0, 4] ⟨0, 4, 0⟩ true [1, 2, 3, 4] 0) (fun t => t.out == [.flash 0 0 [] 4])
    && gives (.flashOperationEnd 3 true [1, 2, 3, 5]) (fetching up [0x81, 0, 0, 0, 4] ⟨0, 4, 1⟩ true [1, 2, 3, 4] 0) ended
    && gives (.flashOperationEnd 3 true []) (fetching up [0x82, 0, 0, 0, 4096] ⟨0, 4096, 0⟩ true [] 0) ended
    && gives (.flashOperationEnd 3 true []) (fetching up [0x82, 0, 0, 0, 8192] ⟨0, 4096, 4096⟩ true [] 0)
      (fun t => t.out == [.flash 2 4096 [] 4096])) = true := by decide +kernel

theorem wit_arms :
    (let armed := fun s : State => { s with integ := { s.integ with arms := [(15, some ⟨0x13, 3, 5, 5, 0xFFFF, false, 0⟩)] } }
    armBad up 0x7F 1 0 0xFFFF false && !armBad up 0x13 3 5 0x7F false && armBad up 0x13 3 5 0x80 false && !armBad up 0x13 0 0 0xFFFF false
    && ready up 3 [3, 0x7F, 0, 0xFFFF] && ready up 3 [3, 0x313, 5, 0x7F]
    && gives (.injectArm 3) (withCmd up [3, 0x313, 5, 0x7F]) (fun t => ended t && (sget none t.integ.arms 0).isSome)
    && (armOf (armed up) 0x13).isSome && ready (armed up) 3 [3, 0x13, 0, 0xFFFF]
    && gives (.injectArm 3) (withCmd (armed up) [3, 0x13, 0, 0xFFFF]) (fun t => ended t && (armOf t 0x13).isNone)
    && gives (.injectionDurationEnd 0x13) (armed late) (fun t => (armOf t 0x13).isNone)
    && ready up 2 [2, 0, 0, 64] && gives (.statsSnapshot 3) (withCmd up [2, 0, 0, 64]) ended
    && ready up 0x34 [0x34, 7, 0, 0, 64] && gives (.calSnapshot 3) (withCmd up [0x34, 7, 0, 0, 64]) ended
    && ready up 0x33 [0x33, 0] && ready up 0x33 [0x33, 0x81]
    && gives (.calRun 3) (withCmd up [0x33, 0x81]) (fun t => (region t 7).mode == .forced && (region t 6).mode == .collect)) = true := by
  decide +kernel

/-- A port is enabled. -/
def enabled (s : State) (cls n : Nat) : State := put s [(portCtrl cls n, reg s (portCtrl cls n) ||| 0x80000000#32)]

theorem wit_ports :
    (let stuck := { up with integ := { up.integ with wedged := [unitOf 0 127] } }
    let words (cls n : Nat) (ws : List Word) : List Word := [0x20, BitVec.ofNat 32 (cls * 4096 + n)] ++ ws
    isWedged stuck (unitOf 0 127) && ready stuck 0x20 (words 0 127 []) && ready stuck 0x21 [0x21, 127]
    && ready up 0x20 (words 0 127 []) && serialBad (fun i => (words 0 127 []).getD i 0)
    && !serialBad (fun i => (words 0 127 [0x20000000, 3, 24576, 0, 0, 0, 0x00130011]).getD i 0)
    && gives (.portSet 3) (withCmd up (words 0 127 [0x20000000, 3, 24576, 0, 0, 0, 0x00130011]))
      (fun t => ended t && reg t (Reg.spDiv 127) == 24576 && reg t (Reg.spCtrl 127) == 0x20000000#32)
    && gives (.portSet 3) (withCmd up (words 3 31 [0x08000000, 5, 7])) (fun t => ended t && reg t (Reg.eiHold 31) == 7)
    && gives (.portSet 3) (withCmd up (words 4 7 [0x10000000, 5])) (fun t => ended t && reg t (Reg.eoWidth 7) == 5)
    && gives (.portSet 3) (withCmd (enabled up 5 7) (words 5 7 [1])) (fun t => (panel t 7).pendSet.isSome)
    && gives (.portEnable 3) (withCmd up [0x21, 127]) (fun t => ended t && portEn t 0 127)
    && [0x20, 0x21, 0x22].all (fun op => gives (if op = 0x20 then .portSet 3 else if op = 0x21 then .portEnable 3 else .portDisable 3)
      (withCmd stuck [BitVec.ofNat 32 op, 127]) fun t => t.host.held.map (·.status) == [stWedged])
    && [up, enabled up 1 7].all (fun s => gives (.portEnable 3)
      (withCmd (setCan s 7 { can s 7 with tec := 5, recv := 6, claims := [(1, 2, 3)] }) [0x21, 0x1007])
      fun t => ended t && (can t 7).tec == 0 && (can t 7).recv == 0 && (can t 7).claims.isEmpty && (can t 7).mode == .integrating)
    && [(0, 127), (1, 7), (2, 3), (3, 31), (4, 7)].all (fun x => gives (.portDisable 3)
      (withCmd (enabled up x.1 x.2) [0x22, BitVec.ofNat 32 (x.1 * 4096 + x.2)]) fun t => ended t && !portEn t x.1 x.2)
    && gives (.portDisable 3) (withCmd (enabled up 5 7) [0x22, 0x5007]) (fun t => (panel t 7).closing == some (some 3))) = true := by
  decide +kernel

/-- The CAN_SEND of slot 4 is pending on CAN port 0. -/
def pendingFrame (s : State) (attempt : Attempt) : State :=
  let s := enabled s 1 0
  let s := { s with host := { s.host with cmds := [{ theCmd [0x60, 0x1000] with slot := 4, phase := .opened }] } }
  setCan s 0 { can s 0 with mode := .active, sends := [⟨4, dataFrame 5 false false false [], none, false, 0, 0, false⟩], attempt := attempt }

/-- The command in slot 3 stands beside the others. -/
def alsoCmd (s : State) (ws : List Word) : State := { s with host := { s.host with cmds := s.host.cmds ++ [theCmd ws] } }

/-- Ethernet port 3 is enabled and its link is up. -/
def linked : State :=
  let s := enabled late 2 3
  setEth s 3 { eth s 3 with link := true }

theorem wit_frames :
    (let f : LaunchFrame := ⟨4, 0, List.replicate 60 0, none, false, 0, false, 0⟩
    ready up 0x60 [0x60, 7] && gives (.canSend 3) (withCmd (enabled up 1 7) [0x60, 0x1007, 5, 1, 0, 0, 0, 0, 0x55])
      (fun t => (can t 7).sends.map (·.frame.data) == [[0x55]])
    && (cmdOfHandle up 0x104).isNone && ready up 0x61 [0x61, 0x104]
    && gives (.canCancel 3) (alsoCmd (pendingFrame up .none) [0x61, 0x104]) (fun t => ended t && (can t 0).sends.isEmpty && cmdAt t 4 == none)
    && gives (.canCancel 3) (alsoCmd (pendingFrame up (.send 4)) [0x61, 0x104]) (fun t => ended t && (can t 0).sends.all (·.lateCancel))
    && ready up 0x70 [0x70, 3] && gives (.ethLaunch 3) (withCmd (enabled up 2 3) [0x70, 3, 0, 0, 60]) ended
    && gives (.ethLaunch 3) (withCmd linked [0x70, 3, 0, 0, 60]) (fun t => t.out == [.dmaRead 3 0 60])
    && gives (.ethLaunch 3) (withCmd { linked with integ := { linked.integ with wedged := [unitOf 2 3] } } [0x70, 3, 0, 0, 60])
      (fun t => t.host.held.map (·.status) == [stWedged])
    && gives (.ethLaunch 3) (withCmd (enabled up 2 3) [0x70, 3, 0, 0, 60]) (fun t => t.host.held.map (·.status) == [stLinkFailed])
    && gives (.ethLaunch 3) (withCmd up [0x70, 3, 0, 0, 60]) (fun t => t.host.held.map (·.status) == [stDiscarded])
    && (let busy := fun n q => withCmd (setEth linked 3 { eth linked 3 with launches := List.replicate n { f with queue := q } }) [0x70, 0x703, 0, 0, 60]
        givesState (.ethLaunch 3) (busy 32 7) (busy 32 7) && gives (.ethLaunch 3) (busy 31 7) (fun t => t.out.length == 1)
          && gives (.ethLaunch 3) (busy 32 6) fun t => t.out.length == 1)
    && (let s := setEth linked 3 { eth linked 3 with launches := [f] }
        ethIdle s 3 && gives (.ethFrameStart 3) s fun t => (eth t 3).tx.isSome && (eth t 3).launches.isEmpty)
    && gives (.ethFrameDeparted 3) (setEth linked 3 { eth linked 3 with tx := some (.launch f, f.bytes, ⟨0, 0, 0⟩), endTb := 7 })
      (fun t => (eth t 3).tx.isNone && total t (Reg.ethTxFrames 3) 0 == 1
        && t.out.head? == some (.ethFrame 3 (f.bytes ++ natLe 4 (crc32 f.bytes).toNat)))) = true := by decide +kernel

/-- A copy of listener 5 for endpoint word w0. -/
def aCopy (w0 : Word) : Copy :=
  { listener := 5, arrival := 9, w0 := w0, w1 := 0, src := [], prio := 0, deadline := none, setTb := 0, launch := none, released := false,
    len := 2, body := [], notag := true, can := none, stamp := ⟨0, 0, 0⟩, stampLost := false, inj := false, gran := 0, granules := 3, missed := false,
    rebuilding := false, srcSeq := 0, srcGran := 0, srcCount := 0, srcTalker := 0, ordinal := 0, bank := 0, bankLoads := 0 }

/-- These copies wait, with the bytes `AB` in their run of the pool. -/
def holding (s : State) (cs : List Copy) : State := memPut { s with lq := { s.lq with copies := cs } } .pool 8 0x4241#32

/-- Is this copy the choice of the scheduler? -/
def choice (s : State) (kind num lead : Nat) : Bool :=
  match bestCand s (candidates s kind num none lead []) with
  | some (.copy c) => c.arrival == 9
  | _ => false

theorem wit_listeners :
    (let ringed := holding (withRing late 17 6) [aCopy 0x4000000F]
    let timed := fun w0 => holding late [{ aCopy w0 with deadline := some (0, 0) }]
    let slotted := memPut (put late [(Reg.lstEnabled 0, 32)]) .slots 79 0x00010000#32
    let drain := memPuts slotted .lsts (lstAddr 0 5 0) [0x58000000#32, 0, 0x00040001#32, 0]
    gives (.listenerEnable 31 0x80000000) up (fun t => lstEnabled t 1023)
    && gives (.listenerDisable 0 32) ringed (fun t => t.lq.copies.isEmpty)
    && choice ringed 4 15 0 && hrRoom ringed 15 18
    && gives (.endpointStartCopy (.hostRing 15)) ringed (fun t => t.lq.copies.isEmpty
      && decide (t = hrWrite (count (dropCopy ringed 9) (Reg.lqSent 5) 31 0 1) 15 1 5 false (itemPayload { aCopy 0x4000000F with body := [0x41, 0x42] })))
    && (List.range 9).all (fun i => memGood (memGet ringed .pool i)) && poolBody ringed (aCopy 0x4000000F) == [0x41, 0x42]
    && (let s := holding (withRing late 17 6) [{ aCopy 0x4000000F with deadline := some (0, 0) }]
        (startCopy s (.hostRing 15)).lq.copies.isEmpty && givesState (.deadlineMiss 9) s (startCopy s (.hostRing 15)))
    && (let s := holding late [{ aCopy 0x10000000 with deadline := some (9, 0) }]
        !reached s 9 0 0 && givesState (.deadlineMiss 9) s s)
    && gives (.deadlineMiss 9) (timed 0x10000000) (fun t => t.lq.copies.isEmpty)
    && gives (.deadlineMiss 9) (timed 0x14000000) (fun t => total t (Reg.lqLate 5) 0 == 1)
    && reached late 0 0 0 && !reached late 0 1 0
    && lstKind 0x58000000 == 5
    && (List.range 4).all (fun i => memGood (memGet drain .lsts (lstAddr 0 5 i)))
    && fld (memWord drain .slots 79) 31 16 == 1 && drainTicks (drainMs drain % 2 ^ 32) 1 0
    && (let s := put (enabled (memPuts slotted .lsts (lstAddr 0 5 0) [0x18000000#32, 0, 0x00040001#32, 0]) 0 0) [(Reg.spDiv 0, 24576)]
        lstDrain 0x18000000 && epOpen s 1 0 && lstEnabled s 5 && gives (.drainTick 5) s fun t =>
          t.lq.drains.map (fun d => (d.listener, d.w0, d.arrival)) == [(5, 0x18000000, 0)])) = true := by
  decide +kernel

/-- Talker 5 is valid, with a bucket of 10 that refills, a ply bucket and USE 0; engine 0 holds no record, the record of the gyro waits. -/
def waiting : State :=
  let s := memPuts (ny gyro 14 0) .talkers 80 [0, 0, 0, 0x80000001#32, 0x0100000A#32, 0x0100000A#32, 50, 0, 0, 0, 0]
  let r : Rec := ⟨1, 0, 5, 5, false, 0⟩
  let s := { s with pack := { s.pack with engines := [] }, herder := { s.herder with waiting := [r], runs := [(0, 5)] } }
  at_ (memPut s .routes 4 0x00000040#32) 1000000000

theorem wit_intake :
    (let e := at_ (ny gyro 14 0) 1000000000
    ticking waiting && waiting.integ.arms.isEmpty && decide (waiting.herder.refillMs < drainMs waiting) && Memory.wf waiting
    && validTalkers waiting == [5] && [3, 4, 5, 8, 9, 10].all (fun w => memGood (memGet waiting .talkers (80 + w)))
    && gives .bucketRefill waiting (fun t => talkW t 5 9 == 256 && talkW t 5 10 == 160)
    && decide (waiting.herder.sweepS < drainMs waiting / 1000) && gives .talkerSweep waiting (fun t => !talkerValid t 5)
    && waiting.pack.refetch.isEmpty && waiting.pack.passes.isEmpty && !bootBusy waiting && freeEngine waiting == some 0
    && waiting.herder.rebuilds.isEmpty && (nextHead waiting (readyHeads waiting)).isSome
    && [0, 1, 2, 9, 10, 11].all (fun i => memGood (memGet waiting .kennel i)) && routeIndex waiting ⟨1, 0, 5, 5, false, 0⟩ == 4
    && gives .dispatch waiting (fun t => engBusy t 0 && (engine t 0).pc == 64)
    && (engine e 0).recd.isSome && decide (houndLimit e (engine e 0) < wallTicks e (engine e 0)) &&
      gives (.engineHoundTrip 0) e (fun t => (engine t 0).wedged)
    && decide (wallTicks (ny gyro 14 0) (engine (ny gyro 14 0) 0) ≤ houndLimit (ny gyro 14 0) (engine (ny gyro 14 0) 0))
    && !isWedged up (crossUnit (.serial 127)) && !crossAbsent up (.serial 127)
    && gives (.crossingHoundTrip ⟨.serial 127, 16384⟩ false false) (at_ up 16384) (fun t => isWedged t (crossUnit (.serial 127)))
    && [.serial 127, .watch 127, .panel 7].all (fun x =>
      let n := crossLimit up x / 4000
      givesState (.crossingHoundTrip ⟨x, 0⟩ false false) up up && givesState (.crossingHoundTrip ⟨x, n⟩ false false) (at_ up (n + 1)) (at_ up (n + 1))
        && gives (.crossingHoundTrip ⟨x, n + 1⟩ false false) (at_ up (n + 1)) fun t => isWedged t (crossUnit x)
          && t.integ.wedges.length == 1)) = true := by
  decide +kernel

/-- Serial port 127 is enabled in a mode, at 4 800 bit/s with 8 data bits. -/
def port (mode : Nat) : State :=
  put late [(Reg.spCtrl 127, BitVec.ofNat 32 (2 ^ 31 + mode * 2 ^ 29)), (Reg.spDiv 127, 24576), (Reg.spFormat 127, 3)]

/-- Port 127 changed. -/
def portWith (s : State) (f : SerialPort → SerialPort) : State := setSerial s 127 (f (serial s 127))

theorem wit_serial_in :
    (bar0Ok (port 0) && rxOn (port 0) 127 && rxHunts (port 0) 127 && !leashObey (port 0) 127 && spMode (port 2) 127 == 2
    && gives (.spStatusRead 127) (port 0) (fun t => t.out.length == 1) && gives (.spDataRead 127) (port 2) (fun t => t.out.length == 1)
    && gives (.spDataRead 127) (portWith (port 2) fun v => { v with fifo := [⟨0x41, false, false⟩] }) (fun t => (serial t 127).fifo.isEmpty)
    && gives (.serialCharacter 127 0x24 false true 0) (port 0) (fun t => regB t (Reg.spStatus 127) 31)
    && gives (.serialCharacter 127 0x24 true false 0) (put (port 0) [(Reg.spFormat 127, 7)]) (fun t => regB t (Reg.spStatus 127) 30)
    && gives (.serialCharacter 127 0x24 false false 0) (port 0) (fun t => (serial t 127).framer == .sentence)
    && gives (.serialCharacter 127 0x41 false false 0) (portWith (port 2) fun v => { v with fifo := List.replicate 63 ⟨0, false, false⟩ })
      (fun t => (serial t 127).fifo.length == 64)
    && gives (.serialCharacter 127 0x41 false false 0) (portWith (port 2) fun v => { v with fifo := List.replicate 64 ⟨0, false, false⟩ })
      (fun t => (serial t 127).fifo.length == 64 && total t (Reg.detCount 0x12) 0 == 1)) = true := by decide +kernel

/-- A sentence that is taken and one that is not, and what stands on the line. -/
theorem wit_sentences :
    (let bad : List Byte := [0x24, 0x41, 0x2A, 0x30, 0x30]
    let low := portWith (put (port 0) [(Reg.spHold 127, 4000)]) fun v => { v with low := some (0, none) }
    let raw := portWith (port 2) fun v => { v with text := [0x41], first := some ⟨0, 0, 0⟩, last := some ⟨0, 0, 0⟩ }
    (sumPolicy 0 (judgeText gyro).verdict).isSome && (sumPolicy 0 (judgeText (bad ++ [0x0A])).verdict).isNone && !tdcOverdue (port 0) 127
    && gives (.serialCharacter 127 0x0A false false 0) (portWith (port 0) fun v => { v with framer := .sentence, text := bad })
      (fun t => (serial t 127).framer == .hunt && total t (Reg.spRxErr 127) 0 == 1)
    && (serial (port 0) 127).first.isNone
    && gives (.serialFalseStart 127 0) (port 0) (fun t => (serial t 127).idleTb == t.time.tb)
    && gives (.leashTimeout 127) (put (portWith (port 0) fun v => { v with xoffTb := some 0 }) [(Reg.spLeashTimeout 127, 4000)])
      (fun t => (serial t 127).xoffTb.isNone)
    && rxOn raw 127 && decide ((serial raw 127).idleTb ≤ raw.time.tb)
    && decide (charsTicks raw 127 (max 1 (regF raw (Reg.spCtrl 127) 15 8)) ≤ raw.time.tb - (serial raw 127).idleTb)
    && ticking low && portEn low 0 127 && !isWedged low (unitSerial 127) && !regB low (Reg.spStatus 127) 14 && decide (charsTicks low 127 2 ≤ low.time.tb)
    && gives (.lineHeld 127) low (fun t => regB t (Reg.spStatus 127) 15)
    && gives (.lineRelease 127) low (fun t => (serial t 127).low.isNone)
    && [low, portWith (put (port 0) [(Reg.spHold 127, 4000)]) fun v => { v with needIdle := true, text := [0x41] }].all (fun s =>
      (lowLevel s 127).isSome && !regB s (Reg.spStatus 127) 14 && !regB s (Reg.spStatus 127) 15 && decide (charsTicks s 127 2 ≤ s.time.tb)
        && gives (.lineHeld 127) s (fun t => regB t (Reg.spStatus 127) 15 && total t (Reg.detCount 0x13) 0 == 1)
        && gives (.lineRelease 127) s (fun t => (serial t 127).needIdle && (serial t 127).idleTb == t.time.tb)
        && (let h := put s [(Reg.spStatus 127, 0x8000)]
            givesState (.lineBreak 127) h h))) = true := by decide +kernel

/-- The bytes of an item for port 127. -/
def txOf : TxItem := txItem { aCopy 0x1000007F with body := [0x41, 0x42] } false

/-- The item on the wire, which ends at a time. -/
def txRun (at_ : Int) : TxRun := ⟨txOf, [0x41, 0x42], ⟨0, 0, 0⟩, 0, 0, 2, at_, none⟩

theorem wit_serial_out :
    (let s := holding (port 0) [aCopy 0x1000007F]
    let staged := portWith (port 0) fun v => { v with staged := some txOf, freeAt := tbTime (port 0) - 3 }
    let half := portWith (port 1) fun v => { v with staged := some txOf, freeAt := tbTime (port 0) - 3 }
    let asked := fun f => portWith { port 0 with host := { (port 0).host with cmds := [{ theCmd [0x20, 127] with phase := .running }] } } f
    gives (.serialSettingsApply 127 false) (asked fun v => { v with setTx := some (3, tbTime (port 0), 0) })
      (fun t => (serial t 127).setTx.isNone && ended t)
    && gives (.serialSettingsApply 127 false) (asked fun v => { v with setTx := some (3, 0, 0), setRx := some (3, 9) })
      (fun t => (serial t 127).setTx.isNone && !ended t)
    && gives (.serialSettingsApply 127 true) (asked fun v => { v with setRx := some (3, late.time.tb) }) (fun t => (serial t 127).setRx.isNone && ended t)
    && (let s := asked fun v => { v with setRx := some (3, late.time.tb + 1) }
        givesState (.serialSettingsApply 127 true) s s)
    && (List.range 9).all (fun i => memGood (memGet s .pool i)) && txFree s 127 && choice s 1 127 256 && !stageLate s (aCopy 0x1000007F)
    && !s.lq.copies.any (fun c => c.launch.isSome)
    && (let l := holding (port 0) [{ aCopy 0x1000007F with launch := some (0, 100) }]
        choice l 1 127 256 && l.lq.copies.any (fun c => boundTo c.w0 1 127 none && c.launch.isSome && copyReady l 256 c)
          && gives (.serialItemStage 127) l fun t => (serial t 127).staged == some (txItem
            { aCopy 0x1000007F with body := [0x41, 0x42], launch := some (0, 100) } (stageLate l { aCopy 0x1000007F with launch := some (0, 100) }))
            && t.lq.copies.isEmpty)
    && owns staged (epSerial 127) && decide ((serial staged 127).freeAt ≤ tbTime staged) && txOf.launch.isNone && txOf.tag.isNone
    && [(staged, 0x42), (put staged [(Reg.spFormat 127, 0)], 0x02)].all (fun x => gives (.serialItemStart 127) x.1 fun t =>
      t.out.length == 1 && ((serial t 127).run.map fun r => r.bytes) == some [x.2 - 1, x.2]
        && (serial t 127).run.any fun r => r.endAt == r.startAt + ((charsTime x.1 127 2 : Nat) : Int) && decide (tbTime x.1 - 1639 ≤ r.startAt)
          && decide (r.startAt < tbTime x.1 + 557195) && (r.startAt * 5 + 4) / 16384 * 16384 / 5 == r.startAt)
    && gives (.serialItemEnd 127) (portWith (port 0) fun v => { v with run := some (txRun 5) })
      (fun t => (serial t 127).run.isNone && (serial t 127).freeAt == 5 && total t (Reg.spTxCount 127) 0 == 1)
    && epOpen half 1 127 && gapOver half 127 0 0 && gives (.halfDuplexAttempt 127) half (fun t => (serial t 127).run.isSome)
    && [6, 7].all (fun n => gives (.collision 127) (portWith (port 1) fun v => { v with run := some (txRun 5), attempts := n })
      fun t => (serial t 127).run.isNone && (serial t 127).staged.isSome == (n == 6) && t.out.head? == some (.serialStop 127))) = true := by
  decide +kernel

/-- Event input 31 is enabled, with records to the Kennel. -/
def input (f : EvIn → EvIn) : State :=
  let s := put late [(Reg.eiCtrl 31, 0x84000000#32), (Reg.eiHold 31, 4000)]
  setEvIn s 31 (f (evIn s 31))

theorem wit_event_in :
    (let e : Edge := ⟨7 * 65536, 0, 0⟩
    let r : EvRec := ⟨List.replicate 8 0, e, e, true, false, none, false⟩
    eiOn (input id) 31 && eiRoute (input id) 31 == 1 && !tdcOverdue (input id) 159 &&
      gives (.eiEdge 31 true 0) (input id) (fun t => (evIn t 31).cand.isSome)
    && gives (.eiEdge 31 false 0) (input id) (fun t => decide (t = input id))
    && (let s := input fun v => { v with ball := true, cand := some (0, some e) }
        decide (eiWidthUnits s 31 ≤ tbTime s) && ppsInput s != some 31 && eiActive s 31 true
          && gives (.eiLevelAccepted 31) s fun t => (evIn t 31).level && (evIn t 31).fifo.map (·.edge) == [e])
    && (let s := input fun v => { v with burst := some ⟨some e, none, 0, 0, 0, 0, 0, false⟩ }
        eiRoom s 31 && gives (.burstClose 31) s fun t => (evIn t 31).burst.isNone && total t (Reg.detCount 0x39) 0 == 1)
    && gives (.eiHeld 31) (input fun v => { v with activeTb := some 0, activeEdge := some e }) (fun t => (evIn t 31).held)
    && gives (.eiFifoDrain 31) (input fun v => { v with fifo := [r] }) (fun t => (evIn t 31).fifo.isEmpty)) = true := by decide +kernel

/-- Event output 7 is enabled. -/
def output (f : EvOut → EvOut) : State :=
  let s := clocked (put late [(Reg.eoCtrl 7, 0x80000000#32)])
  setEvOut s 7 (f (evOut s 7))

theorem wit_event_out :
    (let far : EvOut → EvOut := fun o => { o with heldSec := 10, heldNs := 16 }
    let full : EvOut → EvOut := fun o => { far o with queue := List.replicate 16 ⟨11, 0, 0, 0⟩ }
    let g : EoTarget := ⟨10, 4, 0, 0⟩
    let due := setTime (output fun o => { o with queue := [g] }) { (output id).time with clk := 10 * 1000000000 * 2 ^ 38 + 2 ^ 40 }
    bar0Ok (output id) && eoAhead (output id) ⟨10, 16, 0, 0⟩ == 16 * 65536 && eoAhead (output id) ⟨10, 15, 65535, 0⟩ == 16 * 65536 - 1
    && gives (.eoPulseQueue 7 0) (output far) (fun t => (evOut t 7).queue.length == 1)
    && gives (.eoPulseQueue 7 0) (output full) (fun t => total t (Reg.eoCounts 7) 8 == 1)
    && gives (.eoPulseQueue 7 65535) (output fun o => { o with heldSec := 10, heldNs := 15 }) (fun t => total t (Reg.eoCounts 7) 24 == 1)
    && owns due (epOut 7) && eoDue due 7 g && (evOut due 7).queue == [g] && (eoCmpTarget due 7).isNone
    && gives (.eoPulse 7) due (fun t => (evOut t 7).queue.isEmpty && (evOut t 7).active.map (·.high) == [true] && t.out.length == 1)
    && gives (.eoPulseEnd 7) (output fun o => { o with active := [⟨0, 5, true, 40, 3⟩] })
      (fun t => (evOut t 7).trailAt == some 5 && t.out == [.pulseTrail 7 false 100])
    && gives (.eoPulseEnd 7) (output fun o => { o with active := [⟨0, 5, true, 40, 3⟩], closing := some (3, 0) })
      (fun t => !regB t (Reg.eoCtrl 7) 31)
    && gives (.eoPulseEnd 7) (output fun o => { o with active := [⟨0, 5, true, 40, 3⟩, ⟨9, 12, true, 400, 3⟩], closing := some (3, 0) })
      (fun t => regB t (Reg.eoCtrl 7) 31 && (evOut t 7).active.length == 1)
    && eoBall (output id) 7 == .low && eoBall (put (output id) [(Reg.eoCtrl 7, 0xC0000000#32)]) 7 == .high
    && eoBall (put (output id) [(Reg.eoCtrl 7, 0)]) 7 == .highZ
      && eoBall (output fun o => { o with active := [⟨0, tbTime late + 1, true, 40, 3⟩] }) 7 == .high
    && eoBall { put (output id) [(Reg.pairCtrl, 0x80000003#32)] with pair := Pair.init } 7 == .highZ) = true := by decide +kernel

/-- Region 7 with these hits spread evenly over 170 taps, in a mode. -/
def accumulated (n : Nat) (mode : CalMode) : State :=
  setRegion late 7 { region late 7 with hist := (List.range 128).map fun k => (k, n), hits := 128 * n, live := 128 * n, mode := mode }

theorem wit_calibration :
    (let whole := accumulated 512 .collect
    let missed := setRegion whole 7 { region whole 7 with hist := (region whole 7).hist ++ [(255, 1)] }
    let r := region whole 7
    calInterval (region (accumulated 1 .collect) 7) ≤ late.time.tb && 2 * 128 < calTarget r
    && gives (.calMidpoint 7) (accumulated 1 .collect) (fun t => (region t 7).mode == .dither)
    && gives (.calIntervalEnd 7 []) (accumulated 1 .collect) (fun t => (region t 7).mode == .dither)
    && calTarget r == r.hits && (badWidth r.hist r.hits).isNone && !bufHeld whole 7 && sget 0 r.hist 255 == 0
    && gives (.calIntervalEnd 7 []) whole (fun t => (region t 7).epoch == 1 && (region t 7).newest == 1)
    && gives (.calIntervalEnd 7 []) missed (fun t => (region t 7).epoch == 0 && total t (Reg.calRefused 7) 0 == 1)
    && gives (.calHitsReached 7 []) (accumulated 512 .dither) (fun t => (region t 7).epoch == 1)
    && gives (.calTrigger 7 0 0) late (fun t => (region t 7).epoch == 0)
    && (let s := setRegion whole 7 { r with epoch := 15 }
        gives (.calTrigger 7 0x1000 0) s fun t => (region t 7).trigged && (region t 7).hits == 0)
    && (let s := setRegion late 3 { region late 3 with newest := 1, epoch := 1, buf0 := some ⟨1, [], [], 0, 0⟩ }
        tdcIdle s 163 && tdcRegion 163 == 3 && tdcUse s 163 == 0 && gives (.tdcTableSwitch 163) s fun t => tdcUse t 163 == 1)) = true := by
  decide +kernel

theorem wit_monitors :
    (let busy (b o : Nat) : State :=
      put { late with vid := { late.vid with busy := b, online := o } } [(Reg.vidCtrl, 0x5028C201#32), (Reg.vidStatus, 7)]
    let waits := { late with vid := { late.vid with changed := true } }
    decide (late.vid.windows < drainMs late / 10) &&
      gives .occupancyWindowEnd (busy 100 100) (fun t => regF t Reg.vidStatus 15 9 == 100 && t.vid.want == 1)
    && gives .occupancyWindowEnd (busy 0 100) (fun t => regF t Reg.vidStatus 15 9 == 0 && t.vid.want == 2)
    && [(80, 0), (81, 1), (40, 0), (39, 2)].all (fun x => gives .occupancyWindowEnd (busy x.1 100) fun t => t.vid.want == x.2)
    && gives .occupancyWindowEnd (put (busy 100 100) [(Reg.vidStatus, 12)]) (fun t => t.vid.want == 0)
    && (let s := put (busy 0 0) [(Reg.vidCtrl, 0), (Reg.vidStatus, 14)]
        vidFree s && vidWant s == 2 && vidCode s == 14 && gives .vidCodeChange s fun t => vidCode t == 13 && t.out.length == 1)
    && !vidFree waits && gives .vidCodeChange waits (fun t => decide (t = waits))
    && gives (.tempMonitorSample 7 0x7FFF) late (fun t => (region t 7).tempHi && total t (Reg.detCount 0x68) 0 == 1)
    && gives (.tempMonitorSample 7 (BitVec.ofInt 16 (8 * sext 16 (regF late Reg.monTemp 31 16)))) late (fun t => !(region t 7).tempHi)
    && (let s := setRegion late 7 { region late 7 with vcoreOut := 1 }
        gives (.vcoreMonitorSample 7 0xFFFF) s fun t => (region t 7).vcoreSaid && total t (Reg.detCount 0x69) 0 == 1)
    && gives (.vcoreMonitorSample 7 0xFFFF) late (fun t => (region t 7).vcoreOut == 1)
    && gives (.vcoreMonitorSample 7 (BitVec.ofNat 16 (810 + 10 * vidCode late))) late (fun t => (region t 7).vcoreOut == 0)) = true := by
  decide +kernel

/-- CAN port 7 is enabled, with a controller changed by f. -/
def lane (f : CanPort → CanPort) : State :=
  let s := enabled late 1 7
  setCan s 7 (f { can s 7 with mode := .active })

/-- A base frame of one byte. -/
def frame : CanFrame := dataFrame 0x7FF false false false [0x55]

theorem wit_can_in :
    (let all := put (lane id) [(Reg.cnFltCfg 7 31, 0xA0000000#32)]
    let queued := lane fun v => { v with rxq0 := [⟨frame, ⟨0, 0, 0⟩, false⟩] }
    let fp : FastPacket := ⟨0x01F20000, 0, true, 20, 1, [0, 0, 0, 0, 0, 0], ⟨0, 0, 0⟩, 0, 1, false⟩
    let grows := put (lane fun v => { v with
      fps := [(31, some fp)], rxq0 := [⟨dataFrame 0x01F20000 true false false [1, 9, 9, 9, 9, 9, 9, 9], ⟨0, 0, 0⟩, false⟩] })
      [(Reg.cnCtrl 7, 0x90000000#32), (Reg.cnFpPgn 7 63, 0x8001F200#32)]
    canOn (lane id) 7 && !regB (lane id) (Reg.cnCtrl 7) 25 && gives (.canFrameReceived 7 frame true) (lane id) (fun t => decide (t = lane id))
    && gives (.canFrameReceived 7 { frame with remote := true } false) (lane id) (fun t => total t (Reg.cnRxLost 7) 8 == 1)
    && (List.range 32).find? (fun k => canMatches all 7 k frame) == some 31 && !regB all (Reg.cnFltCfg 7 31) 30
    && gives (.canFrameReceived 7 frame false) all (fun t => (can t 7).rxq1.length == 1)
    && gives (.canFrameReceived 7 frame false) (put (lane fun v => { v with recv := 128 }) [(Reg.cnFltCfg 7 0, 0x80000000#32)])
      (fun t => (can t 7).rxq0.length == 1)
    && !(can queued 7).rxq0.isEmpty && !canN2k queued 7
    && gives (.canFrameReceived 7 frame false) all (fun t => t.out == [.canAck 7] && (can t 7).rxq1.map (·.frame) == [frame])
    && gives (.canFrameReceived 7 { frame with remote := true, data := [] } false) (put all [(Reg.cnCtrl 7, 0xA0000000#32)]) (fun t => t.out.isEmpty)
    && gives (.canIntake 7) queued (fun t => (can t 7).rxq0.isEmpty)
    && (let listed := fun f => put (lane fun v => { v with rxq0 := [⟨f, ⟨0, 0, 0⟩, false⟩] })
          [(Reg.cnCtrl 7, 0x90000000#32), (Reg.cnFpPgn 7 63, 0x8001F200#32)]
        let f := dataFrame 0x01F20000 true false false (List.replicate 8 0)
        [{ f with fdf := true }, { f with dlc := 15 }, { f with dlc := 7, data := List.replicate 7 0 }].all fun f =>
          givesState (.canIntake 7) (listed f) (count (setCan (listed f) 7 { can (listed f) 7 with rxq0 := [] }) (Reg.cnFpCounts 7) 15 8 1))
    && gives (.canIntake 7) grows (fun t => decide (t = { grows with can := t.can, kennel := t.kennel, freeCount := t.freeCount })
      && (fpAt t 7 31).map (fun g => (g.data, g.next)) == some ([0, 0, 0, 0, 0, 0, 9, 9, 9, 9, 9, 9, 9], 2))
    && (fpFind grows 7 0x01F20000 0).isSome && canPgn 0x01F20000 == 0x1F200
    && gives (.canIntake 7) grows (fun t => (fpAt t 7 31).map (fun g => g.data.length) == some 13)
    && gives (.fastPacketTimeout 7 31) grows (fun t => (fpAt t 7 31).isNone)) = true := by decide +kernel

theorem wit_can_lane :
    (let x : SendFrame := ⟨4, frame, none, false, 0, 0, false⟩
    let c : LaneCopy := ⟨aCopy 0x20000007, [frame, frame], [], none, false⟩
    let sends := lane fun v => { v with sends := [x] }
    let tries := lane fun v => { v with sends := [x], attempt := .send 4 }
    let off := fun b => put (lane fun v => { v with mode := .busOff, recovering := b }) [(Reg.cnCtrl 7, 0x80000000#32)]
    laneSends sends 7 && (laneOffers sends 7).length == 1 && sends.integ.arms.isEmpty && sends.pair.releasing.isEmpty
    && gives (.canLaneSelect 7) sends (fun t => (can t 7).attempt == .send 4)
    && gives (.canAttemptEnd 7 .sent) tries (fun t => (can t 7).sends.isEmpty && total t (Reg.cnTxCounts 7) 16 == 1)
    && gives (.canAttemptEnd 7 .lost) tries (fun t => (can t 7).sends.length == 1 && (can t 7).attempt == .none)
    && gives (.canAttemptEnd 7 .sent) (lane fun v => { v with slot := some c, attempt := .copy })
      (fun t => (can t 7).slot.map (·.frames.length) == some 1)
    && gives (.canError 7 ⟨.bit, false, false, 0⟩ true false) (lane fun v => { v with tec := 247 })
      (fun t => (can t 7).tec == 255 && (can t 7).mode == .active)
    && gives (.canError 7 ⟨.bit, false, false, 0⟩ true false) (lane fun v => { v with tec := 248 }) (fun t => (can t 7).mode == .busOff)
    && gives (.canError 7 ⟨.crc, false, false, 0⟩ false false) (lane fun v => { v with recv := 255, tec := 255 }) (fun t => (can t 7).tec == 255)
    && gives (.canError 7 ⟨.bit, true, true, 23⟩ true false) (lane fun v => { v with tec := 127 })
      (fun t => (can t 7).tec == 151 && t.out.head? == some (.canErrorFlag 7 true))
    && gives (.canError 7 ⟨.ack, false, true, 0⟩ true false) (lane fun v => { v with tec := 128 })
      (fun t => (can t 7).tec == 128 && t.out.head? == some (.canErrorFlag 7 false))
    && gives (.canError 7 ⟨.ack, false, true, 0⟩ true false) (lane fun v => { v with tec := 127 }) (fun t => (can t 7).tec == 135)
    && [(false, 0, 1), (false, 1, 9), (false, 8, 17), (true, 0, 8)].all (fun x =>
      gives (.canError 7 ⟨.crc, x.1, false, x.2.1⟩ false false) (lane id) fun t => (can t 7).recv == x.2.2 && (can t 7).tec == 0)
    && gives (.canError 7 ⟨.crc, false, false, 0⟩ false false) (put (lane id) [(Reg.cnCtrl 7, 0xA0000000#32)]) (fun t => t.out.isEmpty)
    && (let fd : CanFrame := { frame with fdf := true }
        gives (.canAttemptEnd 7 .sent) (lane fun v => { v with slot := some { c with frames := [fd, fd] }, attempt := .copy, tec := 128 })
          fun t => t.out == [.canFrame 7 { fd with esi := true }])
    && !regB (off false) (Reg.cnCtrl 7) 23 && gives (.cnRecoverStart 7) (off false) (fun t => (can t 7).recovering)
    && gives (.cnRecoverStart 7) { off false with bridge := { late.bridge with posted := List.replicate 128 ⟨1, 7, 4, 3, 0, 4, 0⟩ } }
      (fun t => !(can t 7).recovering)
    && gives (.busOffRecovered 7) (off true) (fun t => (can t 7).mode == .active && (can t 7).recov == 128)
    && gives (.canStuck 7) (lane id) (fun t => (can t 7).mode == .busOff) && gives (.canStuckRelease 7) (lane id) (fun t => !(can t 7).stuck)
    && [some 4, none].all (fun slot => gives (.canIntegrated 7) (lane fun v => { v with mode := .integrating, pendApplied := slot })
      fun t => (can t 7).mode == .active)) = true := by decide +kernel

/-- A frame to everyone of the least size, and what is no IP. -/
def ethBytes : List Byte := List.replicate 12 0xFF#8 ++ [0x12, 0x34] ++ List.replicate 46 0

/-- A number as two bytes. -/
def be2 (n : Nat) : List Byte := [BitVec.ofNat 8 (n / 256), BitVec.ofNat 8 n]

/-- The parts of a received datagram: 20 bytes of IP header, UDP to port 60 001, `UdPbC` and a part. -/
def datagram (part : List Byte) : List Byte :=
  List.replicate 12 0xFF#8 ++ [8, 0] ++ [0x45, 0] ++ be2 (34 + part.length) ++ List.replicate 5 0 ++ [17, 0, 0, 10, 0, 0, 1, 239, 192, 0, 1]
    ++ [0, 0, 0xEA, 0x61] ++ be2 (14 + part.length) ++ [0, 0] ++ ascii "UdPbC" ++ [0] ++ part

/-- A link with a datagram in its buffer. -/
def buffered (part : List Byte) : State := setEth linked 3 { eth linked 3 with buffer := [⟨datagram part, ⟨0, 0, 0⟩, 0, 99, 5, 0, 0⟩] }

theorem wit_ethernet :
    (let ptp := fun v => put linked [(Reg.ptpCtrl 3, v)]
    bar0Ok up && !regB up Reg.ethMdioCmd 31 && gives (.ethMdioCmd 0x20000000) up (fun t => regB t Reg.ethMdioCmd 31)
    && gives (.ethMdioCmd 5) (put up [(Reg.ethMdioCmd, 0x80000000)]) (fun t => t.out.isEmpty)
    && gives (.mdioFrameDone 0x1234) (put up [(Reg.ethMdioCmd, 0xA0000000)]) (fun t => reg t Reg.ethMdioData == 0x80001234#32)
    && ethOn linked 3 && (eth linked 3).link && !linked.integ.lost.contains 3 && linked.pair.releasing.isEmpty
    && gives (.linkChange 3 true false) (enabled late 2 3) (fun t => (eth t 3).link) && gives (.linkChange 3 false false) linked (fun t => !(eth t 3).link)
    && gives (.ethFrameReceived 3 ethBytes.dropLast 0 0) linked (fun t => total t (Reg.ethRxErr 3) 8 == 1)
    && crc32 ethBytes != 0 && gives (.ethFrameReceived 3 ethBytes 0 0) linked (fun t => total t (Reg.ethRxErr 3) 16 == 1)
    && !ethAccepts linked 3 (0 :: ethBytes) && ethAccepts linked 3 ethBytes && (eth450 linked 3 ethBytes).isNone && !isPtp ethBytes
    && !regB linked (Reg.ethRxCfg 3) 30
    && gives (.ethFrameReceived 3 ethBytes (crc32 ethBytes) 0) linked (fun t => total t (Reg.ethRxDrop 3) 8 == 1)
    && splitParts ((udpBytes (datagram gyro)).drop 14) .start [] == [.part gyro] && (partSfi (partFields 256 gyro)).isNone
    && splitParts ((udpBytes (datagram [0x41])).drop 14) .start [] == [.malformed]
    && gives (.ethDatagramSplit 3) (buffered [0x41]) (fun t => (eth t 3).buffer.isEmpty && total t (Reg.eth450Err 3) 24 == 1)
    && (let s := put linked [(Reg.ethRxCfg 3, 0x80000000#32), (Reg.ethGrpAddr 3 63, 0xEFC00001#32), (Reg.ethGrpPort 3 63, 0x8000EA61#32)]
        let f := datagram (List.replicate 12 0x41)
        let g := (f.set 24 0xC0).set 25 0xFD
        let s := put s [(Reg.ethGrpName 3 63, 0x41424344#32), (Reg.ethRxCfg 3, 0x84000000#32)]
        (eth450 s 3 f).isSome && !isPtp f && udpSumGood f && decide (64 ≤ f.length + 4) && ethAccepts s 3 g && ipSumGood g
          && gives (.ethFrameReceived 3 g (crc32 g) 0) s fun t => (eth t 3).buffer.map (fun d => (d.bytes, d.group, d.size, d.name, d.sum, d.dup))
            == [(g, 63, g.length + 4, 0x41424344#32, 1, reg s (Reg.ethDupCfg 3))])
    && sumPolicy 0 (judgeText gyro).verdict != none
    && ptpState (ptp 0x90000000#32) 3 == 1 && decide (ptpInterval (regF linked (Reg.ptpMsg 3) 11 8) ≤ linked.time.tb)
    && gives (.ptpSyncTimer 3) (ptp 0x90000000#32) (fun t => (eth t 3).ptp.queue.length == 1)
    && ptpState (ptp 0xA0000000#32) 3 == 2 && gives (.ptpDelayReqTimer 3) (ptp 0xA0000000#32) (fun t => (eth t 3).ptp.queue.length == 1)
    && gives (.ptpPdelayReqTimer 3) (ptp 0xA2000000#32) (fun t => (eth t 3).ptp.queue.length == 1)) = true := by decide +kernel

/-- The bridge is enabled, with window 7 over the first 4 KiB of BAR4; f changes the bridge. -/
def bus (f : Bridge → Bridge) : State :=
  let s := put late [(Reg.cbCtrl, 0x80000000#32), (Reg.cbFwCtrl 7, 0x80000000#32)]
  { s with bridge := f s.bridge }

/-- A posted cycle of window 7. -/
def posted : WriteCycle := ⟨1, 7, 4, 3, 0x4142, 4, 0⟩

/-- A read of two bytes in window 7. -/
def busRead : FarHostRead := ⟨7, false, 4, [true, true], 4, 4, [⟨4, 3⟩], [], 0, 0, true, false⟩

/-- A locked sequence of slot 3. -/
def busRmw (old : Option Nat) : FarRmw := ⟨3, 8, 0xFFFF, 1, 0, old, 1, 0⟩

theorem wit_bridge :
    (let line := bus fun b => { b with lines := [(7, some ⟨0, List.replicate 8 (5, false), 0⟩)] }
    served (bus id) 0 2 == some 7 && fwFar (bus id) 7 0 % 2 == 0 && served (bus id) 4095 2 == none && served (bus id) 0 65 == none
    && gives (.bar4Write 0 [some 1, some 2]) (bus id) (fun t => t.bridge.posted.map (·.data) == [0x0201])
    && gives (.bar4Write 4095 [some 1, some 2]) (bus id) (fun t => reg t Reg.cbBadAccess == 1)
    && gives (.bar4Read 4095 [true, true]) (bus id) (fun t => t.out == [.readReply 4 4095 [0xFF, 0xFF]])
    && gives (.bar4UnservedAccess true 0x10000 [true]) (bus id) (fun t => reg t Reg.cbBadAccess == 1)
    && gives (.bar4Read 0 [true, false]) (bus id) (fun t => t.bridge.reads.length == 1)
    && busReady (bus fun b => { b with posted := [posted] }) && nextCycle (bus fun b => { b with reads := [busRead] }) == some (.read ⟨4, 3⟩)
    && nextCycle (bus fun b => { b with rmw := some (busRmw none) }) == some .rmwRead
    && gives .cabinetCycleStart (bus fun b => { b with posted := [posted] }) (fun t => t.out == [.cabinet true false 4 3 0x4142])
    && gives (.farWindowWrite 7 2 0x00FFF000) line (fun t => reg t (Reg.cbFwFar 7) == 0x00FFF000 && (sget none t.bridge.lines 7).isNone)
    && gives (.prefetchLineRead 7) (put (bus fun b => { b with prefWant := [(7, 16)] }) [(Reg.cbFwCtrl 7, 0xC0000000#32)])
      (fun t => t.bridge.pref.isSome)
    && gives (.prefetchLineAge 7) line (fun t => total t (Reg.cbFwPrefDiscard 7) 0 == 8)
    && ready (bus id) 0x51 [0x51] && gives (.farFence 3) (withCmd (bus id) [0x51]) ended
    && gives (.farFence 3) { bus id with host := { (bus id).host with cmds := [{ theCmd [0x51] with aux := 1 }] } } (fun t => !ended t)
    && (let full := bus fun b => { b with posted := List.replicate 128 posted }
        postedFull full && givesState (.bar4Write 0 [some 1, some 2]) full full && givesState (.bar4Write 4095 [some 1, some 2]) full full
          && givesState (.bar4UnservedAccess true 0x10000 [true]) full full)
    && gives (.bar4Write 0 [some 1, some 2]) (bus fun b => { b with posted := List.replicate 127 posted }) (fun t => t.bridge.posted.length == 128)
    && gives (.farFence 3) (withCmd { bus id with integ := { (bus id).integ with wedged := [unitOf 9 0x20] } } [0x51])
      (fun t => t.host.held.map (·.status) == [stWedged])
    && gives (.farRmwLocked 3) (withCmd late [0x50, 8]) (fun t => t.host.held.map (fun c => (c.status, c.res0)) == [(stFarFault, 0xFFFF)])
    && ready (bus id) 0x50 [0x50, 8] && gives (.farRmwLocked 3) (withCmd (bus id) [0x50, 8, 0x0001FFFF]) (fun t => t.bridge.rmw.isSome)
    && (let s := { bus id with integ := { (bus id).integ with wedged := [unitOf 9 0x20] } }
        ready s 0x50 [0x50, 8] && gives (.farRmwLocked 3) (withCmd s [0x50, 8]) ended)
    && gives .cbLogClear (put (bus id) [(Reg.cbLog 15 0, 0x80000000)]) (fun t => !regB t (Reg.cbLog 15 0) 31)
    && gives .bridgeDisable (bus fun b => { b with posted := [posted] }) (fun t => t.bridge.posted.isEmpty && total t Reg.cbDropped 0 == 1)
    && gives .bridgeDisable (bus fun b => { b with farReads := [⟨3, 0xF00000, 0, 2, 3, false, false, true⟩, ⟨3, 0xF00000, 0, 2, 3, false, false, false⟩] })
      (fun t => t.bridge.farReads.map (fun r => (r.dropped, r.sent)) == [(true, true)])) = true := by
  decide +kernel

theorem test_bar4_past_end : exec (.bar4Write 0xFFFFFF [some 1, some 2]) up = .fault .outsideBar
  ∧ exec (.bar4Read 0xFFFFFF [true, true]) up = .fault .outsideBar :=
  ⟨rfl, rfl⟩

theorem wit_cycles :
    (let on (op : CycleOp) (f : Bridge → Bridge) : State := bus fun b => f { b with cycle := some op }
    let post := on (.posted posted) fun b => { b with posted := [posted] }
    let rd := on (.read ⟨4, 3⟩) fun b => { b with reads := [busRead] }
    ticking post && !post.bridge.breq && post.bridge.retryTb.isNone && decide (posted.timeout * 250 ≤ post.time.tb)
    && gives (.cabinetCycleAck true false 0) post (fun t => t.bridge.finished == 1 && t.bridge.failed == 0)
    && gives (.cabinetCycleAck false true 0) post (fun t => t.bridge.failed == 1 && total t (Reg.detCount 0x59) 0 == 1)
    && gives .cabinetCycleTimeout post (fun t => t.bridge.failed == 1 && total t (Reg.detCount 0x58) 0 == 1)
    && gives (.cabinetCycleAck true true 0) (on (.posted posted) fun b => { b with posted := [posted], retries := 15 })
      (fun t => t.bridge.retries == 16 && t.bridge.retryTb.isSome)
    && gives (.cabinetCycleAck false false 0) post (fun t => decide (t = post))
    && gives .cardRetryWaitEnd (on (.posted posted) fun b => { b with posted := [posted], retryTb := some 0 }) (fun t => t.out.length == 1)
    && (let s := on (.posted posted) fun b => { b with posted := [posted], retryTb := some 0, grantTb := some 0 }
        givesState .cardRetryWaitEnd s s)
    && gives .bar4ReadDeadline (bus fun b => { b with reads := [{ busRead with timeout := 10000000 }, { busRead with off := 8, started := false }] })
      (fun t => t.bridge.reads.map (·.off) == [4] && t.out.getLast? == some (.readReply 4 8 [0xFF, 0xFF]) && total t (Reg.detCount 0x58) 0 == 1)
    && gives (.cabinetCycleAck true false 0x4241) rd (fun t => t.out == [.readReply 4 4 [0x41, 0x42]] && t.bridge.reads.isEmpty)
    && gives .bar4ReadDeadline (bus fun b => { b with reads := [busRead] }) (fun t => t.bridge.reads.isEmpty && t.out.length == 1)
    && gives (.cabinetCycleAck true false 6) (on .rmwRead fun b => { b with rmw := some (busRmw none) })
      (fun t => (t.bridge.rmw.bind (·.old)) == some 6)
    && gives (.cabinetCycleAck true false 0) (on .rmwWrite fun b => { b with rmw := some (busRmw (some 6)) })
      (fun t => t.bridge.rmw.isNone && t.bridge.finished == 1)) = true := by decide +kernel

theorem wit_far :
    (let win := fun f => put (bus f) [(Reg.cbHwCtrl 3, 0x8000000F#32)]
    let own := fun b : Bridge => { b with breq := true, grantTb := some 0 }
    let wait : FarReadWait := ⟨3, 0xF00000, 0, 2, 3, false, false, true⟩
    bridgeEn (bus id) && gives .farBusRequest (bus id) (fun t => t.out == [.farGrant true])
    && gives .farBusRequest (bus fun b => { b with posted := [posted] }) (fun t => t.bridge.breq && t.bridge.grantTb.isNone)
    && gives .farBusRelease (bus own) (fun t => t.out == [.farGrant false])
    && (let s := bus fun b => { own b with farReads := [wait] }
        givesState .farBusRelease s (setBridge s { s.bridge with breq := false }))
    && gives .farBusRelease (bus fun b => { own b with farReads := [{ wait with dropped := true }] }) (fun t => t.out == [.farGrant false])
    && reverseWindow (win own) 0xFFFFFE == some 3
    && gives (.farWrite 0xFFFFFE 3 0x4241) (win fun b => { own b with backoff := true }) (fun t => t.out == [.farAck true false 0])
    && [(3, [0x41, 0x42]), (2, [0x42]), (1, [0x41]), (0, [])].all (fun x => gives (.farWrite 0xFFFFFE x.1 0x4241) (win own)
      fun t => t.out == [.farAck false false 0] && t.bridge.reverse == [(0xFFFFE, x.2)])
    && gives (.farWrite 0xFFFFFE 3 0x4241) (win fun b => { own b with reverse := List.replicate 31 (0, []) }) (fun t => t.bridge.reverse.length == 32)
    && (let s := win fun b => { own b with reverse := List.replicate 32 (0, []) }
        givesState (.farWrite 0xFFFFFE 3 0x4241) s s)
    && gives (.farRead 0xFFFFFE 3) (win own) (fun t => t.bridge.farReads.map (·.sent) == [true] && t.out == [.farDmaRead 0xFFFFE 2])
    && gives (.farReadCompletion (some 0x4241)) (bus fun b => { own b with farReads := [{ wait with dropped := true }] })
      (fun t => t.bridge.farReads.isEmpty && t.out.isEmpty)
    && (let s := bus fun b => { own b with farReads := [{ wait with sent := false }] }
        givesState (.farReadCompletion (some 0x4241)) s s)
    && gives (.farReadCompletion (some 0x4241)) (bus fun b => { own b with farReads := [wait] }) (fun t => t.out == [.farAck false false 0x4241])
    && gives (.farReadCompletion none) (bus fun b => { own b with farReads := [wait] }) (fun t => t.out == [.farAck false true 0])
    && gives (.farCardInterrupt 3) (put up [(Reg.cbIrqCtrl, 8)]) (fun t => regF t Reg.cbIrqCtrl 11 4 == 0x88)
    && gives (.cbIrqNRelease 3) (put up [(Reg.cbIrqCtrl, 0x800)]) (fun t => reg t Reg.cbIrqCtrl == 0)
    && gives (.cbIrqAck 8) (put up [(Reg.cbIrqCtrl, 0x80)]) (fun t => reg t Reg.cbIrqCtrl == 0)
    && gives .hostWaitBackoff (bus fun b => { own b with posted := [posted], waitTb := some 0, farReads := [wait] })
      (fun t => t.bridge.backoff && t.out == [.farAck true false 0])
    && gives .farHoldLimit (bus fun b => { own b with backoff := true }) (fun t => t.bridge.holdSaid)) = true := by decide +kernel

/-- Panel port 7 with 16 segments and region 31 over them; f changes the port. -/
def board (f : PanelPort → PanelPort) : State :=
  let s := put { late with panelSet := [(Reg.pnRegion 7 31, memFresh 0x800F0000#32)] } [(Reg.pnCtrl 7, 0xC0000010#32)]
  let s := { s with power := s.power }
  setPanel s 7 (f (panel s 7))

theorem wit_panels :
    (let settled := fun f => put (board f) [(Reg.pnCrc 7, imageCrc (board f) 7)]
    let u : PanelRun := ⟨31, some 3, [(0, [5])], 1, 0, 0, 0, 0⟩
    (board id).panelSet.all (fun e => memGood e.2) && panelOpen (board id) 7 && regionDefined (board id) 7 0x800F0000
    && ready (board id) 0x40 [0x40, 0x1F07] && gives (.panelUpdate 3) (withCmd (board id) [0x40, 0x1F07]) (fun t => (panel t 7).reqs.length == 1)
    && gives (.panelUpdate 3) (withCmd up [0x40, 0x1F07]) (fun t => ended t)
    && gives (.panelUpdate 3) (withCmd { board id with integ := { late.integ with wedged := [unitPanel 7] } } [0x40, 0x1F07])
      (fun t => t.host.held.map (·.status) == [stWedged])
    && gives (.panelUpdate 3) (withCmd (board id) [0x40, 0x1F07, 1, 0x100]) (fun t => t.out.length == 1)
    && panelDue (board id) 7 && owns (board id) (epPanel 7)
    && gives (.panelFrameBoundary 7) (board fun p => { p with pendSet := some ([0x20, 0x5007, 8], 3) }) (fun t => regF t (Reg.pnCtrl 7) 9 0 == 8)
    && gives (.panelFrameBoundary 7) (board fun p => { p with runs := [{ u with segs := [(0, [1]), (15, [2])] }] })
      (fun t => (panel t 7).runs.map (·.next) == [1]
        && t.out.head? == some (.panelFrame 7 ([true, false] ++ List.replicate 28 false ++ [false, true]) [(0, 1), (15, 2)]))
    && gives (.panelFrameBoundary 7) (board fun p => { p with runs := [{ u with next := 1 }] }) (fun t => (panel t 7).runs.isEmpty)
    && imageCrc (settled id) 7 == reg (settled id) (Reg.pnCrc 7)
    && (panel (board id) 7).sensorTb == 0
    && [(false, -640), (false, 1360), (false, -641), (false, 1361), (true, 0)].all (fun x =>
      gives (.panelSensorRead 7 x.1 (BitVec.ofInt 16 x.2)) (board id) fun t =>
        t.out.head? == some (.panelSensor 7 [false, true, false, true, true, false, true, false] 17) &&
          (panel t 7).temp == if x.2 = -640 ∨ x.2 = 1360 then some x.2 else none)
    && decide (10000 ≤ drainMs (at_ (board id) 2500000000))
    && (board fun p => { p with reqs := [⟨31, .image [1], none⟩] }).integ.arms.isEmpty && imageCrc (settled id) 7 != 7) = true := by
  decide +kernel

/-- The hub in a power phase. -/
def inPhase (s : State) (p : Phase) : State := { s with power := { s.power with phase := p } }

theorem wit_power :
    (let straps : Straps := ⟨true, true, 0x100⟩
    gives (.powerOnReset straps) (inPhase up .off) (fun t => t.power.phase == .rails 0 && t.power.ref25 && !t.power.vidOn && t.out == [.vidReleased])
    && [0, 1, 2].all (fun k => gives .pwrEnStep (inPhase up (.rails k)) fun t => t.power.phase == if k = 2 then .held else .rails (k + 1))
    && gives .pwrEnStep (inPhase up (.waking 2)) (fun t => t.power.phase == .waking 3)
    && resetActs up && gives (.resetN 999) up (fun t => decide (t = up)) &&
      gives (.resetN 10000) up (fun t => t.power.phase == .held && !t.power.vidOn && t.out.contains .vidReleased)
    && gives (.resetNRelease straps) State.reset (fun t => t.power.phase == .boot && t.power.io33 == 0x100 && t.power.vidOn && t.out == [.vid 14])
    && (let s := { late with host := { late.host with resetAt := some 0 } }
        gives .deviceResetStart s fun t => t.power.phase == .boot && reg t Reg.resetCause == 2)
    && gives .functionLevelReset up (fun t => reg t Reg.resetCause == 3) && gives .bar0Usable up (fun t => t.host.usable)
    && gives .vaonRemoved up (fun t => t.power.phase == .off) && gives (.d3hotTransition true) up (fun t => t.host.d3)
    && gives (.d3hotTransition false) { up with host := { up.host with d3 := true } } (fun t => !t.host.d3)
    && gives (.monitoredClockLoss ⟨.rx 3, false⟩) linked (fun t => !(eth t 3).link && t.integ.lost == [3])
    && gives (.monitoredClockLoss ⟨.jtag, true⟩) up (fun t => decide (t = { up with integ := { up.integ with lost := [11] } }))
    && gives (.monitoredClockReturn .jtag) { up with integ := { up.integ with lost := [11] } } (fun t => t.integ.lost.isEmpty)
    && ticking (inPhase up .boot) && gives (.boot ⟨.noTable, 0⟩) (inPhase (at_ up 250) .boot) (fun t => t.power.phase == .run && reg t Reg.bootTime == 1)
    && gives (.boot ⟨.noTable, 5000⟩) (inPhase (at_ up 250) .boot) (fun t => reg t Reg.bootTime == 6)
    && gives (.boot ⟨.copyFailed 8192 [], 0⟩) (inPhase up .boot) (fun t => t.host.flashSize == some 8192 && regF t Reg.bootStatus 31 28 == 2)
    && (let img := image ++ [0, 0, 0, 0]
        gives (.boot ⟨.image 8192 img, 0⟩) (inPhase up .boot) fun t => t.power.phase == .run && regF t Reg.bootStatus 31 28 == bootResult img)
    && headerBad [] && gives (.boot ⟨.copyFailed 0 [], 0⟩) (inPhase up .boot) (fun t => t.power.phase == .run)) = true := by decide +kernel

/-- Watch receiver 7 of port 127 for the one character `$`. -/
def dollar : Watch :=
  { num := 7, port := 127, ctrl := 0x80000000#32, div := 24576, format := 3, framer := 0, hold := 0, patLo := 0x24, patHi := 0, cfg := 0x00000100#32,
    buf := [], full := false, place := .hunt, pos := none, matched := false, started := false, needIdle := false }

/-- A hub that watches, in a phase. -/
def asleep (p : Phase) (f : Watch → Watch) : State :=
  { late with power := { late.power with phase := p, watches := [f dollar], named := [(7, 127)] } }

/-- The same hub, so many SL periods after the end of the entry. -/
def since (p : Phase) (n : Nat) : State := { asleep p id with power := { (asleep p id).power with slPeriods := n } }

theorem wit_watch :
    (let enter := fun s : State => withCmd s [0x04, 0, 0x7F000000#32, 0x80#32]
    let good := port 0
    sleepNamed (theCmd [0x04, 0, 0x7F000000#32, 0x80#32]) == [(7, 127)] && canWatch good 127 && !canWatch up 127
    && ready good 4 [0x04, 0, 0x7F000000#32, 0x80#32] && gives (.sleepEnter 3) (enter good) (fun t => t.power.phase == .sleeping 0)
    && ready up 4 [0x04, 0, 0x7F000000#32, 0x80#32] && gives (.sleepEnter 3) (enter up) (fun t => t.power.phase == .run && ended t)
    && gives .sleepEntryStop (asleep (.sleeping 0) id) (fun t => t.power.phase == .sleeping 1 && t.power.watches.map (·.port) == [127])
    && [(1, 2), (2, 3)].all (fun x => gives .sleepPowerDownStep (asleep (.sleeping x.1) id) fun t => t.power.phase == .sleeping x.2)
    && gives .sleepPowerDownStep (asleep (.sleeping 3) id) (fun t => t.power.phase == .watch && t.power.enSc == [7])
    && (match step (asleep .watch id) with | .next t => decide (t = since .watch 1) | _ => false)
    && [(31, 0), (32, 1), (2 ^ 37, 0xFFFFFFFF)].all (fun x =>
      gives .wakeN (since .watch x.1) fun t => t.power.phase == .waking 0 && reg t Reg.slept == x.2)
    && gives .wakeN (asleep (.sleeping 1) id) (fun t => t.power.woke)
    && gives .wakeTimer (put (since .watch 32768) [(Reg.pwrWake, 0x00010000#32)]) (fun t => t.power.phase == .waking 0 && reg t Reg.slept == 1024)
    && gives .wakeTimer (put (since .watch 32767) [(Reg.pwrWake, 0x00010000#32)]) (fun t => t.power.phase == .watch)
    && gives .wakeTimer (since .watch 32768) (fun t => t.power.phase == .watch)
    && gives .wakeRelease (asleep (.waking 3) id) (fun t => t.power.phase == .boot && reg t Reg.resetCause == 4)
    && (watchCompare dollar ⟨0x24, false, false⟩ 0).2 && gives (.watchCharacter 7 0x24 false false 0) (since .watch 64)
      (fun t => t.power.phase == .waking 0 && reg t Reg.slept == 2)
    && !(watchCompare dollar ⟨0x21, false, false⟩ 0).2
    && gives (.watchCharacter 7 0x21 false false 0) (asleep .watch id) (fun t => t.power.phase == .watch)
    && gives (.watchCharacter 7 0x24 false false 0) (asleep .watch fun w => { w with needIdle := true }) (fun t => t.power.phase == .watch)
    && (let s := { good with power := { good.power with watches := [dollar] } }
        gives (.watchTakeover 127) s fun t => t.power.watches.isEmpty)
    && gives (.watchReceiverTimeout 7) (asleep .run id) (fun t => t.power.watches.isEmpty)) = true := by decide +kernel

/-- The pair link is enabled; f changes it. -/
def paired (f : Pair → Pair) : State :=
  let s := put late [(Reg.pairCtrl, 0x80000003#32)]
  { s with pair := f s.pair }

theorem wit_pair :
    (let held := paired fun p => { p with heard := true, owned := [5], taken := [5], partnerHome := [5] }
    bit 0x80000003 31 && pairEn (paired id) && !pairEn up
    && gives (.pairCtrlEnChange 0x80000005#32) (paired id) (fun t => reg t Reg.pairCtrl == 0x80000005#32)
    && gives (.pairCtrlEnChange 0x80000005#32) up (fun t => pairEn t) && gives (.pairCtrlEnChange 0) held (fun t => t.pair.owned.isEmpty)
    && gives .heartbeatSend (paired id) (fun t => t.pair.seq == 1 && t.out.length == 2)
    && !beatGood [] && gives (.heartbeatHeard []) (paired id) (fun t => total t Reg.pairCounts 8 == 1)
    && beatGood (beatWords (paired id)) && gives (.heartbeatHeard (beatWords (paired id))) (paired id) (fun t => t.pair.heard)
    && gives (.pairSymbolTimeout true) (paired fun p => { p with sending := some 0 }) (fun t => t.pair.sending.isNone)
    && decide (max 3 (regF (paired id) Reg.pairCtrl 15 0) * 250000 ≤ late.time.tb)
    && [false, true].all (fun l => gives .partnerSilent (paired fun p => { p with aliveIn := l }) fun t => t.pair.silent && t.pair.acted == some l)
    && [false, true].all (fun l => gives .partnerSilent (paired fun p => { p with aliveIn := l, partnerOwn := [5] })
      fun t => mayTake late 5 && t.pair.owned.contains 6 && t.pair.owned.contains 5 == !l)
    && gives (.pairAliveInChange true) (paired id) (fun t => t.pair.aliveIn)
    && gives (.pairAliveInChange false) (paired fun p => { p with silent := true, acted := some true, aliveIn := true })
      (fun t => t.pair.acted == some false)
    && (let s := put held [(Reg.pairHome 0, 0x20)]
        !homeOf s 5 && !endpointBusy s 5 && (s.pair.owned == [5]) && gives .handbackDelay s fun t => t.pair.owned.isEmpty)) = true := by
  decide +kernel

/-- The invariant holds at a state, and a step from it answers a next state. -/
theorem wit_memories : (Memory.wf (ny gyro 14 (asm .slotw (.imm 0))) && (match step { ny gyro 14 (asm .slotw (.imm 0)) with pending := [.slotw 0] } with
    | .next t => Memory.wf t && t.pending.isEmpty
    | _ => false)) = true := by decide +kernel

/-! ## Well-formed commands -/

/-- Each check refuses a command that another value of its operand would make well-formed. -/
theorem smoke_ill_formed :
    ([.cmdBufWrite 0 0 [], .cmdBufWrite 0 15 [1, 2], .bar2Read 0 0, .bar2Read 0xFFFFFD 4, .bar2Write 0 0, .bar2Write 0xFFFFFD 4,
      .registerWrite 2 0, .rcRegisterRead 1, .bar4Write 0 [], .bar4Write 0xFFFFFF [some 1, some 2], .bar4Read 0 [], .bar4Read 0xFFFFFF [true, true],
      .bar4UnservedAccess true 0 [], .bar4UnservedAccess false 0xFFFFFF [true, true]] ++
     [.boot ⟨.copyFailed 0 [], 0⟩, .boot ⟨.image 0 (List.replicate 63 0), 0⟩, .calIntervalEnd 0 (List.replicate 257 0),
       .calHitsReached 0 (List.replicate 257 0),
      .canFrameReceived 0 { frame with ident := 2048 } false, .canFrameReceived 0 { frame with brs := true } false,
      .canFrameReceived 0 { frame with fdf := true, remote := true, data := [] } false, .canFrameReceived 0 { frame with remote := true } false,
      .canFrameReceived 0 { frame with dlc := 2 } false, .canFrameReceived 0 { frame with esi := true } false,
      .canFrameReceived 0 { frame with fdf := true, dlc := 9, data := List.replicate 9 0 } false, .boot ⟨.copyFailed 0 (List.replicate 63 0), 0⟩,
      .programRefetchDone (some []),
      .dmaReadCompletion 0 (some (List.replicate 513 0))] : List Instr).all (fun c => !c.wf) = true := by decide +kernel

theorem smoke_well_formed :
    ([.cmdBufWrite 7 15 [1], .bar2Read 0xFFFFFC 4, .registerWrite 4 0, .bar4Write 0xFFFFFE [some 1, some 2], .boot ⟨.image 0 (List.replicate 64 0), 0⟩,
      .canFrameReceived 0 frame false, .canFrameReceived 0 { frame with fdf := true, esi := true, dlc := 9, data := List.replicate 12 0 } false,
      .canFrameReceived 0 { frame with dlc := 9, data := List.replicate 8 0 } false, .programRefetchDone (some [1]),
      .dmaReadCompletion 0 (some (List.replicate 512 0)), .nop 0] : List Instr).all Instr.wf = true := by decide +kernel

end Sys2Proof.Tests
end

section
/-! # The state after reset (R7, R18, R353) -/

namespace Sys2Proof.Machine

/-- After reset a register holds its reset value. -/
theorem reg_reset (off : Nat) : reg State.reset off = regReset off := rfl

/-- No port is enabled by its reset value. -/
theorem regReset_portCtrl_disabled :
    ((List.range 6).all fun c => (List.range (portCount c)).all fun n => !bit (regReset (portCtrl c n)) 31) = true := by decide +kernel

/-- No ring is enabled by its reset value, and none holds a place in it. -/
theorem regReset_ring_empty :
    ((List.range 18).all fun r => !bit (regReset (ringOff r + 8)) 31 && fld (regReset (ringOff r + 12)) 15 0 == 0
      && fld (regReset (ringOff r + 16)) 15 0 == 0) = true := by decide +kernel

/-- A port of a class is not enabled after reset. -/
theorem portEn_reset {c n : Nat} (hc : c < 6) (hn : n < portCount c) : portEn State.reset c n = false := by
  have h := regReset_portCtrl_disabled
  simp only [List.all_eq_true, List.mem_range, Bool.not_eq_true'] at h
  exact h c hc n hn

/-- A ring is not enabled after reset, and its HEAD and TAIL are 0. -/
theorem ring_reset {r : Nat} (hr : r < 18) :
    ringEn State.reset r = false ∧ ringHead State.reset r = 0 ∧ ringTail State.reset r = 0 := by
  have h := regReset_ring_empty
  simp only [List.all_eq_true, List.mem_range, Bool.and_eq_true, Bool.not_eq_true', beq_iff_eq] at h
  obtain ⟨⟨hen, hhead⟩, htail⟩ := h r hr
  exact ⟨hen, hhead, htail⟩

/-- After reset a memory holds its unwritten word everywhere. -/
theorem memGet_reset (m : Mem) (a : Nat) : memGet State.reset m a = memDefault m := by cases m <;> rfl

/-- The data of an unwritten word (R18, R174, R177). -/
theorem memData_memDefault (m : Mem) : memData (memDefault m) = if m = .prog ∨ m = .routes then 0xFFFFFFFF#32 else 0 := by
  cases m <;> decide

/-- An unwritten word is good (R18). -/
theorem memGood_memDefault (m : Mem) : memGood (memDefault m) = true := by cases m <;> decide

end Sys2Proof.Machine

namespace Sys2Proof.Proofs
open Sys2Proof.Machine

/-- Settles O58: the registers, ports, rings and memories after reset, each by its lemma. -/
theorem resetState : Obligations.ResetState := by
  unfold Obligations.ResetState
  refine ⟨rfl, reg_reset, fun _ _ => rfl, fun c n => portEn_reset, fun r => ring_reset, rfl, rfl, fun m a => ?_, fun m a => ?_, rfl, rfl,
    rfl, rfl, rfl⟩
  · rw [memWord, memGet_reset, memData_memDefault]
  · rw [memGet_reset, memGood_memDefault]

end Sys2Proof.Proofs
end

section
/-! # Registers of BAR0 (R4 to R7, R32, R34, R338)

What a write or a read of a register does, by the kind of its offset; the accesses that R32 calls malformed; and the registers whose write
is one of the host's commands. -/

namespace Sys2Proof.Machine

/-! ## The dispatch of the accesses -/

theorem exec_registerWrite (off : BitVec 19) (v : Word) (s : State) :
    exec (.registerWrite off v) s = execRegisterWrite off v s := rfl

theorem exec_rcRegisterRead (off : BitVec 19) (s : State) : exec (.rcRegisterRead off) s = execRcRegisterRead off s := rfl

theorem exec_bar0BadAccess (w : Bool) (off : Nat) (en : List Bool) (s : State) :
    exec (.bar0BadAccess w off en) s = execBar0BadAccess w off en s := rfl

/-! ## Ranges of offsets -/

theorem within_iff {off base len : Nat} : within off base len = true ↔ base ≤ off ∧ off < base + len := by simp [within]

theorem within_eq_false {off base len : Nat} (h : off < base ∨ base + len ≤ off) : within off base len = false := by
  simp only [within, Bool.and_eq_false_iff, decide_eq_false_iff_not]
  omega

/-- The offsets that plainReg names, as ranges. -/
theorem plainReg_iff {off : Nat} :
    plainReg off = true ↔ (0x8000 ≤ off ∧ off < 0x8800) ∨ (0x8A00 ≤ off ∧ off < 0x30000) ∨ (0x40000 ≤ off ∧ off < 0x50080)
      ∨ (0x50180 ≤ off ∧ off < 0x60000) ∨ (0x70000 ≤ off ∧ off < 0x78000) := by
  simp only [plainReg, Bool.or_eq_true, within_iff]
  omega

/-- A panel setting lies in the block of a panel port. -/
theorem panelWordAt_isSome {off : Nat} (h : (panelWordAt off).isSome = true) : 0x68000 ≤ off ∧ off < 0x70000 := by
  unfold panelWordAt at h
  split at h
  · rename_i hw
    exact within_iff.1 (Bool.and_eq_true_iff.1 hw).1
  · simp at h

theorem panelWordAt_eq_none {off : Nat} (h : off < 0x68000 ∨ 0x70000 ≤ off) : panelWordAt off = none := by
  by_contra hn
  have := panelWordAt_isSome (Option.isSome_iff_ne_none.2 hn)
  omega

/-! ## Writes by access type -/

/-- BAR0 takes a write when it answers and the bridge's queue is not full. -/
theorem bar0Writes_of {s : State} (hok : bar0Ok s = true) (hp : postedFull s = false) : bar0Writes s = true := by
  simp [bar0Writes, hok, hp]

/-- A write of an aligned register acts as hostWrite says. -/
theorem execRegisterWrite_aligned {s : State} {off : BitVec 19} (v : Word) (hw : bar0Writes s = true) (ha : off.toNat % 4 = 0) :
    execRegisterWrite off v s = .next (hostWrite s off.toNat v) := by simp [execRegisterWrite, hw, ha]

/-- A write of a register that sets nothing else off acts by access type alone (R5). -/
theorem hostWrite_plain {s : State} {off : Nat} (v : Word) (h : plainReg off = true) : hostWrite s off v = plainWrite s off v := by
  rw [plainReg_iff] at h
  have hcan : within off 0x30000 0x8000 = false := within_eq_false (by omega)
  have heo : within off 0x8800 0x200 = false := within_eq_false (by omega)
  have hset : within off 0x50080 128 = false := within_eq_false (by omega)
  have hclr : within off 0x50100 128 = false := within_eq_false (by omega)
  have hcb : within off 0x60000 0x8000 = false := within_eq_false (by omega)
  have hmap : within off 0x78100 0x40 = false := within_eq_false (by omega)
  have hpn : panelWordAt off = none := panelWordAt_eq_none (by omega)
  have hmdio : off ≠ Reg.ethMdioCmd := by unfold Reg.ethMdioCmd; omega
  have hvid : off ≠ Reg.vidCtrl := by unfold Reg.vidCtrl; omega
  have hpair : off ≠ Reg.pairCtrl := by unfold Reg.pairCtrl; omega
  have hhost : ¬off < 0x4000 := by omega
  have htime : ¬off < 0x6000 := by omega
  simp [hostWrite, hhost, htime, heo, hcan, hmdio, hset, hclr, hcb, hpn, hvid, hpair, hmap]

/-- Every register but the one written holds its value. -/
theorem sameRegs_setReg (s : State) (off : Nat) (v : Word) : SameRegs s (setReg s off v) [off] := by
  intro o ho
  rw [reg_setReg, if_neg (by simpa using ho)]

/-- A write by access type of an offset that no register occupies. -/
theorem plainWrite_none {s : State} {off : Nat} {v : Word} (h : regSpec off = none) : plainWrite s off v = s := by
  simp [plainWrite, h]

/-- A write by access type of a register. -/
theorem plainWrite_some {s : State} {off : Nat} {v : Word} {r : RegSpec} (h : regSpec off = some r) :
    plainWrite s off v = setReg s off ((reg s off &&& ~~~r.rw &&& ~~~(r.w1c &&& v)) ||| (v &&& r.rw)) := by simp [plainWrite, h]

/-- The bits of a register after a write by access type (R5). -/
theorem regB_plainWrite {s : State} {off : Nat} {v : Word} {r : RegSpec} (h : regSpec off = some r) {i : Nat} (hi : i < 32) :
    regB (plainWrite s off v) off i =
      if r.rw.getLsbD i then v.getLsbD i else if r.w1c.getLsbD i && v.getLsbD i then false else regB s off i := by
  rw [plainWrite_some h]
  simp only [regB, reg_setReg, if_true, bit_eq, BitVec.getLsbD_or, BitVec.getLsbD_and, BitVec.getLsbD_not, hi, decide_true,
    Bool.true_and]
  by_cases hrw : r.rw.getLsbD i = true
  · simp [hrw]
  · by_cases hclr : (r.w1c.getLsbD i && v.getLsbD i) = true
    · simp [hrw, hclr]
    · simp [hrw, hclr]

/-! ## Reads that only clear RC fields -/

/-- The RC fields that a read leaves: a register after its RC fields are cleared. -/
theorem rcClear_of {s : State} {off : Nat} (h : [Reg.kennelLow, Reg.inflight, Reg.lqPoolLow].contains off = false) :
    rcClear s off = if rcMask off = 0 then s else setReg s off (reg s off &&& ~~~(rcMask off)) := by
  simp only [rcClear, h, Bool.or_false, beq_iff_eq]

/-- What plainRead excludes, taken apart. -/
theorem plainRead_iff {off : Nat} :
    plainRead off = true ↔ within off 0x1000 0x400 = false
      ∧ (within off 0x10000 0x20000 && (off % 0x400 == 0x40 || off % 0x400 == 0x44)) = false
      ∧ (within off 0x30000 0x8000 && off % 0x1000 == 0x40) = false ∧ within off 0x60100 256 = false ∧ panelWordAt off = none
      ∧ [Reg.kennelLow, Reg.inflight, Reg.lqPoolLow, Reg.packPliesLo, Reg.packPliesHi, Reg.hostErrors].contains off = false := by
  simp only [plainRead, Bool.not_eq_true', Bool.or_eq_false_iff, Option.isSome_eq_false_iff, Option.isNone_iff_eq_none]
  tauto

/-- A read that plainRead names clears RC fields and does nothing else. -/
theorem hostRead_plain {s : State} {off : Nat} (h : plainRead off = true) :
    hostRead s off = (if rcMask off = 0 then s else setReg s off (reg s off &&& ~~~(rcMask off)), view s off) := by
  obtain ⟨hwin, hsp, hcn, hfw, hpn, hlev⟩ := plainRead_iff.1 h
  simp only [List.contains_cons, List.contains_nil, Bool.or_false, Bool.or_eq_false_iff, beq_eq_false_iff_ne] at hlev
  obtain ⟨hlow, hinf, hlq, hlo, hhi, herr⟩ := hlev
  have hclear := rcClear_of (s := s) (off := off) (by simp [hlow, hinf, hlq])
  rw [Bool.and_or_distrib_left, Bool.or_eq_false_iff] at hsp
  obtain ⟨hst, hda⟩ := hsp
  have htouch : ∀ t : State, readTouch t off = t := by
    intro t
    simp [readTouch, levelRestart, hlow, hinf, hlq, hlo, hhi, herr, hfw]
  simp [hostRead, hwin, hst, hda, hcn, hpn, htouch, hclear]

/-- The bits of a register after its RC fields are cleared. -/
theorem regB_rcCleared (s : State) (off i : Nat) :
    regB (if rcMask off = 0 then s else setReg s off (reg s off &&& ~~~(rcMask off))) off i =
      (regB s off i && !(rcMask off).getLsbD i) := by
  split
  · rename_i h
    simp [h]
  · simp only [regB, reg_setReg, if_true, bit_eq, BitVec.getLsbD_and, BitVec.getLsbD_not]
    by_cases hi : i < 32
    · simp [hi]
    · simp [hi, BitVec.getLsbD_of_ge _ _ (Nat.le_of_not_lt hi)]

/-! ## Panel settings -/

/-- A good panel setting passes its check (R338). -/
theorem panelWord_good {s : State} {n off : Nat} (hg : memGood (sget 0 s.panelSet off) = true) :
    panelWord s n off = (s, memData (sget 0 s.panelSet off)) := by simp only [panelWord, hg, if_true]

/-- A good panel setting reads as its word, and its read changes nothing (R338). -/
theorem hostRead_panelSetting {s : State} {off : Nat} (h : (panelWordAt off).isSome = true)
    (hg : memGood (sget 0 s.panelSet off) = true) : hostRead s off = (s, memData (sget 0 s.panelSet off)) := by
  have hr := panelWordAt_isSome h
  have hwin : within off 0x1000 0x400 = false := within_eq_false (by omega)
  have hsp : within off 0x10000 0x20000 = false := within_eq_false (by omega)
  have hcn : within off 0x30000 0x8000 = false := within_eq_false (by omega)
  obtain ⟨n, hn⟩ := Option.isSome_iff_exists.1 h
  simp [hostRead, hwin, hsp, hcn, hn, panelWord_good hg]

/-! ## Malformed accesses (R32) -/

/-- An access with a byte that is not enabled, a read of neither a DWORD nor a QWORD, and a misaligned access are malformed. -/
theorem bar0WellFormed_eq_false {isWrite : Bool} {off : Nat} {en : List Bool}
    (h : (∃ b ∈ en, b = false) ∨ (en.length ≠ 4 ∧ en.length ≠ 8 ∧ isWrite = false) ∨ off % 4 ≠ 0) :
    bar0WellFormed isWrite off en = false := by
  rw [← Bool.not_eq_true]
  intro hwf
  simp only [bar0WellFormed, Bool.and_eq_true, Bool.or_eq_true, List.all_eq_true, id, beq_iff_eq] at hwf
  obtain ⟨hall, hshape⟩ := hwf
  rcases h with ⟨b, hb, rfl⟩ | ⟨h4, h8, hr⟩ | ha
  · exact absurd (hall false hb) (by decide)
  · simp [h4, h8, hr] at hshape
  · rcases hshape with (⟨-, h⟩ | ⟨⟨-, h⟩, -⟩) | ⟨⟨⟨⟨-, h⟩, -⟩, -⟩, -⟩ <;> omega

/-- A malformed access adds one to its counter and to its total, and changes no other register. -/
theorem badAccess_counts (s : State) :
    total (badAccess s) Reg.hostErrors 0 = (total s Reg.hostErrors 0 + 1) % 2 ^ 32
      ∧ regF (badAccess s) Reg.hostErrors 15 0 = min (regF s Reg.hostErrors 15 0 + 1) 65535
      ∧ SameRegs s (badAccess s) [Reg.hostErrors] :=
  ⟨total_count s _ 15 0 1, regF_count (by decide) (by decide), fun _ ho => reg_count_other (by simpa using ho)⟩

/-- What a malformed access of BAR0 does, a write or a read. -/
theorem execBar0BadAccess_malformed {s : State} {isWrite : Bool} {off : Nat} {en : List Bool} (hok : bar0Ok s = true)
    (hp : isWrite = true → postedFull s = false) (h : bar0WellFormed isWrite off en = false) :
    execBar0BadAccess isWrite off en s =
      .next (if isWrite then badAccess s else emit (badAccess s) (.readReply 0 off (List.replicate en.length 0xFF#8))) := by
  cases isWrite with
  | true => simp [execBar0BadAccess, h, bar0Writes_of hok (hp rfl)]
  | false => simp [execBar0BadAccess, h, hok]

end Sys2Proof.Machine

namespace Sys2Proof.Proofs
open Sys2Proof.Machine

/-- Settles O29: each kind of access, by the lemma that says what it does. -/
theorem registerAccess : Obligations.RegisterAccess := by
  unfold Obligations.RegisterAccess
  intro s off v hok
  dsimp only
  refine ⟨fun ha hpl hp r hr => ?_, fun ha hpl hr => ?_, fun hp => ?_, fun ha => ⟨fun hp => ?_, ?_⟩, fun ha hpl => ?_,
    fun ha hpn hg => ?_, fun isWrite en hbad hp => ?_⟩
  · refine ⟨plainWrite s off.toNat v, ?_, fun i hi => regB_plainWrite hr hi, ?_, ?_⟩
    · rw [exec_registerWrite, execRegisterWrite_aligned v (bar0Writes_of hok hp) ha, hostWrite_plain v hpl]
    · rw [plainWrite_some hr]
      exact sameRegs_setReg _ _ _
    · rw [plainWrite_some hr]
      rfl
  · rw [exec_registerWrite]
    by_cases hp : postedFull s = true
    · simp [execRegisterWrite, bar0Writes, hp]
    · rw [execRegisterWrite_aligned v (bar0Writes_of hok (by simpa using hp)) ha, hostWrite_plain v hpl, plainWrite_none hr]
  · simp [exec_registerWrite, execRegisterWrite, bar0Writes, hp]
  · simp [exec_registerWrite, execRegisterWrite, bar0Writes_of hok hp, ha, badAccess]
  · exact ⟨_, by simp [exec_rcRegisterRead, execRcRegisterRead, hok, ha]; rfl, rfl⟩
  · refine ⟨_, by simp only [exec_rcRegisterRead, execRcRegisterRead, hok, ha, hostRead_plain hpl]; rfl, ?_, fun i => ?_, ?_, ?_⟩
    · split <;> rfl
    · exact regB_rcCleared s off.toNat i
    · split
      · exact fun _ _ => rfl
      · exact sameRegs_setReg _ _ _
    · split <;> rfl
  · simp [exec_rcRegisterRead, execRcRegisterRead, hok, ha, hostRead_panelSetting hpn hg, replied]
  · obtain ⟨htot, hfld, hregs⟩ := badAccess_counts s
    refine ⟨_, (exec_bar0BadAccess _ _ _ _).trans (execBar0BadAccess_malformed hok hp (bar0WellFormed_eq_false hbad)), ?_⟩
    cases isWrite with
    | true => exact ⟨htot, hfld, rfl, hregs, rfl⟩
    | false => exact ⟨htot, hfld, rfl, hregs, rfl⟩

end Sys2Proof.Proofs
end

section
/-! # Register writes that are commands (R5, R38, R50, R68, R71) -/

namespace Sys2Proof.Machine

/-! ## The dispatch of the commands -/

theorem exec_cmdBufWrite (w : Fin 8) (k : Fin 16) (data : List Word) (s : State) :
    exec (.cmdBufWrite w k data) s = execCmdBufWrite w k data s := rfl

theorem exec_ringEnable (r : Fin 18) (v : Word) (s : State) :
    exec (.ringEnable r v) s = execRingEnable r v s := rfl

theorem exec_ringHeadWrite (r : Fin 18) (v : Word) (s : State) :
    exec (.ringHeadWrite r v) s = execRingHeadWrite r v s := rfl

theorem exec_cmpTargetLoad (n : Fin 4) (v : Word) (s : State) :
    exec (.cmpTargetLoad n v) s = execCmpTargetLoad n v s := rfl

theorem exec_cmpEnable (n : Fin 4) (s : State) :
    exec (.cmpEnable n) s = execCmpEnable n s := rfl

theorem exec_timeLatchCapture (s : State) :
    exec (.timeLatchCapture) s = execTimeLatchCapture s := rfl

/-! ## Writes of the registers -/

/-- A register write at an aligned offset of BAR0 that is given as a number. -/
theorem exec_registerWrite_ofNat {s : State} {off : Nat} (v : Word) (hw : bar0Writes s = true) (hlt : off < 2 ^ 19)
    (ha : off % 4 = 0) : exec (.registerWrite (BitVec.ofNat 19 off) v) s = .next (hostWrite s off v) := by
  have hoff : (BitVec.ofNat 19 off).toNat = off := by rw [BitVec.toNat_ofNat, Nat.mod_eq_of_lt hlt]
  rw [exec_registerWrite, execRegisterWrite_aligned v hw (by rw [hoff]; exact ha), hoff]

/-- A write of a word of a command buffer loads its window (R38). -/
theorem hostWrite_cmdBuf (s : State) {w k : Nat} (v : Word) (hw : w < 8) (hk : k < 16) :
    hostWrite s (Reg.cmdBuf w k) v = windowLoad s w k [v] := by
  unfold Reg.cmdBuf
  have hlow : 0x01000 + 0x80 * w + 0x4 * k < 0x4000 := by omega
  have hin : within (0x01000 + 0x80 * w + 0x4 * k) 0x1000 0x400 = true := within_iff.2 (by omega)
  have hrem : (0x01000 + 0x80 * w + 0x4 * k) % 0x80 = 4 * k := by omega
  have hwin : (0x01000 + 0x80 * w + 0x4 * k - 0x1000) / 0x80 = w := by omega
  have hword : 4 * k / 4 = k := by omega
  have hbuf : 4 * k < 0x40 := by omega
  simp only [hostWrite, hlow, if_true, hostBlockWrite, hin, hrem, hwin, hword, hbuf]

/-- The ring whose block holds an offset of it. -/
theorem ringAt_ringOff {r d : Nat} (hr : r < 18) (hd : d < 0x20) : ringAt (ringOff r + d) = some r := by
  unfold ringAt ringOff
  by_cases h0 : r = 0
  · subst h0
    simp [within_iff.2 (show 0x1400 ≤ 0x1400 + d ∧ 0x1400 + d < 0x1400 + 0x20 by omega)]
  · by_cases h1 : r = 1
    · subst h1
      simp [within_iff.2 (show 0x2C00 ≤ 0x2C00 + d ∧ 0x2C00 + d < 0x2C00 + 0x20 by omega),
        within_eq_false (show 0x2C00 + d < 0x1400 ∨ 0x1400 + 0x20 ≤ 0x2C00 + d by omega)]
    · have hc : within (0x1800 + 0x20 * (r - 2) + d) 0x1400 0x20 = false := within_eq_false (by omega)
      have he : within (0x1800 + 0x20 * (r - 2) + d) 0x2C00 0x20 = false := within_eq_false (by omega)
      have hh : within (0x1800 + 0x20 * (r - 2) + d) 0x1800 0x200 = true := within_iff.2 (by omega)
      have hn : 2 + (0x1800 + 0x20 * (r - 2) + d - 0x1800) / 32 = r := by omega
      simp [h0, h1, hc, he, hh, hn]

/-- A write in the block of a ring that is neither in a window nor in the message table. -/
theorem hostWrite_ring (s : State) {r d : Nat} (v : Word) (hr : r < 18) (hd : d < 0x20) :
    hostWrite s (ringOff r + d) v =
      if d = 8 then ringCtrlWrite s r v else if d = 12 then ringHeadWrite s r v else plainWrite s (ringOff r + d) v := by
  have hat := ringAt_ringOff hr hd
  have hb : ringOff r = 0x1400 ∨ ringOff r = 0x2C00 ∨ (0x1800 ≤ ringOff r ∧ ringOff r + 0x20 ≤ 0x2000) := by
    unfold ringOff
    split
    · exact .inl rfl
    · split
      · exact .inr (.inl rfl)
      · omega
  have hlow : ringOff r + d < 0x4000 := by omega
  have hwin : within (ringOff r + d) 0x1000 0x400 = false := within_eq_false (by omega)
  have hmsi : within (ringOff r + d) 0x2000 512 = false := within_eq_false (by omega)
  simp [hostWrite, hlow, hostBlockWrite, hwin, hmsi, hat]

/-- A write of the nanoseconds of a compare unit loads its target, one of its control register sets its enable (R71). -/
theorem hostWrite_cmpUnit (s : State) {n d : Nat} (v : Word) (hn : n < 4) (hd : d = 4 ∨ d = 12) :
    hostWrite s (0x04100 + 0x20 * n + d) v = if d = 4 then cmpLoad s n v else cmpCtrl s n (bit v 0) := by
  have hhost : ¬0x04100 + 0x20 * n + d < 0x4000 := by omega
  have htime : 0x04100 + 0x20 * n + d < 0x6000 := by omega
  have hlatch : 0x04100 + 0x20 * n + d ≠ Reg.timeLatch := by unfold Reg.timeLatch; omega
  have htod : 0x04100 + 0x20 * n + d ≠ Reg.todCtrl := by unfold Reg.todCtrl; omega
  have hin : within (0x04100 + 0x20 * n + d) 0x4100 0x80 = true := within_iff.2 (by omega)
  have hrem : (0x04100 + 0x20 * n + d) % 32 = d := by omega
  have hunit : (0x04100 + 0x20 * n + d - 0x4100) / 32 = n := by omega
  simp only [hostWrite, hhost, htime, timeWrite, beq_eq_false_iff_ne.2 hlatch, beq_eq_false_iff_ne.2 htod, hin, hrem, hunit, if_false,
    if_true, Bool.false_eq_true]
  rcases hd with rfl | rfl <;> rfl

theorem cmpNs_eq (n : Nat) : Reg.cmpNs n = 0x04100 + 0x20 * n + 4 := by unfold Reg.cmpNs; omega

theorem cmpCtrl_eq (n : Nat) : Reg.cmpCtrl n = 0x04100 + 0x20 * n + 12 := by unfold Reg.cmpCtrl; omega

/-- A write of TIME_LATCH with bit 0 set takes a snapshot (R67). -/
theorem hostWrite_timeLatch (s : State) (v : Word) :
    hostWrite s Reg.timeLatch v = if bit v 0 then timeCapture s else s := by
  simp [hostWrite, timeWrite, Reg.timeLatch]

/-! ## The write and the command -/

theorem exec_registerWrite_cmdBuf {s : State} (v : Word) (hw : bar0Writes s = true) (w : Fin 8) (k : Fin 16) :
    exec (.registerWrite (BitVec.ofNat 19 (Reg.cmdBuf w k)) v) s = exec (.cmdBufWrite w k [v]) s := by
  have hlt : Reg.cmdBuf w k < 2 ^ 19 := by unfold Reg.cmdBuf; omega
  have ha : Reg.cmdBuf w k % 4 = 0 := by unfold Reg.cmdBuf; omega
  have hk : ¬16 < k.val + 1 := by omega
  rw [exec_registerWrite_ofNat v hw hlt ha, hostWrite_cmdBuf s v w.isLt k.isLt]
  simp [exec_cmdBufWrite, execCmdBufWrite, hw, hk]

/-- The registers of a ring lie in BAR0, and are aligned. -/
theorem ringOff_reg (r : Fin 18) {d : Nat} (hd : d < 0x20) (ha : d % 4 = 0) : ringOff r + d < 2 ^ 19 ∧ (ringOff r + d) % 4 = 0 := by
  have hlt := (ringOff_lt r.isLt).2
  have hal : ringOff r % 4 = 0 := by
    revert r
    decide
  omega

theorem exec_registerWrite_ringCtrl {s : State} (v : Word) (hw : bar0Writes s = true) (r : Fin 18) :
    exec (.registerWrite (BitVec.ofNat 19 (ringOff r + 8)) v) s = exec (.ringEnable r v) s := by
  obtain ⟨hlt, ha⟩ := ringOff_reg r (d := 8) (by decide) (by decide)
  rw [exec_registerWrite_ofNat v hw hlt ha, hostWrite_ring s v r.isLt (by decide)]
  simp [exec_ringEnable, execRingEnable, hw]

theorem exec_registerWrite_ringHead {s : State} (v : Word) (hw : bar0Writes s = true) (r : Fin 18) :
    exec (.registerWrite (BitVec.ofNat 19 (ringOff r + 12)) v) s = exec (.ringHeadWrite r v) s := by
  obtain ⟨hlt, ha⟩ := ringOff_reg r (d := 12) (by decide) (by decide)
  rw [exec_registerWrite_ofNat v hw hlt ha, hostWrite_ring s v r.isLt (by decide)]
  simp [exec_ringHeadWrite, execRingHeadWrite, hw]

theorem exec_registerWrite_cmpNs {s : State} (v : Word) (hw : bar0Writes s = true) (n : Fin 4) :
    exec (.registerWrite (BitVec.ofNat 19 (Reg.cmpNs n)) v) s = exec (.cmpTargetLoad n v) s := by
  have hlt : Reg.cmpNs n < 2 ^ 19 := by unfold Reg.cmpNs; omega
  have ha : Reg.cmpNs n % 4 = 0 := by unfold Reg.cmpNs; omega
  rw [exec_registerWrite_ofNat v hw hlt ha, cmpNs_eq, hostWrite_cmpUnit s v n.isLt (.inl rfl), if_pos rfl]
  simp [exec_cmpTargetLoad, execCmpTargetLoad, hw]

theorem exec_registerWrite_timeLatch {s : State} {v : Word} (hw : bar0Writes s = true) (hb : bit v 0 = true) :
    exec (.registerWrite (BitVec.ofNat 19 Reg.timeLatch) v) s = exec .timeLatchCapture s := by
  rw [exec_registerWrite_ofNat v hw (by decide) (by decide), hostWrite_timeLatch, if_pos hb]
  simp [exec_timeLatchCapture, execTimeLatchCapture, hw]

theorem exec_registerWrite_cmpCtrl {s : State} {v : Word} (hw : bar0Writes s = true) (hb : bit v 0 = true) (n : Fin 4) :
    exec (.registerWrite (BitVec.ofNat 19 (Reg.cmpCtrl n)) v) s = exec (.cmpEnable n) s := by
  have hlt : Reg.cmpCtrl n < 2 ^ 19 := by unfold Reg.cmpCtrl; omega
  have ha : Reg.cmpCtrl n % 4 = 0 := by unfold Reg.cmpCtrl; omega
  rw [exec_registerWrite_ofNat v hw hlt ha, cmpCtrl_eq, hostWrite_cmpUnit s v n.isLt (.inr rfl), if_neg (by decide), hb]
  simp [exec_cmpEnable, execCmpEnable, hw]

end Sys2Proof.Machine

namespace Sys2Proof.Proofs
open Sys2Proof.Machine

/-- Settles O30: each of these registers, by what hostWrite does at its offset. -/
theorem registerWritesAsCommands : Obligations.RegisterWritesAsCommands := by
  unfold Obligations.RegisterWritesAsCommands
  intro s v hw write
  exact ⟨exec_registerWrite_cmdBuf v hw, fun r => ⟨exec_registerWrite_ringCtrl v hw r, exec_registerWrite_ringHead v hw r⟩,
    exec_registerWrite_cmpNs v hw, exec_registerWrite_timeLatch hw, fun n hb => exec_registerWrite_cmpCtrl hw hb n⟩

end Sys2Proof.Proofs
end

section
/-! # Full resets (R7, R351 to R353)

What a full reset leaves of the state before it, and what the operations around it change. -/

namespace Sys2Proof.Machine

/-- Reading a map of which only the keys of a kind are kept. -/
theorem sget_filter_key {α : Type} (d : α) (p : Nat → Bool) (m : SMap α) (k : Nat) :
    sget d (m.filter fun e => p e.1) k = if p k then sget d m k else d := by
  induction m with
  | nil => simp [sget]
  | cons e m ih =>
    obtain ⟨a, b⟩ := e
    by_cases ha : a = k
    · subst ha
      by_cases hp : p a = true <;> simp [hp, sget, ih]
    · by_cases hp : p a = true <;> simp [hp, sget, ih, ha]

/-- Registers of states with the same register file. -/
theorem reg_of_regs {s t : State} (h : t.regs = s.regs) (off : Nat) : reg t off = reg s off := by simp [reg, h]

/-- Outputs emitted one after another. -/
theorem foldl_emit {α : Type} (f : α → Out) (l : List α) (s : State) :
    l.foldl (fun s k => emit s (f k)) s = { s with out := s.out ++ l.map f } := by
  induction l generalizing s with
  | nil => simp
  | cons a l ih =>
    rw [List.foldl_cons, ih]
    simp [emit]

/-- An output that a level which is high already does not need. -/
theorem emit_unless (b : Bool) (s : State) (o : Out) :
    (if b then s else emit s o) = { s with out := s.out ++ if b then [] else [o] } := by
  cases b <;> simp [emit]

/-- The fall of PAIR_ALIVE_OUT changes the time of the last heartbeat and what left the hub. -/
theorem aliveLow_frame (s : State) :
    ∃ l, aliveLow s = { s with pair := { s.pair with beatTb := 0 }, out := s.out ++ l } := by
  unfold aliveLow
  cases aliveOut s
  · exact ⟨[], by simp⟩
  · exact ⟨[.pairAliveOut false], rfl⟩

/-! ## The full reset -/

/-- t is s after a full reset with a cause: RESET_CAUSE names it, and whether the hub had stopped; every register but the always-on ones and
the levels of CB_IRQ_CTRL holds its reset value; memories, commands, time and injection are as after reset; the queue stays (R353). -/
def ResetFrom (s t : State) (cause : Nat) : Prop :=
  reg t Reg.resetCause = BitVec.ofNat 32 (cause + (if s.integ.stopped then 256 else 0))
    ∧ (∀ off, off ≠ Reg.resetCause → off ≠ Reg.cbIrqCtrl → reg t off = if alwaysOn off then reg s off else regReset off)
    ∧ t.kennel = [] ∧ t.talkers = [] ∧ t.host.cmds = [] ∧ t.time = State.reset.time ∧ t.integ.arms = [] ∧ t.pending = s.pending

/-- The registers that a full reset leaves, before its cause is set. -/
theorem reg_resetState (s : State) (p : Power) {off : Nat} (h : off ≠ Reg.cbIrqCtrl) :
    reg (resetState s p) off = if alwaysOn off then reg s off else regReset off := by
  unfold resetState keepIrq
  rw [reg_setF_other h]
  exact sget_filter_key _ alwaysOn _ _

/-- What a full reset leaves, in terms of the state before it. -/
theorem fullReset_resetFrom (s : State) (cause : Nat) (p : Power) : ResetFrom s (fullReset s cause p) cause := by
  obtain ⟨l, hlow⟩ := aliveLow_frame s
  unfold ResetFrom fullReset
  rw [hlow]
  refine ⟨?_, fun off hc hi => ?_, rfl, rfl, rfl, rfl, rfl, rfl⟩
  · simp only [reg_setReg, if_true]
    cases s.integ.stopped <;> rfl
  · rw [reg_setReg, if_neg hc, reg_resetState _ _ hi]
    rfl

/-- The power state after a full reset is the one asked for. -/
theorem fullReset_power (s : State) (cause : Nat) (p : Power) : (fullReset s cause p).power = p := rfl

/-- The host interface after a full reset. -/
theorem fullReset_host (s : State) (cause : Nat) (p : Power) : (fullReset s cause p).host = State.reset.host := rfl

/-- What left the hub before a full reset has left it. -/
theorem mem_out_fullReset {s : State} {o : Out} (cause : Nat) (p : Power) (h : o ∈ s.out) : o ∈ (fullReset s cause p).out := by
  obtain ⟨l, hlow⟩ := aliveLow_frame s
  show o ∈ (aliveLow s).out
  rw [hlow]
  exact List.mem_append_left _ h

/-- A full reset of a hub that has the same registers, queue and stop as another. -/
theorem ResetFrom.congr {s s' t : State} {cause : Nat} (h : ResetFrom s' t cause) (hr : s'.regs = s.regs)
    (hs : s'.integ = s.integ) (hp : s'.pending = s.pending) : ResetFrom s t cause := by
  obtain ⟨hcause, hregs, hken, htalk, hcmds, htime, harms, hpend⟩ := h
  refine ⟨hs ▸ hcause, fun off hc hi => ?_, hken, htalk, hcmds, htime, harms, hp ▸ hpend⟩
  rw [hregs off hc hi, reg_of_regs hr]

/-- DEVICE_RESET and a function-level reset leave a hub that boots, with VID code 14 shown (R22, R352). -/
theorem warmReset_resetFrom (s : State) (cause : Nat) (keep : Bool) : ResetFrom s (warmReset s cause keep) cause := by
  have h := fullReset_resetFrom s cause (powerAwake s.power .boot)
  unfold warmReset
  generalize fullReset s cause (powerAwake s.power .boot) = t at h ⊢
  cases keep with
  | true => exact h
  | false => exact h

/-- After either the boot sequencer runs. -/
theorem warmReset_phase (s : State) (cause : Nat) (keep : Bool) : (warmReset s cause keep).power.phase = .boot := by
  have h := fullReset_power s cause (powerAwake s.power .boot)
  unfold warmReset
  generalize fullReset s cause (powerAwake s.power .boot) = t at h ⊢
  have ht : t.power.phase = .boot := by rw [h]; rfl
  cases keep with
  | true => exact ht
  | false => exact ht

/-- DEVICE_RESET keeps configuration space, a function-level reset does not; neither is scheduled again (R352). -/
theorem warmReset_host (s : State) (cause : Nat) (keep : Bool) :
    (warmReset s cause keep).host =
      if keep then { State.reset.host with d3 := s.host.d3, msix := s.host.msix, config := s.host.config } else State.reset.host := by
  have h := fullReset_host s cause (powerAwake s.power .boot)
  unfold warmReset
  generalize fullReset s cause (powerAwake s.power .boot) = t at h ⊢
  cases keep with
  | true => simp [h]
  | false => simp [h]

/-! ## The power enables -/

/-- Raising every power enable changes the power state and what left the hub. -/
theorem enablesUp_frame (s : State) :
    ∃ o, enablesUp s =
      { s with out := o, power := { s.power with enIo := true, enCore := true, enSd := true, enSc := List.range 8 } } := by
  unfold enablesUp
  simp only [emit_unless, foldl_emit]
  exact ⟨_, rfl⟩

/-- A step of the power enables changes the power state and what left the hub (R351). -/
theorem enableStep_frame (s : State) (k : Nat) :
    enableStep s k = { s with power := (enableStep s k).power, out := (enableStep s k).out } := by
  unfold enableStep
  simp only [emit_unless, foldl_emit]
  split
  · rfl
  · split <;> rfl

/-- The first step raises PWR_EN_IO and every PWR_EN_SC. -/
theorem enableStep_zero (s : State) :
    (enableStep s 0).power = { s.power with enIo := true, enSc := [0, 1, 2, 3, 4, 5, 6, 7] } := rfl

/-- The second step raises PWR_EN_CORE. -/
theorem enableStep_one (s : State) : (enableStep s 1).power = { s.power with enCore := true } := rfl

/-- The third step raises PWR_EN_SD. -/
theorem enableStep_two {k : Nat} (s : State) (h : 2 ≤ k) : (enableStep s k).power = { s.power with enSd := true } := by
  have h0 : k ≠ 0 := by omega
  have h1 : k ≠ 1 := by omega
  simp [enableStep, h0, h1]

/-! ## RESET_N -/

/-- What the taking of RESET_N leaves: the hub is held, its supplies are up, and the VID balls are released (R351, R352). -/
theorem resetTaken_spec (s : State) :
    (resetTaken s).power.phase = .held ∧ ResetFrom s (resetTaken s) 1 ∧ (resetTaken s).power.enIo = true
      ∧ (resetTaken s).power.enCore = true ∧ (resetTaken s).power.enSd = true ∧ (resetTaken s).power.vidOn = false
      ∧ .vidReleased ∈ (resetTaken s).out := by
  obtain ⟨o, hup⟩ := enablesUp_frame s
  have hout : .vidReleased ∈ (resetTaken s).out := mem_out_fullReset _ _ (List.mem_append_right _ List.mem_cons_self)
  have hreset : ResetFrom s (resetTaken s) 1 := by
    refine (fullReset_resetFrom _ 1 _).congr ?_ ?_ ?_ <;> simp [hup]
  have hpow : (resetTaken s).power = { powerAwake (enablesUp s).power .held with vidOn := false } := rfl
  rw [hpow, hup]
  exact ⟨rfl, hreset, rfl, rfl, rfl, rfl, hout⟩

end Sys2Proof.Machine
end

section
/-! # Memory requests that are allowed again (R30, R58, R302)

What memResume leaves unchanged: the power state, integrity and D3hot. -/

namespace Sys2Proof.Machine

/-- t has the power state, the integrity state and D3hot of s. -/
def PumpKept (s t : State) : Prop := t.power = s.power ∧ t.integ = s.integ ∧ t.host.d3 = s.host.d3

theorem PumpKept.refl (s : State) : PumpKept s s := ⟨rfl, rfl, rfl⟩

theorem PumpKept.trans {s t u : State} (h : PumpKept s t) (k : PumpKept t u) : PumpKept s u :=
  ⟨k.1.trans h.1, k.2.1.trans h.2.1, k.2.2.trans h.2.2⟩

/-- What every operation of a sequence keeps, the sequence keeps. -/
theorem PumpKept.foldl {α : Type} {f : State → α → State} (hf : ∀ s a, PumpKept s (f s a)) (l : List α) (s : State) :
    PumpKept s (l.foldl f s) :=
  List.foldlRecOn l f (.refl s) fun t ht a _ => ht.trans (hf t a)

theorem pumpKept_setF (s : State) (off hi lo v : Nat) : PumpKept s (setF s off hi lo v) := ⟨rfl, rfl, rfl⟩

theorem pumpKept_sendFetch (s : State) (slot addr rest : Nat) : PumpKept s (sendFetch s slot addr rest) := by
  unfold sendFetch
  extract_lets t
  split <;> exact ⟨rfl, rfl, rfl⟩

theorem pumpKept_pumpFetch (s : State) (c : HostCmd) : PumpKept s (pumpFetch s c) := by
  unfold pumpFetch
  split
  · split
    · exact pumpKept_sendFetch _ _ _ _
    · exact .refl s
  · exact .refl s

theorem pumpKept_pumpRefetch (s : State) (f : Refetch) : PumpKept s (pumpRefetch s f) := by
  unfold pumpRefetch
  split <;> exact ⟨rfl, rfl, rfl⟩

theorem pumpKept_pumpFar (s : State) : PumpKept s (pumpFar s) := by
  unfold pumpFar
  split
  · exact .refl s
  · split <;> exact ⟨rfl, rfl, rfl⟩

theorem pumpKept_readPump (s : State) : PumpKept s (readPump s) :=
  ((PumpKept.foldl pumpKept_pumpFetch _ s).trans (.foldl pumpKept_pumpRefetch _ _)).trans (pumpKept_pumpFar _)

theorem pumpKept_reverseIssue (s : State) : PumpKept s (reverseIssue s) := by
  unfold reverseIssue
  split
  · exact .refl s
  · have hempty : PumpKept s (setBridge s { s.bridge with reverse := [] }) := ⟨rfl, rfl, rfl⟩
    exact hempty.trans (.foldl (f := fun t (w : Nat × List Byte) => dmaWrite t w.1 w.2) (fun _ _ => ⟨rfl, rfl, rfl⟩) _ _)

theorem pumpKept_message (s : State) (v : Nat) : PumpKept s (message s v) := by
  obtain ⟨r, o, h⟩ := message_frame s v
  rw [h]
  exact ⟨rfl, rfl, rfl⟩

theorem pumpKept_messageNow (s : State) (v : Nat) : PumpKept s (messageNow s v) := by
  unfold messageNow
  split
  · exact (pumpKept_setF s _ _ _ _).trans (pumpKept_message _ v)
  · exact .refl s

/-- Far writes, reads and messages that go out again change none of these. -/
theorem pumpKept_memResume (s : State) : PumpKept s (memResume s) := by
  unfold memResume
  split
  · exact .refl s
  · exact ((pumpKept_reverseIssue s).trans (pumpKept_readPump _)).trans (.foldl pumpKept_messageNow _ _)

end Sys2Proof.Machine
end

section
/-! # The loss of the link of an Ethernet port (R14, R269, R285)

A link that goes down, and what waited for it, raises no link, injects and loses no clock, and counts nothing in the drop counters of
received frames. -/

namespace Sys2Proof.Machine

/-- From s to t no integrity state changes, no link comes up, and no drop counter of received frames counts. -/
def LinksFell (s t : State) : Prop :=
  t.integ = s.integ ∧ (∀ n, (eth s n).link = false → (eth t n).link = false)
    ∧ ∀ (n : Fin 4) k, k < 32 → total t (Reg.ethRxDrop n) k = total s (Reg.ethRxDrop n) k

theorem LinksFell.refl (s : State) : LinksFell s s := ⟨rfl, fun _ h => h, fun _ _ _ => rfl⟩

theorem LinksFell.trans {s t u : State} (h : LinksFell s t) (k : LinksFell t u) : LinksFell s u := by
  obtain ⟨hi, hl, ht⟩ := h
  obtain ⟨ki, kl, kt⟩ := k
  exact ⟨ki.trans hi, fun n hn => kl n (hl n hn), fun n i hk => (kt n i hk).trans (ht n i hk)⟩

/-- Operations that change neither integrity nor Ethernet ports nor totals. -/
theorem LinksFell.of_same {s t : State} (hi : t.integ = s.integ) (he : t.eth = s.eth) (ht : t.totals = s.totals) : LinksFell s t :=
  ⟨hi, fun n h => by rw [eth, he]; exact h, fun n k _ => by rw [total, ht]; rfl⟩

/-- What every operation of a sequence keeps, the sequence keeps. -/
theorem LinksFell.foldl {α : Type} {f : State → α → State} (hf : ∀ s a, LinksFell s (f s a)) (l : List α) (s : State) :
    LinksFell s (l.foldl f s) :=
  List.foldlRecOn l f (.refl s) fun t ht a _ => ht.trans (hf t a)

/-- A counter in another register than the drop counters. -/
theorem linksFell_count (s : State) {off hi lo m : Nat} (hlo : lo < 32) (h : ∀ n : Fin 4, off ≠ Reg.ethRxDrop n) :
    LinksFell s (count s off hi lo m) := by
  refine ⟨rfl, fun _ h => h, fun n k hk => ?_⟩
  have hne : 32 * Reg.ethRxDrop n + k ≠ 32 * off + lo := by
    have := h n
    omega
  simp [total, count, setF, hne]

theorem linksFell_setF (s : State) (off hi lo v : Nat) : LinksFell s (setF s off hi lo v) := .of_same rfl rfl rfl

/-- An Ethernet port changes, and its link does not come up. -/
theorem linksFell_setEth (s : State) (n : Nat) {v : EthPort} (h : (eth s n).link = false → v.link = false) :
    LinksFell s (setEth s n v) := by
  refine ⟨rfl, fun m hm => ?_, fun _ _ _ => rfl⟩
  simp only [eth, setEth_eth, sget_sset]
  split
  · rename_i hmn
    subst hmn
    exact h hm
  · exact hm

theorem linksFell_event (s : State) (kind det unit d2 d3 : Nat) (inj : Bool) (t : Stamp) :
    LinksFell s (event s kind det unit d2 d3 inj t) := by
  obtain ⟨r, g, o, q, f, h⟩ := event_frame s kind det unit d2 d3 inj t
  rw [h]
  exact .of_same rfl rfl rfl

theorem linksFell_finish (s : State) (k st r0 r1 : Nat) : LinksFell s (finish s k st r0 r1) := by
  obtain ⟨r, g, o, fr, hd, h⟩ := finishAt_frame s k st r0 r1 (now s)
  rw [finish, h]
  exact .of_same rfl rfl rfl

/-! ## Copies that are discarded (R230, R367) -/

/-- LQ_FLUSHED of a listener is no drop counter. -/
theorem lqFlushed_ne_ethRxDrop (l : Nat) (n : Fin 4) : Reg.lqFlushed l ≠ Reg.ethRxDrop n := by
  unfold Reg.lqFlushed Reg.ethRxDrop
  omega

/-- ETH_TX_ERR of a port is no drop counter. -/
theorem ethTxErr_ne_ethRxDrop (m : Nat) (n : Fin 4) : Reg.ethTxErr m ≠ Reg.ethRxDrop n := by
  unfold Reg.ethTxErr Reg.ethRxDrop
  omega

theorem linksFell_flushCopies (s : State) (p : Copy → Bool) : LinksFell s (flushCopies s p).1 := by
  unfold flushCopies
  extract_lets gone q x
  have hx : LinksFell s x := .of_same rfl rfl rfl
  have hcount : ∀ (t : State) (c : Copy), LinksFell t (count t (Reg.lqFlushed c.listener) 31 16 1) :=
    fun t c => linksFell_count t (by decide) (lqFlushed_ne_ethRxDrop c.listener)
  exact hx.trans (.foldl hcount gone x)

theorem linksFell_flushEndpoint (s : State) (kind num : Nat) : LinksFell s (flushEndpoint s kind num).1 :=
  (linksFell_flushCopies s fun c => boundTo c.w0 kind num none).trans (.of_same rfl rfl rfl)

theorem linksFell_flushOwner (s : State) (e : Nat) : LinksFell s (flushOwner s e) := by
  unfold flushOwner
  obtain ⟨k, n⟩ := endpointKind e
  dsimp only
  split
  · exact .refl s
  · exact linksFell_flushEndpoint s _ _

theorem linksFell_releaseDone (s : State) (e : Nat) : LinksFell s (releaseDone s e) := by
  unfold releaseDone
  split
  · have hdis : LinksFell s (disown s e) := .of_same rfl rfl rfl
    exact hdis.trans (linksFell_flushOwner _ e)
  · exact .refl s

/-! ## The link and what waited for it (R269, R285) -/

theorem linksFell_ethDropLaunches (s : State) (n status : Nat) : LinksFell s (ethDropLaunches s n status) := by
  unfold ethDropLaunches
  extract_lets v x
  have hx : LinksFell s x := linksFell_setEth s n (fun h => h)
  refine hx.trans (.foldl (fun t f => ?_) v.launches x)
  refine .trans ?_ (linksFell_finish _ _ _ _ _)
  split
  · exact linksFell_count t (by decide) (ethTxErr_ne_ethRxDrop n)
  · exact .refl t

theorem linksFell_ethAbandon (s : State) (n : Nat) : LinksFell s (ethAbandon s n) := by
  have hset : LinksFell s (setEth s n { eth s n with tx := none }) := linksFell_setEth s n (fun h => h)
  have herr := hset.trans (linksFell_count (hi := 23) (lo := 16) (m := 1) _ (by decide) (ethTxErr_ne_ethRxDrop n))
  unfold ethAbandon
  extract_lets v t
  split
  · exact .refl s
  · exact herr.trans (linksFell_finish _ _ _ _ _)
  · exact herr.trans (linksFell_releaseDone _ _)
  · exact hset

/-- The link goes down, and is down (R269). -/
theorem ethLinkDown_spec (s : State) (n : Nat) :
    LinksFell s (ethLinkDown s n) ∧ (eth (ethLinkDown s n) n).link = false := by
  unfold ethLinkDown
  split
  · rename_i hdown
    exact ⟨.refl s, by simpa using hdown⟩
  · extract_lets v q x y
    have hx : LinksFell s x := linksFell_setEth s n (fun _ => rfl)
    have hy : LinksFell x y := (linksFell_ethAbandon x n).trans (linksFell_ethDropLaunches _ n stLinkFailed)
    have hafter := hy.trans (linksFell_event y 2 0 (unitEth n) 0 0 false (now y))
    exact ⟨hx.trans hafter, hafter.2.1 n (by simp [x, eth])⟩

theorem linksFell_ethStop (s : State) (n slot : Nat) : LinksFell s (ethStop s n slot) := by
  unfold ethStop
  extract_lets v x y
  have hx : LinksFell s x := (linksFell_setF s _ _ _ _).trans (linksFell_setEth _ n (fun h => h))
  have hflush := (hx.trans (linksFell_ethDropLaunches x n stDiscarded)).trans (linksFell_flushEndpoint _ 3 n)
  exact ((hflush.trans (linksFell_releaseDone _ (epEth n))).trans (ethLinkDown_spec _ n).1).trans (linksFell_finish _ _ _ _ _)

theorem linksFell_ethFrameEnd (s : State) (n : Nat) : LinksFell s (ethFrameEnd s n) := by
  unfold ethFrameEnd
  extract_lets x
  have hx : LinksFell s x := linksFell_releaseDone s (epEth n)
  split
  · exact hx.trans (linksFell_ethStop _ _ _)
  · exact hx

/-! ## A partial frame (R14) -/

/-- A frame that was being received is counted in one field of the drop counter of its port. -/
theorem partialDropped_spec (s : State) (n : Nat) :
    (partialDropped s n).integ = s.integ ∧ ∃ k, (k = 16 ∨ k = 8 ∨ k = 0)
      ∧ total (partialDropped s n) (Reg.ethRxDrop n) k = (total s (Reg.ethRxDrop n) k + 1) % 2 ^ 32 := by
  unfold partialDropped
  dsimp only [takeWord]
  split
  · exact ⟨rfl, 16, .inl rfl, total_count _ _ _ _ _⟩
  · split
    · exact ⟨rfl, 8, .inr (.inl rfl), total_count _ _ _ _ _⟩
    · exact ⟨rfl, 0, .inr (.inr rfl), total_count _ _ _ _ _⟩

/-- What the loss of a receive clock does to its port: the link is down, and a frame in reception is counted (R14, R269). -/
theorem execMonitoredClockLoss_rx {s : State} (n : Fin 4) (midFrame : Bool) (hp : powered s = true) (hl : n.val ∉ s.integ.lost) :
    ∃ t, execMonitoredClockLoss ⟨.rx n, midFrame⟩ s = .next t ∧ t.integ.lost = s.integ.lost ++ [n.val] ∧ (eth t n).link = false
      ∧ (midFrame = true → (eth s n).link = true → ∃ k, (k = 16 ∨ k = 8 ∨ k = 0)
        ∧ total t (Reg.ethRxDrop n) k = (total s (Reg.ethRxDrop n) k + 1) % 2 ^ 32) := by
  have hlost : s.integ.lost.contains n.val = false := by simpa using hl
  simp only [execMonitoredClockLoss, clockNum, hp, hlost, Bool.not_true, Bool.or_false, Bool.false_eq_true, if_false, if_true,
    n.isLt, decide_true, Bool.true_and]
  generalize hs : ({ s with integ := { s.integ with lost := s.integ.lost ++ [n.val] } } : State) = x
  have hxlost : x.integ.lost = s.integ.lost ++ [n.val] := by rw [← hs]
  have hxeth : eth x n = eth s n := by rw [← hs]; rfl
  have hxtot : ∀ off k, total x off k = total s off k := by rw [← hs]; exact fun _ _ => rfl
  generalize hy : (if (midFrame && (eth x n).link) = true then partialDropped x n else x) = y
  have hylost : y.integ.lost = s.integ.lost ++ [n.val] := by
    rw [← hy, ← hxlost]
    split
    · rw [(partialDropped_spec x n).1]
    · rfl
  obtain ⟨hdown, hlink⟩ := ethLinkDown_spec y n
  obtain ⟨hi, hkeep, htot⟩ := hdown.trans (linksFell_ethFrameEnd (ethLinkDown y n) n)
  refine ⟨_, rfl, by rw [hi, hylost], (linksFell_ethFrameEnd _ n).2.1 n hlink, fun hm hu => ?_⟩
  obtain ⟨-, k, hk3, hcount⟩ := partialDropped_spec x n
  have hyeq : y = partialDropped x n := by rw [← hy, hxeth, hm, hu]; rfl
  refine ⟨k, hk3, ?_⟩
  rw [htot n k (by omega), hyeq, hcount, hxtot]

end Sys2Proof.Machine
end

section
/-! # Power, resets, boot, monitored clocks (R7, R14, R29, R30, R349 to R357, R360, R371) -/

namespace Sys2Proof.Machine

/-! ## Supplies -/

/-- A step of the power enables and a phase change the power state and what left the hub. -/
theorem enableStep_phase_frame (s : State) (k : Nat) (ph : Phase) :
    let t := setPower (enableStep s k) { (enableStep s k).power with phase := ph }
    t = { s with power := t.power, out := t.out } := by
  rw [enableStep_frame s k]
  rfl

/-- VAON rises: everything takes its reset value, and the straps are sampled (R352). -/
theorem execPowerOnReset_spec {s : State} (straps : Straps) (h : s.power.phase = .off) :
    ∃ t, execPowerOnReset straps s = .next t ∧ t.power.phase = .rails 0 ∧ t.power.ref25 = straps.refsel ∧ t.power.sideB = straps.side
      ∧ t.power.enCore = false ∧ t.power.vidOn = false
      ∧ t = { State.reset with pending := s.pending, power := t.power, out := s.out ++ [.vidReleased], freeCount := s.freeCount } :=
  ⟨_, by simp only [execPowerOnReset, h, beq_self_eq_true, if_true]; rfl, rfl, rfl, rfl, rfl, rfl, rfl⟩

/-- A step of the power enables during a power-up: the third leaves the hub held by RESET_N (R351). -/
theorem execPwrEnStep_rails {s : State} {k : Nat} (h : s.power.phase = .rails k) :
    ∃ t, execPwrEnStep s = .next t ∧ t.power.phase = (if 2 ≤ k then .held else .rails (k + 1))
      ∧ (k = 0 → t.power.enIo = true ∧ t.power.enSc = [0, 1, 2, 3, 4, 5, 6, 7]) ∧ (k = 1 → t.power.enCore = true)
      ∧ (2 ≤ k → t.power.enSd = true) ∧ t = { s with power := t.power, out := t.out } := by
  refine ⟨setPower (enableStep s k) { (enableStep s k).power with phase := if 2 ≤ k then .held else .rails (k + 1) },
    by simp only [execPwrEnStep, h], rfl, fun h0 => ?_, fun h1 => ?_, fun h2 => ?_, enableStep_phase_frame s k _⟩
  · subst h0
    simp [enableStep_zero]
  · subst h1
    simp [enableStep_one]
  · simp [enableStep_two s h2]

/-- A step of the power enables during a wake (R362). -/
theorem execPwrEnStep_waking {s : State} {k : Nat} (h : s.power.phase = .waking k) (hk : k < 3) :
    ∃ t, execPwrEnStep s = .next t ∧ t.power.phase = .waking (k + 1) ∧ t = { s with power := t.power, out := t.out } :=
  ⟨setPower (enableStep s k) { (enableStep s k).power with phase := .waking (k + 1) },
    by simp only [execPwrEnStep, h, Nat.not_le.2 hk, if_false], rfl, enableStep_phase_frame s k _⟩

/-- The loss of VAON leaves nothing of the state (R360). -/
theorem execVaonRemoved_spec {s : State} (h : s.power.phase ≠ .off) :
    ∃ t, execVaonRemoved s = .next t ∧ t.power.phase = .off ∧ t.power.enIo = false
      ∧ t = { State.reset with pending := s.pending, power := t.power, out := t.out, freeCount := s.freeCount } := by
  obtain ⟨l, hlow⟩ := aliveLow_frame s
  refine ⟨_, by simp [execVaonRemoved, h]; rfl, rfl, rfl, ?_⟩
  rw [hlow]

/-! ## RESET_N (R351) -/

theorem execResetN_short {s : State} {ns : Nat} (h : ns < 1000) : execResetN ns s = .next s := by simp [execResetN, h]

theorem execResetN_long {s : State} {ns : Nat} (ha : resetActs s = true) (h : 10000 ≤ ns) :
    execResetN ns s = .next (resetTaken s) := by
  simp [execResetN, ha, h, show ¬ns < 1000 by omega]

/-- Between 1 µs and 10 µs either outcome may occur. -/
theorem execResetN_between {s : State} {ns : Nat} (ha : resetActs s = true) (hlo : 1000 ≤ ns) (hhi : ns < 10000) :
    ∃ t, execResetN ns s = .next t ∧ (t.power.phase = .held ∨ t = { s with freeCount := s.freeCount + 1 }) := by
  refine ⟨_, by simp only [execResetN, ha, Nat.not_lt.2 hlo, Nat.not_le.2 hhi, decide_false, Bool.not_true, Bool.or_false,
    Bool.false_eq_true, if_false]; rfl, ?_⟩
  split
  · exact .inl (resetTaken_spec _).1
  · exact .inr rfl

/-- The release of RESET_N starts the boot sequencer, with the straps and the bank levels of that moment (R351, R354, R371). -/
theorem execResetNRelease_spec {s : State} (straps : Straps) (h : s.power.phase = .held) :
    ∃ t, execResetNRelease straps s = .next t ∧ t.power.phase = .boot ∧ t.power.ref25 = straps.refsel ∧ t.power.sideB = straps.side
      ∧ t.power.io33 = straps.io33 ∧ t.power.vidOn = true ∧ t.out = s.out ++ [.vid 14] ∧ t = { s with power := t.power, out := t.out } :=
  ⟨_, by simp only [execResetNRelease, h, beq_self_eq_true, if_true]; rfl, rfl, rfl, rfl, rfl, rfl, rfl, rfl⟩

/-! ## Resets that keep the link trained (R352) -/

/-- A DEVICE_RESET starts 2 µs after its acceptance, at once before TB runs. -/
theorem execDeviceResetStart_due {s : State} {tb : Nat} (hp : powered s = true) (ht : s.host.resetAt = some tb)
    (hd : s.time.locked = false ∨ 500 ≤ s.time.tb - tb) : execDeviceResetStart s = .next (warmReset s 2 true) := by
  have hdue : (!s.time.locked || decide (2 * Config.tickUs ≤ sinceTb s tb)) = true := by
    rcases hd with hd | hd
    · simp [hd]
    · simp [sinceTb, Config.tickUs, hd]
  simp only [execDeviceResetStart, ht, hp, hdue, Bool.and_self, if_true]

theorem execFunctionLevelReset_linked {s : State} (hp : powered s = true) (hl : 8 ∉ s.integ.lost) :
    execFunctionLevelReset s = .next (warmReset s 3 false) := by simp [execFunctionLevelReset, hp, hl]

/-! ## D3hot (R30) -/

theorem execD3hotTransition_enter {s : State} (hp : powered s = true) :
    execD3hotTransition true s = .next { s with host := { s.host with d3 := true } } := by simp [execD3hotTransition, hp]

/-- Leaving D3hot lets memory requests out again, and changes no power state. -/
theorem execD3hotTransition_leave {s : State} (hp : powered s = true) :
    ∃ t, execD3hotTransition false s = .next t ∧ t.host.d3 = false ∧ t.power = s.power := by
  obtain ⟨hpow, -, hd3⟩ := pumpKept_memResume { s with host := { s.host with d3 := false } }
  exact ⟨_, by simp [execD3hotTransition, hp], hd3, hpow⟩

/-! ## Monitored clocks (R14) -/

/-- The loss of a clock that belongs to no Ethernet port. -/
theorem execMonitoredClockLoss_other {s : State} {c : MonClock} (midFrame : Bool) (hp : powered s = true)
    (hl : clockNum c ∉ s.integ.lost) (hc : 4 ≤ clockNum c) :
    execMonitoredClockLoss ⟨c, midFrame⟩ s = .next { s with integ := { s.integ with lost := s.integ.lost ++ [clockNum c] } } := by
  simp [execMonitoredClockLoss, hp, hl, Nat.not_lt.2 hc]

/-- A clock of an Ethernet port is one of four. -/
theorem clockNum_lt_four {c : MonClock} (h : clockNum c < 4) : ∃ n, c = .rx n := by
  cases c with
  | rx n => exact ⟨n, rfl⟩
  | pcie => exact absurd h (by decide)
  | jtag => exact absurd h (by decide)

/-- The loss of a clock: it counts as absent; that of an Ethernet port takes its link down, and drops a frame in reception. -/
theorem execMonitoredClockLoss_spec {s : State} (c : MonClock) (midFrame : Bool) (hp : powered s = true) (hl : clockNum c ∉ s.integ.lost) :
    ∃ t, execMonitoredClockLoss ⟨c, midFrame⟩ s = .next t ∧ t.integ.lost = s.integ.lost ++ [clockNum c]
      ∧ (∀ n : Fin 4, c = .rx n → (eth t n).link = false)
      ∧ (∀ n : Fin 4, c = .rx n → midFrame = true → (eth s n).link = true → ∃ k, (k = 16 ∨ k = 8 ∨ k = 0)
        ∧ total t (Reg.ethRxDrop n) k = (total s (Reg.ethRxDrop n) k + 1) % 2 ^ 32)
      ∧ (4 ≤ clockNum c → t = { s with integ := t.integ }) := by
  by_cases hc : clockNum c < 4
  · obtain ⟨n, rfl⟩ := clockNum_lt_four hc
    obtain ⟨t, hexec, hlost, hlink, hdrop⟩ := execMonitoredClockLoss_rx n midFrame hp hl
    refine ⟨t, hexec, hlost, fun m hm => ?_, fun m hm => ?_, fun h4 => absurd hc (Nat.not_lt.2 h4)⟩
    · cases hm
      exact hlink
    · cases hm
      exact hdrop
  · have hrx : ∀ n : Fin 4, c ≠ .rx n := by
      rintro n rfl
      exact hc n.isLt
    exact ⟨_, execMonitoredClockLoss_other midFrame hp hl (Nat.not_lt.1 hc), rfl, fun n hn => absurd hn (hrx n),
      fun n hn => absurd hn (hrx n), fun _ => rfl⟩

/-- The return of a clock; with that of PX memory requests go out again. -/
theorem execMonitoredClockReturn_spec {s : State} {c : MonClock} (hl : clockNum c ∈ s.integ.lost) :
    ∃ t, execMonitoredClockReturn c s = .next t ∧ t.integ.lost = s.integ.lost.filter (fun k => k != clockNum c)
      ∧ (clockNum c ≠ 8 → t = { s with integ := t.integ }) := by
  have hin : s.integ.lost.contains (clockNum c) = true := by simpa using hl
  simp only [execMonitoredClockReturn, hin, Bool.not_true, Bool.false_eq_true, if_false]
  generalize hx : ({ s with integ := { s.integ with lost := s.integ.lost.filter (· != clockNum c) } } : State) = x
  have hxlost : x.integ.lost = s.integ.lost.filter (fun k => k != clockNum c) := by rw [← hx]
  by_cases h8 : clockNum c = 8
  · obtain ⟨-, hinteg, -⟩ := pumpKept_memResume x
    exact ⟨memResume x, by simp [h8], by rw [hinteg, hxlost], fun h => absurd h8 h⟩
  · exact ⟨x, by simp [h8], hxlost, fun _ => by rw [← hx]⟩

/-! ## The end of the boot (R354, R357) -/

/-- Registers after the power state changes. -/
theorem reg_setPower (s : State) (p : Power) (off : Nat) : reg (setPower s p) off = reg s off := rfl

/-- A register that the end of the boot does not write. -/
theorem reg_bootEnd_other (s : State) (result : Nat) (first : Option Nat) (skipped : Nat) (valid : Bool) {off : Nat}
    (hb : off ≠ Reg.bootStatus) (hh : off ≠ Reg.hostStatus) : reg (bootEnd s result first skipped valid) off = reg s off := by
  rw [bootEnd, reg_setPower, reg_setF_other hh, reg_setReg, if_neg hb]

/-- The boot has ended with a result: BOOT_STATUS names it, BOOT_BUSY is clear, and the image is valid where the result is 0 (R357). -/
def BootEnded (t : State) (result : Nat) : Prop :=
  t.power.phase = .run ∧ regF t Reg.bootStatus 31 28 = result ∧ regB t Reg.hostStatus 1 = false
    ∧ regB t Reg.hostStatus 2 = (result == 0)

/-- What the end of the boot shows. -/
theorem bootEnd_ended (s : State) {result : Nat} (h : result < 16) (first : Option Nat) (skipped : Nat) {valid : Bool}
    (hv : valid = (result == 0)) : BootEnded (bootEnd s result first skipped valid) result := by
  subst hv
  unfold bootEnd
  extract_lets x y
  have hstatus : reg y Reg.hostStatus = setFld (reg x Reg.hostStatus) 2 1 (b2n (result == 0) * 2) := by
    simp only [y, setF, reg_setReg, if_true]
  have hbits := setFld_toNat (w := reg x Reg.hostStatus) (hi := 2) (lo := 1) (v := b2n (result == 0) * 2) (by decide) (by decide)
  have hresult : reg y Reg.bootStatus = BitVec.ofNat 32 (result * 2 ^ 28 + first.getD 0 % 4096 * 65536 + min skipped 65535) := by
    rw [reg_setF_other (by decide), reg_setReg, if_pos rfl]
  refine ⟨rfl, ?_, ?_, ?_⟩
  · rw [regF, reg_setPower, hresult, fld, BitVec.toNat_ofNat, Nat.shiftRight_eq_div_pow]
    omega
  · rw [regB, reg_setPower, hstatus, bit, hbits, Nat.shiftRight_eq_div_pow]
    cases result == 0 <;> simp [b2n] <;> omega
  · rw [regB, reg_setPower, hstatus, bit, hbits, Nat.shiftRight_eq_div_pow]
    cases result == 0 <;> simp [b2n] <;> omega

/-- BOOT_TIME after the command's first write. -/
theorem reg_bootTime (s : State) (us : Word) : reg (setReg s Reg.bootTime us) Reg.bootTime = us := by
  rw [reg_setReg, if_pos rfl]

/-- A boot of a flash without a table ends with result 1, and shows its time. -/
theorem execBoot_noTable {s : State} (ht : ticking s = true) (hb : s.power.phase = .boot) (ns : Nat) :
    ∃ t, execBoot ⟨.noTable, ns⟩ s = .next t ∧ BootEnded t 1 ∧ reg t Reg.bootTime = BitVec.ofNat 32 (bootUs s ns) := by
  have htime := reg_bootTime s (BitVec.ofNat 32 (bootUs s ns))
  simp only [execBoot, ht, hb, beq_self_eq_true, Bool.and_self, Bool.not_true, Bool.false_eq_true, if_false]
  generalize setReg s Reg.bootTime (BitVec.ofNat 32 (bootUs s ns)) = x at htime ⊢
  refine ⟨_, rfl, bootEnd_ended x (by decide) none 0 rfl, ?_⟩
  rw [reg_bootEnd_other x _ _ _ _ (by decide) (by decide), htime]

/-- A boot whose copy of the image fails ends with result 2 or 3, and shows its time. -/
theorem execBoot_copyFailed {s : State} (ht : ticking s = true) (hb : s.power.phase = .boot) (size : Nat) (h : List Byte) (ns : Nat) :
    ∃ t, execBoot ⟨.copyFailed size h, ns⟩ s = .next t ∧ BootEnded t (if headerBad h then 2 else 3)
      ∧ reg t Reg.bootTime = BitVec.ofNat 32 (bootUs s ns) ∧ t.host.flashSize = some size := by
  have htime := reg_bootTime s (BitVec.ofNat 32 (bootUs s ns))
  simp only [execBoot, ht, hb, beq_self_eq_true, Bool.and_self, Bool.not_true, Bool.false_eq_true, if_false]
  generalize setReg s Reg.bootTime (BitVec.ofNat 32 (bootUs s ns)) = y at htime ⊢
  generalize hx : ({ y with host := { y.host with flashSize := some size } } : State) = x
  have hxtime : reg x Reg.bootTime = BitVec.ofNat 32 (bootUs s ns) := by rw [← htime, ← hx]; rfl
  have hxsize : x.host.flashSize = some size := by rw [← hx]
  refine ⟨bootEnd x (if headerBad h then 2 else 3) none 0 false, ?_, ?_, ?_, hxsize⟩
  · rw [← hx]
  · cases headerBad h
    · exact bootEnd_ended x (by decide) none 0 rfl
    · exact bootEnd_ended x (by decide) none 0 rfl
  · rw [reg_bootEnd_other x _ _ _ _ (by decide) (by decide), hxtime]

/-- A boot of a whole image ends with its result. -/
theorem execBoot_image {s : State} (ht : ticking s = true) (hb : s.power.phase = .boot) (size : Nat) (img : List Byte) (ns : Nat) :
    ∃ t, execBoot ⟨.image size img, ns⟩ s = .next t ∧ BootEnded t (bootResult img) := by
  simp only [execBoot, ht, hb, beq_self_eq_true, Bool.and_self, Bool.not_true, Bool.false_eq_true, if_false]
  generalize ({ setReg s Reg.bootTime (BitVec.ofNat 32 (bootUs s ns)) with
    host := { (setReg s Reg.bootTime (BitVec.ofNat 32 (bootUs s ns))).host with flashSize := some size } } : State) = x
  unfold bootResult
  by_cases hhead : headerBad img = true
  · simp only [hhead, if_true]
    exact ⟨_, rfl, bootEnd_ended x (by decide) none 0 rfl⟩
  · by_cases hbody : bodyBad img = true
    · simp only [hhead, hbody, if_true]
      exact ⟨_, rfl, bootEnd_ended _ (by decide) none 0 rfl⟩
    · by_cases hprog : (progLen img != 0 && progBad img) = true
      · simp only [hhead, hbody, bootImage, hprog, if_true]
        exact ⟨_, rfl, bootEnd_ended _ (by decide) none 0 rfl⟩
      · simp only [hhead, hbody, bootImage, hprog]
        exact ⟨_, rfl, bootEnd_ended _ (by decide) _ _ rfl⟩

end Sys2Proof.Machine

namespace Sys2Proof.Proofs
open Sys2Proof.Machine

/-- Settles O55: each command, by the lemma that says what it does. -/
theorem powerAndResets : Obligations.PowerAndResets := by
  unfold Obligations.PowerAndResets
  intro s
  refine ⟨fun straps => execPowerOnReset_spec straps, fun k => execPwrEnStep_rails, fun k => execPwrEnStep_waking,
    fun ns hacts => ⟨execResetN_short, fun hlong => ⟨_, execResetN_long hacts hlong, resetTaken_spec s⟩, execResetN_between hacts⟩,
    fun straps => execResetNRelease_spec straps, fun tb hp ht hd => ?_, fun hp hl => ?_,
    fun hp => by simp [exec, execBar0Usable, hp], execVaonRemoved_spec,
    fun hp => ⟨execD3hotTransition_enter hp, execD3hotTransition_leave hp⟩, execMonitoredClockLoss_spec,
    fun c => execMonitoredClockReturn_spec, fun ht hb => ?_⟩
  · refine ⟨_, execDeviceResetStart_due hp ht hd, warmReset_phase s 2 true, warmReset_resetFrom s 2 true, ?_⟩
    rw [warmReset_host]
    exact ⟨rfl, rfl, rfl⟩
  · refine ⟨_, execFunctionLevelReset_linked hp hl, warmReset_phase s 3 false, warmReset_resetFrom s 3 false, ?_⟩
    rw [warmReset_host]
    exact ⟨rfl, rfl⟩
  · intro ends ns us
    exact ⟨execBoot_noTable ht hb ns, fun size h => execBoot_copyFailed ht hb size h ns, fun size img => execBoot_image ht hb size img ns⟩

end Sys2Proof.Proofs
end

section
/-! # The checked memories across a step

Every step keeps the checked memories in canonical form. The proof has two layers. An operation that writes none of the nine memories
leaves them all: `memOf (f s) = memOf s`, one equation an operation, which simp rewrites with. An operation that writes some of them
does so by `memPut`, or clears a part, so that it keeps their canonical form: `MemsWf (memOf s)` gives `MemsWf (memOf (f s))`. -/

namespace Sys2Proof.Machine

/-- The memory that a name picks among nine. -/
def memPick (kennel scratch slots prog routes lsts sets talkers pool : SMap MemWord) : Mem → SMap MemWord
  | .kennel => kennel
  | .scratch => scratch
  | .slots => slots
  | .prog => prog
  | .routes => routes
  | .lsts => lsts
  | .sets => sets
  | .talkers => talkers
  | .pool => pool

/-- The memories of a state that is given field by field. -/
@[simp] theorem memOf_mk (pending power time vid regions tdcUse regs totals host rings kennel scratch slots prog routes lsts sets talkers
    pool herder pack lq evIn evOut serial can eth dups bridge panels panelSet ledgers integ pair tap freeCount out) :
    memOf (State.mk pending power time vid regions tdcUse regs totals host rings kennel scratch slots prog routes lsts sets talkers pool
      herder pack lq evIn evOut serial can eth dups bridge panels panelSet ledgers integ pair tap freeCount out)
      = memPick kennel scratch slots prog routes lsts sets talkers pool := by
  funext m
  cases m <;> rfl

/-- A state in which every memory is that of another state. -/
@[simp] theorem memPick_eta (s : State) :
    memPick s.kennel s.scratch s.slots s.prog s.routes s.lsts s.sets s.talkers s.pool = memOf s := by
  funext m
  cases m <;> rfl

/-- The memories of a state chosen by a condition. -/
@[simp] theorem memOf_ite (c : Prop) [Decidable c] (s t : State) : memOf (if c then s else t) = if c then memOf s else memOf t :=
  apply_ite memOf c s t

@[simp] theorem memOf_fst_ite {α : Type} (c : Prop) [Decidable c] (x y : State × α) :
    memOf (if c then x else y).1 = if c then memOf x.1 else memOf y.1 := by split <;> rfl

@[simp] theorem memOf_s_ite (c : Prop) [Decidable c] (x y : MemRead) :
    memOf (if c then x else y).s = if c then memOf x.s else memOf y.s := by split <;> rfl

/-- The state in a pair that a computation gives. -/
theorem memOf_of_eq {α : Type} {x : State × α} {t : State} {a : α} (h : x = (t, a)) : memOf t = memOf x.1 := by rw [h]

/-- A fold of steps each of which leaves the memories. -/
@[simp] theorem memOf_foldl {α : Type} {f : State → α → State} (hf : ∀ s a, memOf (f s a) = memOf s) (l : List α) (s : State) :
    memOf (l.foldl f s) = memOf s := by
  induction l generalizing s with
  | nil => rfl
  | cons a l ih => exact (ih (f s a)).trans (hf s a)

/-- Every memory is in canonical form. -/
def MemsWf (v : Mem → SMap MemWord) : Prop := ∀ m, swf (memDefault m) (v m) = true

theorem memoryWf_iff {s : State} : Memory.wf s = true ↔ MemsWf (memOf s) := by
  refine ⟨fun h m => swf_memOf m h, fun h => ?_⟩
  simp only [Memory.wf, Bool.and_eq_true]
  exact ⟨⟨⟨⟨⟨⟨⟨⟨h .kennel, h .scratch⟩, h .slots⟩, h .prog⟩, h .routes⟩, h .lsts⟩, h .sets⟩, h .talkers⟩, h .pool⟩

theorem memsWf_of_eq {α : Type} {x : State × α} {t : State} {a : α} (h : x = (t, a)) (hx : MemsWf (memOf x.1)) : MemsWf (memOf t) := by
  rwa [memOf_of_eq h]

@[simp] theorem memsWf_ite {c : Prop} [Decidable c] {v w : Mem → SMap MemWord} :
    MemsWf (if c then v else w) = if c then MemsWf v else MemsWf w := apply_ite MemsWf c v w

@[simp] theorem memsWf_memPut {s : State} (h : MemsWf (memOf s)) (m : Mem) (a : Nat) (w : Word) : MemsWf (memOf (memPut s m a w)) :=
  memoryWf_iff.1 (memoryWf_memPut m a w (memoryWf_iff.2 h))

@[simp] theorem memsWf_memPuts {s : State} (h : MemsWf (memOf s)) (m : Mem) (a : Nat) (ws : List Word) :
    MemsWf (memOf (memPuts s m a ws)) :=
  memoryWf_iff.1 (memoryWf_memPuts m a ws (memoryWf_iff.2 h))

@[simp] theorem memsWf_clearScratch {s : State} (h : MemsWf (memOf s)) (g : Nat) : MemsWf (memOf (clearScratch s g)) :=
  memoryWf_iff.1 (memoryWf_clearScratch g (memoryWf_iff.2 h))

theorem memsWf_foldl {α : Type} {f : State → α → State} (hf : ∀ s a, MemsWf (memOf s) → MemsWf (memOf (f s a))) (l : List α)
    {s : State} (h : MemsWf (memOf s)) : MemsWf (memOf (l.foldl f s)) := by
  induction l generalizing s with
  | nil => exact h
  | cons a l ih => exact ih (hf s a h)

/-- The outcome's next state, where there is one, has its memories in canonical form. -/
def NextWf : Host.Outcome State Fault Refusal → Prop
  | .next t => MemsWf (memOf t)
  | .fault _ => True
  | .refused _ => True

@[simp] theorem nextWf_next (t : State) : NextWf (.next t) ↔ MemsWf (memOf t) := Iff.rfl
@[simp] theorem nextWf_fault (r : Fault) : NextWf (.fault r) := trivial
@[simp] theorem nextWf_refused (r : Refusal) : NextWf (.refused r) := trivial

@[simp] theorem nextWf_ite {c : Prop} [Decidable c] {x y : Host.Outcome State Fault Refusal} :
    NextWf (if c then x else y) = if c then NextWf x else NextWf y := apply_ite NextWf c x y

end Sys2Proof.Machine
end

section
/-! # Operations that leave the checked memories: the state's operations, time, intake, listeners and the bridge -/

namespace Sys2Proof.Machine

/-! ## Operations of the state -/

@[simp] theorem memOf_takeBit (s : State) : memOf (takeBit s).1 = memOf s := by simp [takeBit]

@[simp] theorem memOf_takeWord (s : State) : memOf (takeWord s).1 = memOf s := by simp [takeWord]

@[simp] theorem memOf_emit (s : State) (o : Out) : memOf (emit s o) = memOf s := by simp [emit]

@[simp] theorem memOf_setReg (s : State) (off : Nat) (v : Word) : memOf (setReg s off v) = memOf s := by simp [setReg]

@[simp] theorem memOf_setF (s : State) (off hi lo v : Nat) : memOf (setF s off hi lo v) = memOf s := by simp [setF]

@[simp] theorem memOf_count (s : State) (off hi lo n : Nat) : memOf (count s off hi lo n) = memOf s := by simp [count]

@[simp] theorem memOf_setRing (s : State) (r : Nat) (v : Ring) : memOf (setRing s r v) = memOf s := by simp [setRing]

@[simp] theorem memOf_dmaWrite (s : State) (addr : Nat) (bs : List Byte) : memOf (dmaWrite s addr bs) = memOf s := by simp [dmaWrite]

@[simp] theorem memOf_ringWrite (s : State) (r units : Nat) (words : List Word) : memOf (ringWrite s r units words) = memOf s := by
  simp [ringWrite]

@[simp] theorem memOf_message (s : State) (v : Nat) : memOf (message s v) = memOf s := by simp [message]

@[simp] theorem memOf_ringMessage (s : State) (r : Nat) : memOf (ringMessage s r) = memOf s := by simp [ringMessage]

@[simp] theorem memOf_ringAnnounce (s : State) (r : Nat) : memOf (ringAnnounce s r) = memOf s := by simp [ringAnnounce]

@[simp] theorem memOf_hrWrite (s : State) (n kind listener : Nat) (inj : Bool) (payload : List Byte) :
    memOf (hrWrite s n kind listener inj payload) = memOf s := by
  simp [hrWrite]

@[simp] theorem memOf_event (s : State) (kind det unit d2 d3 : Nat) (inj : Bool) (at_ : Stamp) :
    memOf (event s kind det unit d2 d3 inj at_) = memOf s := by
  simp [event]

@[simp] theorem memOf_fireAt (s : State) (det unit d2 d3 : Nat) (inj : Bool) (limit : Option Nat) (at_ : Stamp) :
    memOf (fireAt s det unit d2 d3 inj limit at_) = memOf s := by
  unfold fireAt
  extract_lets +onlyGivenNames counted totalled
  have h : memOf totalled = memOf s := by simp [totalled, counted]
  clear_value totalled
  cases limit <;> simp [h]

@[simp] theorem memOf_fire (s : State) (det unit d2 d3 : Nat) (inj : Bool) (limit : Option Nat) :
    memOf (fire s det unit d2 d3 inj limit) = memOf s := by
  simp [fire]

@[simp] theorem memOf_setArm (s : State) (a : Nat) (v : Option Arm) : memOf (setArm s a v) = memOf s := by simp [setArm]

@[simp] theorem memOf_injected (s : State) (det : Nat) (units : List Nat) : memOf (injected s det units).1 = memOf s := by
  unfold injected
  split <;> simp

@[simp] theorem memOf_memRead (s : State) (m : Mem) (a : Nat) (readers : List Nat) : memOf (memRead s m a readers).s = memOf s := by
  simp [memRead]

@[simp] theorem memOf_memReport (s : State) (m : Mem) (a outcome reader index : Nat) (inj : Bool) :
    memOf (memReport s m a outcome reader index inj) = memOf s := by
  simp [memReport]

@[simp] theorem memOf_memReportB (s : State) (m : Mem) (bank a outcome reader index : Nat) (inj : Bool) :
    memOf (memReportB s m bank a outcome reader index inj) = memOf s := by
  simp [memReportB]

@[simp] theorem memOf_disown (s : State) (e : Nat) : memOf (disown s e) = memOf s := by simp [disown]

@[simp] theorem memOf_setCmd (s : State) (slot : Nat) (f : HostCmd → HostCmd) : memOf (setCmd s slot f) = memOf s := by simp [setCmd]

@[simp] theorem memOf_writeCompletion (s : State) (c : Completion) : memOf (writeCompletion s c) = memOf s := by simp [writeCompletion]

@[simp] theorem memOf_deliver (s : State) (c : Completion) : memOf (deliver s c) = memOf s := by simp [deliver]

@[simp] theorem memOf_finishAt (s : State) (slot status res0 res1 : Nat) (at_ : Stamp) :
    memOf (finishAt s slot status res0 res1 at_) = memOf s := by
  unfold finishAt
  split <;> simp

@[simp] theorem memOf_finish (s : State) (slot status res0 res1 : Nat) : memOf (finish s slot status res0 res1) = memOf s := by
  simp [finish]

@[simp] theorem memOf_startFetch (s : State) (slot addr len : Nat) : memOf (startFetch s slot addr len) = memOf s := by simp [startFetch]

@[simp] theorem memOf_sendFetch (s : State) (slot addr rest : Nat) : memOf (sendFetch s slot addr rest) = memOf s := by simp [sendFetch]

@[simp] theorem memOf_nextFetch (s : State) (slot : Nat) (f : Fetch) : memOf (nextFetch s slot f) = memOf s := by simp [nextFetch]

@[simp] theorem memOf_dmaFault (s : State) (addr : Nat) : memOf (dmaFault s addr) = memOf s := by simp [dmaFault]

@[simp] theorem memOf_pumpFetch (s : State) (c : HostCmd) : memOf (pumpFetch s c) = memOf s := by
  unfold pumpFetch
  split <;> simp

@[simp] theorem memOf_pumpRefetch (s : State) (f : Refetch) : memOf (pumpRefetch s f) = memOf s := by simp [pumpRefetch]

@[simp] theorem memOf_pumpFar (s : State) : memOf (pumpFar s) = memOf s := by
  unfold pumpFar
  split <;> simp

@[simp] theorem memOf_readPump (s : State) : memOf (readPump s) = memOf s := by simp [readPump]

/-! ## Commands -/

@[simp] theorem memOf_cmdOpen (s : State) (slot : Nat) : memOf (cmdOpen s slot) = memOf s := by simp [cmdOpen]

/-! ## Calibration (R73 to R85) -/

@[simp] theorem memOf_setRegion (s : State) (g : Nat) (r : Region) : memOf (setRegion s g r) = memOf s := by simp [setRegion]

@[simp] theorem memOf_hitRegion (s : State) (g k n : Nat) (live : Bool) : memOf (hitRegion s g k n live) = memOf s := by simp [hitRegion]

@[simp] theorem memOf_newInterval (s : State) (g : Nat) (keep : Bool) (m : CalMode) : memOf (newInterval s g keep m) = memOf s := by
  simp [newInterval]

@[simp] theorem memOf_calRunEnd (s : State) (g : Nat) : memOf (calRunEnd s g) = memOf s := by
  unfold calRunEnd
  split <;> simp

@[simp] theorem memOf_commitTable (s : State) (g : Nat) (t : TdcTable) (keep : Bool) : memOf (commitTable s g t keep) = memOf s := by
  simp [commitTable]

@[simp] theorem memOf_refuseTable (s : State) (g detail : Nat) (inj : Bool) : memOf (refuseTable s g detail inj) = memOf s := by
  simp [refuseTable]

@[simp] theorem memOf_calJudge (s : State) (g : Nat) : memOf (calJudge s g) = memOf s := by
  simp only [calJudge]
  repeat' split
  all_goals simp

@[simp] theorem memOf_tdcSwitch (s : State) (t : Nat) : memOf (tdcSwitch s t) = memOf s := by
  simp only [tdcSwitch]
  split <;> simp

@[simp] theorem memOf_calFallback (s : State) (g : Nat) : memOf (calFallback s g) = memOf s := by simp [calFallback]

@[simp] theorem memOf_tdcPos (s : State) (t k : Nat) : memOf (tdcPos s t k).1 = memOf s := by
  simp only [tdcPos]
  split <;> simp

@[simp] theorem memOf_convert (s : State) (t k : Nat) : memOf (convert s t k).1 = memOf s := by simp [convert]

@[simp] theorem memOf_addDither (s : State) (g k : Nat) (ns : List Nat) : memOf (addDither s g k ns) = memOf s := by
  fun_induction addDither s g k ns <;> simp [*]

@[simp] theorem memOf_calForce (s : State) (slot g : Nat) : memOf (calForce s slot g) = memOf s := by simp [calForce]

/-! ## Event outputs (R107 to R120) -/

@[simp] theorem memOf_setEvOut (s : State) (m : Nat) (o : EvOut) : memOf (setEvOut s m o) = memOf s := by simp [setEvOut]

@[simp] theorem memOf_setGen (s : State) (m : Nat) (g : Option EoTarget) : memOf (setGen s m g) = memOf s := by
  unfold setGen
  split <;> simp

@[simp] theorem memOf_eoSkip (s : State) (m : Nat) (t : EoTarget) : memOf (eoSkip s m t) = memOf s := by simp [eoSkip]

@[simp] theorem memOf_eoQueue (s : State) (m : Nat) (sec ns : Word) (frac : BitVec 16) : memOf (eoQueue s m sec ns frac).1 = memOf s := by
  simp [eoQueue]

@[simp] theorem memOf_eoLaunch (s : State) (m : Nat) (sec ns : Word) (frac : BitVec 16) : memOf (eoLaunch s m sec ns frac).1 = memOf s := by
  simp [eoLaunch]

@[simp] theorem memOf_eoPulseQueue (s : State) (m : Nat) (frac : Word) : memOf (eoPulseQueue s m frac) = memOf s := by simp [eoPulseQueue]

/-- A step of the clock at the outputs leaves the memories. -/
@[simp] theorem memOf_eoStepped (before s : State) (n : Nat) : memOf (eoStepped before s n) = memOf s := by
  induction n with
  | zero => rfl
  | succ k ih =>
    simp only [eoStepped]
    split
    · simp [ih]
    · split <;> simp [ih]

@[simp] theorem memOf_eoCompare (s : State) (n : Nat) (sec ns : Word) (k : Nat) : memOf (eoCompare s n sec ns k) = memOf s := by
  induction k with
  | zero => rfl
  | succ k ih =>
    simp only [eoCompare]
    split
    · split <;> simp [ih]
    · exact ih

@[simp] theorem memOf_eoTrail (s : State) (m : Nat) (p : EoPulse) (rest : List EoPulse) : memOf (eoTrail s m p rest) = memOf s := by
  simp only [eoTrail]
  repeat' split
  all_goals simp

@[simp] theorem memOf_round50ps (s : State) (v : Int) : memOf (round50ps s v).1 = memOf s := by simp [round50ps]

@[simp] theorem memOf_eoPlace (s : State) (m : Nat) (t : EoTarget) : memOf (eoPlace s m t) = memOf s := by simp [eoPlace]

@[simp] theorem memOf_eoGenNext (s : State) (m : Nat) (t : EoTarget) : memOf (eoGenNext s m t) = memOf s := by simp [eoGenNext]

theorem eoEarlier_eq_some {a b : Option (EoTarget × State)} {x : EoTarget × State} (h : eoEarlier a b = some x) :
    a = some x ∨ b = some x := by
  unfold eoEarlier at h
  split at h
  · split at h
    · exact .inl h
    · exact .inr h
  · exact .inl h
  · exact .inr h

theorem memOf_eoNext {s t : State} {m : Nat} {x : EoTarget} (h : eoNext s m = some (x, t)) : memOf t = memOf s := by
  unfold eoNext at h
  dsimp only at h
  rcases eoEarlier_eq_some h with h | h
  · split at h
    · cases h
      simp
    · obtain ⟨y, -, hy⟩ := Option.map_eq_some_iff.1 h
      cases hy
      simp
  · rcases eoEarlier_eq_some h with h | h
    · obtain ⟨y, -, hy⟩ := Option.map_eq_some_iff.1 h
      cases hy
      simp
    · obtain ⟨y, -, hy⟩ := Option.map_eq_some_iff.1 h
      cases hy
      simp

@[simp] theorem memOf_eoTable (s : State) (m : Nat) : memOf (eoTable s m) = memOf s := by simp [eoTable]

@[simp] theorem memOf_eoPortSet (s : State) (m slot : Nat) (w : Nat → Word) : memOf (eoPortSet s m slot w) = memOf s := by simp [eoPortSet]

@[simp] theorem memOf_eoPortDisable (s : State) (m slot : Nat) : memOf (eoPortDisable s m slot) = memOf s := by simp [eoPortDisable]

/-! ## The retriever: slots, banks and talkers (R328 to R338) -/

@[simp] theorem memOf_bankReport (s : State) (m : Mem) (a outcome reader : Nat) (inj : Bool) :
    memOf (bankReport s m a outcome reader inj) = memOf s := by
  simp [bankReport]

@[simp] theorem memOf_refetchWord (s : State) (m : Mem) (a reader off : Nat) (flash inj : Bool) :
    memOf (refetchWord s m a reader off flash inj) = memOf s := by
  simp [refetchWord]

@[simp] theorem memOf_setEngine (s : State) (e : Nat) (v : Engine) : memOf (setEngine s e v) = memOf s := by simp [setEngine]

@[simp] theorem memOf_readerResume (s : State) (r : Nat) : memOf (readerResume s r) = memOf s := by
  fun_cases readerResume s r <;> simp

/-! ## Serial ports, Leash (R121 to R148) -/

@[simp] theorem memOf_setSerial (s : State) (p : Nat) (v : SerialPort) : memOf (setSerial s p v) = memOf s := by simp [setSerial]

@[simp] theorem memOf_leashDepart (s : State) (p : Nat) (xoff : Bool) (at_ : Int) : memOf (leashDepart s p xoff at_) = memOf s := by
  simp only [leashDepart]
  split <;> simp

@[simp] theorem memOf_leashRun (s : State) (p : Nat) (l : List Bool) : memOf (leashRun s p l) = memOf s := by
  fun_induction leashRun s p l <;> simp [*]

@[simp] theorem memOf_leashSend (s : State) (p : Nat) (xoff : Bool) : memOf (leashSend s p xoff) = memOf s := by simp [leashSend]

@[simp] theorem memOf_leashUpdate (s : State) (p : Nat) : memOf (leashUpdate s p) = memOf s := by simp [leashUpdate]

@[simp] theorem memOf_leashTalker (s : State) (i : Nat) : memOf (leashTalker s i) = memOf s := by simp [leashTalker]

@[simp] theorem memOf_spFlag (s : State) (p b : Nat) : memOf (spFlag s p b) = memOf s := by simp [spFlag]

@[simp] theorem memOf_spTake (s : State) (p : Nat) : memOf (spTake s p).1 = memOf s := by
  fun_cases spTake s p <;> simp

@[simp] theorem memOf_spStatusRead (s : State) (p : Nat) : memOf (spStatusRead s p).1 = memOf s := by simp [spStatusRead]

@[simp] theorem memOf_spDataRead (s : State) (p : Nat) : memOf (spDataRead s p).1 = memOf s := by simp [spDataRead]

/-- The body of ackstat is taken with spTake as a variable: the kernel would evaluate it where the pair is taken apart. -/
@[simp] theorem memOf_ackstat (s : State) (p : Nat) : memOf (ackstat s p).1 = memOf s := by
  suffices h : ∀ f, f = ackstat → memOf (f s p).1 = memOf s from h _ rfl
  intro f hf
  delta ackstat at hf
  have hread := memOf_spTake
  generalize spTake = take at hf hread
  have h := (hread (setF s (Reg.spStatus p) 31 29 0) p).trans (memOf_setF s (Reg.spStatus p) 31 29 0)
  subst hf
  beta_reduce
  generalize take (setF s (Reg.spStatus p) 31 29 0) p = r at h ⊢
  obtain ⟨t, w⟩ := r
  exact h

/-! ## The time base (R63 to R72, R86 to R106) -/

@[simp] theorem memOf_setTime (s : State) (t : TimeCore) : memOf (setTime s t) = memOf s := by simp [setTime]

@[simp] theorem memOf_tick (s : State) : memOf (tick s) = memOf s := by simp [tick]

@[simp] theorem memOf_keepReleased (s : State) : memOf (keepReleased s) = memOf s := by simp [keepReleased]

@[simp] theorem memOf_stepClock (s : State) (d : Int) : memOf (stepClock s d) = memOf s := by simp [stepClock]

@[simp] theorem memOf_setServo (s : State) (v : Nat) : memOf (setServo s v) = memOf s := by simp [setServo]

@[simp] theorem memOf_runServo (s : State) (e : Int) : memOf (runServo s e) = memOf s := by simp [runServo]

@[simp] theorem memOf_lastOfs (s : State) (e : Int) (refused : Bool) : memOf (lastOfs s e refused) = memOf s := by simp [lastOfs]

@[simp] theorem memOf_judge (s : State) (src : Nat) (e : Int) (servo : Bool) : memOf (judge s src e servo) = memOf s := by simp [judge]

@[simp] theorem memOf_discardStep (s : State) : memOf (discardStep s) = memOf s := by simp [discardStep]

@[simp] theorem memOf_followerSample (s : State) (src : Nat) (e : Int) (steps : List Nat) :
    memOf (followerSample s src e steps) = memOf s := by
  simp [followerSample]

@[simp] theorem memOf_endReacquire (s : State) (status : Nat) : memOf (endReacquire s status) = memOf s := by simp [endReacquire]

@[simp] theorem memOf_pairTod (s : State) (t : Tod) (p : PpsEdge) (servo : Bool) : memOf (pairTod s t p servo) = memOf s := by
  simp [pairTod]

@[simp] theorem memOf_todDrop (s : State) : memOf (todDrop s) = memOf s := by simp [todDrop]

@[simp] theorem memOf_todPair (s : State) : memOf (todPair s) = memOf s := by
  fun_cases todPair s <;> simp

@[simp] theorem memOf_timeset (s : State) (utc : Nat) (arrival : Edge) : memOf (timeset s utc arrival) = memOf s := by
  simp only [timeset]
  repeat' split
  all_goals simp

@[simp] theorem memOf_ppsEdge (s : State) (e : Edge) : memOf (ppsEdge s e) = memOf s := by
  simp only [ppsEdge]
  repeat' split
  all_goals simp

@[simp] theorem memOf_timeRole (s : State) (slot : Nat) (w1 w2 : Word) : memOf (timeRole s slot w1 w2) = memOf s := by simp [timeRole]

@[simp] theorem memOf_timeCapture (s : State) : memOf (timeCapture s) = memOf s := by simp [timeCapture]

@[simp] theorem memOf_setCmp (s : State) (n : Nat) (u : CmpUnit) : memOf (setCmp s n u) = memOf s := by simp [setCmp]

@[simp] theorem memOf_cmpLoad (s : State) (n : Nat) (ns : Word) : memOf (cmpLoad s n ns) = memOf s := by simp [cmpLoad]

@[simp] theorem memOf_cmpCtrl (s : State) (n : Nat) (en : Bool) : memOf (cmpCtrl s n en) = memOf s := by simp [cmpCtrl]

@[simp] theorem memOf_firstIntervals (s : State) : memOf (firstIntervals s) = memOf s := by simp [firstIntervals]

@[simp] theorem memOf_gridMeasure (s : State) : memOf (gridMeasure s) = memOf s := by simp [gridMeasure]

/-! ## Intake and the Herder (R160 to R168) -/

@[simp] theorem memOf_holdRun (s : State) (g n : Nat) : memOf (holdRun s g n) = memOf s := by simp [holdRun]

@[simp] theorem memOf_dropRun (s : State) (g : Nat) : memOf (dropRun s g) = memOf s := by simp [dropRun]

@[simp] theorem memOf_lowPeak (s : State) : memOf (lowPeak s) = memOf s := by simp [lowPeak]

@[simp] theorem memOf_countRefusal (s : State) (reason : Nat) : memOf (countRefusal s reason) = memOf s := by simp [countRefusal]

@[simp] theorem memOf_stageRead (s : State) (src a n : Nat) : memOf (stageRead s src a n).1 = memOf s := by
  induction n generalizing s a with
  | zero => rfl
  | succ n ih =>
    simp only [stageRead]
    split
    · simp
    · split
      next h => simp [memOf_of_eq h, ih]
      next h => simp [memOf_of_eq h, ih]

@[simp] theorem memOf_stageWords (s : State) (a : Arrived) : memOf (stageWords s a).1 = memOf s := by
  unfold stageWords
  split <;> simp

/-! ## Panels (R309 to R325) -/

@[simp] theorem memOf_setPanel (s : State) (n : Nat) (p : PanelPort) : memOf (setPanel s n p) = memOf s := by simp [setPanel]

@[simp] theorem memOf_panelWord (s : State) (n off : Nat) : memOf (panelWord s n off).1 = memOf s := by simp [panelWord]

@[simp] theorem memOf_panelWords (s : State) (n : Nat) (l : List Nat) : memOf (panelWords s n l).1 = memOf s := by
  induction l generalizing s with
  | nil => rfl
  | cons o os ih => simp [panelWords, ih]

@[simp] theorem memOf_setImage (s : State) (n g : Nat) (v : Bool) : memOf (setImage s n g v) = memOf s := by simp [setImage]

@[simp] theorem memOf_storeCrc (s : State) (n : Nat) : memOf (storeCrc s n) = memOf s := by simp [storeCrc]

@[simp] theorem memOf_panelMaps (s : State) (n : Nat) : memOf (panelMaps s n) = memOf s := by simp [panelMaps]

@[simp] theorem memOf_panelRequest (s : State) (n region : Nat) (src : PanelSrc) (slot : Option Nat) :
    memOf (panelRequest s n region src slot).1 = memOf s := by
  unfold panelRequest
  split
  next h =>
    split
    · cases slot <;> simp [memOf_of_eq h]
    · simp only [memOf_panelMaps]
      rw [memOf_foldl]
      · simp [memOf_of_eq h]
      · intro s q
        cases q.slot <;> simp

@[simp] theorem memOf_panelCheck (s : State) (n : Nat) : memOf (panelCheck s n).1 = memOf s := by simp [panelCheck]

@[simp] theorem memOf_ledgerRead (s : State) (n g : Nat) : memOf (ledgerRead s n g).1 = memOf s := by simp [ledgerRead]

@[simp] theorem memOf_ledgerWrite (s : State) (n g : Nat) (v : Int) : memOf (ledgerWrite s n g v) = memOf s := by simp [ledgerWrite]

@[simp] theorem memOf_ledgerMove (s : State) (n g code : Nat) : memOf (ledgerMove s n g code) = memOf s := by simp [ledgerMove]

@[simp] theorem memOf_waveCodes (s : State) (n b t : Nat) : memOf (waveCodes s n b t).1 = memOf s := by simp [waveCodes]

@[simp] theorem memOf_segPlans (s : State) (n thr maxc : Nat) (l : List (Nat × Bool × List Nat)) :
    memOf (segPlans s n thr maxc l).1 = memOf s := by
  induction l generalizing s with
  | nil => rfl
  | cons x l ih =>
    obtain ⟨g, target, cs⟩ := x
    simp [segPlans, ih]

@[simp] theorem memOf_panelEnd (s : State) (u : PanelRun) : memOf (panelEnd s u) = memOf s := by
  unfold panelEnd
  split <;> simp

@[simp] theorem memOf_panelStrobe (s : State) (n : Nat) (codes : List (Nat × Nat)) : memOf (panelStrobe s n codes) = memOf s := by
  simp [panelStrobe]

@[simp] theorem memOf_panelStop (s : State) (n flushed : Nat) (slot : Option Nat) : memOf (panelStop s n flushed slot) = memOf s := by
  unfold panelStop
  cases slot
  all_goals
    simp only [memOf_finish, memOf_ite, memOf_panelStrobe, ite_self, memOf_panelMaps]
    refine (memOf_foldl (fun t q => ?_) _ _).trans (by simp)
    cases q.slot <;> simp

@[simp] theorem memOf_panelApply (s : State) (n : Nat) : memOf (panelApply s n) = memOf s := by simp [panelApply]

@[simp] theorem memOf_panelSettings (s : State) (n : Nat) (ws : List Word) : memOf (panelSettings s n ws) = memOf s := by
  simp [panelSettings]

/-! ## Listeners and copies (R222 to R245) -/

@[simp] theorem memOf_setLq (s : State) (q : Listeners) : memOf (setLq s q) = memOf s := by simp [setLq]

@[simp] theorem memOf_dropCopy (s : State) (arrival : Nat) : memOf (dropCopy s arrival) = memOf s := by simp [dropCopy]

@[simp] theorem memOf_setCopy (s : State) (arrival : Nat) (f : Copy → Copy) : memOf (setCopy s arrival f) = memOf s := by simp [setCopy]

@[simp] theorem memOf_flushCopies (s : State) (p : Copy → Bool) : memOf (flushCopies s p).1 = memOf s := by simp [flushCopies]

@[simp] theorem memOf_flushEndpoint (s : State) (kind num : Nat) : memOf (flushEndpoint s kind num).1 = memOf s := by simp [flushEndpoint]

@[simp] theorem memOf_refuseCopy (s : State) (n kind num reason : Nat) (inj : Bool) :
    memOf (refuseCopy s n kind num reason inj) = memOf s := by
  simp [refuseCopy]

@[simp] theorem memOf_listenerEnable (s : State) (k : Nat) (mask : Word) : memOf (listenerEnable s k mask) = memOf s := by
  simp [listenerEnable]

@[simp] theorem memOf_listenerDisable (s : State) (k : Nat) (mask : Word) : memOf (listenerDisable s k mask) = memOf s := by
  simp [listenerDisable]

@[simp] theorem memOf_copyCheck (s : State) (c : Copy) (units : List Nat) (i n : Nat) : memOf (copyCheck s c units i n).1 = memOf s := by
  induction n generalizing s i with
  | zero => rfl
  | succ n ih =>
    simp only [copyCheck]
    split <;> simp [ih]

@[simp] theorem memOf_lqReport (s : State) (c : Copy) (word outcome : Nat) (inj : Bool) :
    memOf (lqReport s c word outcome inj) = memOf s := by
  simp [lqReport]

@[simp] theorem memOf_lqDrop (s : State) (c : Copy) (word : Nat) (inj : Bool) : memOf (lqDrop s c word inj) = memOf s := by simp [lqDrop]

@[simp] theorem memOf_lqFail (s : State) (c : Copy) (word : Nat) (inj : Bool) : memOf (lqFail s c word inj) = memOf s := by simp [lqFail]

@[simp] theorem memOf_lqNotRebuilt (s : State) (b : Rebuild) : memOf (lqNotRebuilt s b) = memOf s := by
  unfold lqNotRebuilt
  split <;> simp

@[simp] theorem memOf_countStart (s : State) (n : Nat) : memOf (countStart s n) = memOf s := by simp [countStart]

@[simp] theorem memOf_setDrain (s : State) (listener : Nat) (f : Drain → Drain) : memOf (setDrain s listener f) = memOf s := by
  simp [setDrain]

@[simp] theorem memOf_lqMiss (s : State) (c : Copy) (inj : Bool) : memOf (lqMiss s c inj) = memOf s := by simp [lqMiss]

@[simp] theorem memOf_deadlineCheck (s : State) (kind num : Nat) : memOf (deadlineCheck s kind num) = memOf s := by
  unfold deadlineCheck
  split <;> simp

@[simp] theorem memOf_lineNext (s : State) (n : Nat) : memOf (lineNext s n) = memOf s := by simp [lineNext]

@[simp] theorem memOf_tagBlock (s : State) (n : Nat) (w1 : Word) (src : List Byte) (t : Stamp) (chars : Nat → Nat) :
    memOf (tagBlock s n w1 src t chars).1 = memOf s := by
  simp [tagBlock]

@[simp] theorem memOf_echoWrite (s : State) (listener ring : Nat) (e : Edge) (bytes : List Byte) (inj : Bool) :
    memOf (echoWrite s listener ring e bytes inj) = memOf s := by
  simp [echoWrite]

@[simp] theorem memOf_echoCopy (s : State) (c : Copy) (e : Edge) (bytes : List Byte) : memOf (echoCopy s c e bytes) = memOf s := by
  simp [echoCopy]

/-! ## The Pack and its dispatch (R169 to R189) -/

@[simp] theorem memOf_setPack (s : State) (p : Pack) : memOf (setPack s p) = memOf s := by simp [setPack]

@[simp] theorem memOf_setHerder (s : State) (h : Herder) : memOf (setHerder s h) = memOf s := by simp [setHerder]

@[simp] theorem memOf_setGroup (s : State) (g v : Nat) : memOf (setGroup s g v) = memOf s := by simp [setGroup]

@[simp] theorem memOf_engLoad (s : State) (e : Nat) (r : Rec) (route : Word) (budget bank : Nat) :
    memOf (engLoad s e r route budget bank) = memOf s := by
  simp [engLoad]

@[simp] theorem memOf_armClear (s : State) (det : Nat) : memOf (armClear s det) = memOf s := by
  unfold armClear
  split <;> simp

@[simp] theorem memOf_groupOffline (s : State) (slot g : Nat) : memOf (groupOffline s slot g) = memOf s := by simp [groupOffline]

/-! ## Loads and tables (R45, R173) -/

@[simp] theorem memOf_flashOut (s : State) (slot op off : Nat) (bytes : List Byte) (len rest : Nat) :
    memOf (flashOut s slot op off bytes len rest) = memOf s := by
  simp [flashOut]

@[simp] theorem memOf_flashStart (s : State) (slot off len : Nat) : memOf (flashStart s slot off len) = memOf s := by simp [flashStart]

@[simp] theorem memOf_gotBytes (s : State) (slot : Nat) (bs : List Byte) : memOf (gotBytes s slot bs) = memOf s := by simp [gotBytes]

@[simp] theorem memOf_bankTouched (s : State) (bank : Nat) : memOf (bankTouched s bank) = memOf s := by simp [bankTouched]

@[simp] theorem memOf_loadSource (s : State) (bank : Nat) (flash : Bool) (addr : Nat) : memOf (loadSource s bank flash addr) = memOf s := by
  simp [loadSource]

@[simp] theorem memOf_loadFault (s : State) (c : HostCmd) (status : Nat) : memOf (loadFault s c status) = memOf s := by simp [loadFault]

@[simp] theorem memOf_loadRead (s : State) (c : HostCmd) (from_ len : Nat) : memOf (loadRead s c from_ len) = memOf s := by simp [loadRead]

@[simp] theorem memOf_loadEnd (s : State) (c : HostCmd) : memOf (loadEnd s c) = memOf s := by simp [loadEnd]

@[simp] theorem memOf_hostReport (s : State) (m : Mem) (a index : Nat) (inj : Bool) : memOf (hostReport s m a index inj) = memOf s := by
  simp [hostReport]

@[simp] theorem memOf_hostWords (s : State) (m : Mem) (index : Nat → Nat) (a n : Nat) : memOf (hostWords s m index a n).1 = memOf s := by
  induction n generalizing s a with
  | zero => rfl
  | succ n ih => simp [hostWords, ih]

/-! ## Flash -/

/-- A command of the flash leaves the memories where its start does. -/
theorem memOf_flashCmd {s : State} (slot op : Nat) {run : HostCmd → State} (h : ∀ c, memOf (run c) = memOf s) :
    memOf (flashCmd s slot op run) = memOf s := by
  unfold flashCmd
  split
  · rfl
  · split <;> simp [h]

@[simp] theorem memOf_flashWriteNext (s : State) (slot : Nat) : memOf (flashWriteNext s slot) = memOf s := by
  unfold flashWriteNext
  split <;> simp

@[simp] theorem memOf_flashProgram (s : State) (slot : Nat) : memOf (flashProgram s slot) = memOf s := by
  unfold flashProgram
  split <;> simp

@[simp] theorem memOf_flashReadEnd (s : State) (c : HostCmd) (f : Fetch) (data : List Byte) :
    memOf (flashReadEnd s c f data) = memOf s := by
  simp [flashReadEnd]

@[simp] theorem memOf_flashWriteEnd (s : State) (c : HostCmd) (f : Fetch) (data : List Byte) :
    memOf (flashWriteEnd s c f data) = memOf s := by
  simp [flashWriteEnd]

@[simp] theorem memOf_flashEraseEnd (s : State) (c : HostCmd) (f : Fetch) : memOf (flashEraseEnd s c f) = memOf s := by simp [flashEraseEnd]

@[simp] theorem memOf_flashFault (s : State) (c : HostCmd) : memOf (flashFault s c) = memOf s := by simp [flashFault]

/-! ## Host rings (R48 to R58) -/

@[simp] theorem memOf_ringCtrlWrite (s : State) (r : Nat) (v : Word) : memOf (ringCtrlWrite s r v) = memOf s := by simp [ringCtrlWrite]

@[simp] theorem memOf_ringHeadWrite (s : State) (r : Nat) (v : Word) : memOf (ringHeadWrite s r v) = memOf s := by simp [ringHeadWrite]

@[simp] theorem memOf_messageNow (s : State) (v : Nat) : memOf (messageNow s v) = memOf s := by simp [messageNow]

@[simp] theorem memOf_vectorControl (s : State) (v : Nat) (val : Word) : memOf (vectorControl s v val) = memOf s := by simp [vectorControl]

@[simp] theorem memOf_flushHeld (n : Nat) (s : State) : memOf (flushHeld n s) = memOf s := by
  fun_induction flushHeld n s <;> simp [*]

@[simp] theorem memOf_entryMark (s : State) : memOf (entryMark s) = memOf s := by
  unfold entryMark
  split <;> simp

/-! ## The cabinet bus bridge (R289 to R308) -/

@[simp] theorem memOf_setBridge (s : State) (b : Bridge) : memOf (setBridge s b) = memOf s := by simp [setBridge]

@[simp] theorem memOf_bridgeFail (s : State) (kind op w strobes addr data seq : Nat) (inj : Bool) :
    memOf (bridgeFail s kind op w strobes addr data seq inj) = memOf s := by
  simp [bridgeFail]

@[simp] theorem memOf_prefDiscard (s : State) (w n addr : Nat) (inj : Bool) : memOf (prefDiscard s w n addr inj) = memOf s := by
  simp [prefDiscard]

@[simp] theorem memOf_setLine (s : State) (w : Nat) (l : Option PrefLine) : memOf (setLine s w l) = memOf s := by simp [setLine]

@[simp] theorem memOf_prefInvalidate (s : State) (w : Nat) (inj : Bool) : memOf (prefInvalidate s w inj) = memOf s := by
  simp only [prefInvalidate]
  repeat' split
  all_goals simp

@[simp] theorem memOf_prefServe (s : State) (w : Nat) (big : Bool) (far : Nat) (enables : List Bool) :
    memOf (prefServe s w big far enables).1 = memOf s := by
  unfold prefServe
  split <;> simp

@[simp] theorem memOf_bridgeWait (s : State) : memOf (bridgeWait s) = memOf s := by simp [bridgeWait]

@[simp] theorem memOf_tryGrant (s : State) : memOf (tryGrant s) = memOf s := by simp [tryGrant]

@[simp] theorem memOf_readReply (s : State) (r : FarHostRead) : memOf (readReply s r) = memOf s := by simp [readReply]

@[simp] theorem memOf_settleReads (n : Nat) (s : State) : memOf (settleReads n s) = memOf s := by
  fun_induction settleReads n s <;> simp [*]

@[simp] theorem memOf_fenceEnd (s : State) (slot : Nat) : memOf (fenceEnd s slot) = memOf s := by simp [fenceEnd]

@[simp] theorem memOf_settleBridge (n : Nat) (s : State) : memOf (settleBridge n s) = memOf s := by
  fun_induction settleBridge n s <;> simp [*]

@[simp] theorem memOf_writeDone (s : State) (ok : Bool) : memOf (writeDone s ok) = memOf s := by simp [writeDone]

@[simp] theorem memOf_rmwEnd (s : State) (r : FarRmw) (status res0 res1 : Nat) : memOf (rmwEnd s r status res0 res1) = memOf s := by
  simp [rmwEnd]

@[simp] theorem memOf_cycleGood (s : State) (data : Nat) : memOf (cycleGood s data) = memOf s := by
  simp only [cycleGood]
  repeat' split
  all_goals simp

@[simp] theorem memOf_cycleBad (s : State) (kind : Nat) (inj : Bool) : memOf (cycleBad s kind inj) = memOf s := by
  simp only [cycleBad]
  repeat' split
  all_goals simp

@[simp] theorem memOf_afterCycle (s : State) : memOf (afterCycle s) = memOf s := by simp [afterCycle]

@[simp] theorem memOf_unserved (s : State) (isWrite : Bool) (off : Nat) (enables : List Bool) :
    memOf (unserved s isWrite off enables) = memOf s := by
  simp [unserved]

@[simp] theorem memOf_farWindowWrite (s : State) (w reg_ : Nat) (val : Word) : memOf (farWindowWrite s w reg_ val) = memOf s := by
  simp [farWindowWrite]

@[simp] theorem memOf_driveCycle (s : State) (op : CycleOp) : memOf (driveCycle s op) = memOf s := by simp [driveCycle]

@[simp] theorem memOf_grantEnd (s : State) : memOf (grantEnd s) = memOf s := by simp [grantEnd]

@[simp] theorem memOf_reverseIssue (s : State) : memOf (reverseIssue s) = memOf s := by simp [reverseIssue]

@[simp] theorem memOf_reverseTick (s : State) : memOf (reverseTick s) = memOf s := by
  unfold reverseTick
  split <;> simp

@[simp] theorem memOf_farRetry (s : State) : memOf (farRetry s) = memOf s := by simp [farRetry]

@[simp] theorem memOf_farAnswered (s : State) : memOf (farAnswered s) = memOf s := by simp [farAnswered]

@[simp] theorem memOf_irqAssert (s : State) (i : Nat) : memOf (irqAssert s i) = memOf s := by simp [irqAssert]

@[simp] theorem memOf_irqJudge (s : State) (i : Nat) : memOf (irqJudge s i) = memOf s := by simp [irqJudge]

@[simp] theorem memOf_irqAck (s : State) (val : Word) : memOf (irqAck s val) = memOf s := by simp [irqAck]

@[simp] theorem memOf_irqCtrlWrite (s : State) (val : Word) : memOf (irqCtrlWrite s val) = memOf s := by simp [irqCtrlWrite]

@[simp] theorem memOf_cbLogClear (s : State) : memOf (cbLogClear s) = memOf s := by simp [cbLogClear]

@[simp] theorem memOf_bridgeOff (s : State) (counted : Bool) : memOf (bridgeOff s counted) = memOf s := by
  simp only [bridgeOff]
  split <;> simp

@[simp] theorem memOf_cbCtrlWrite (s : State) (val : Word) : memOf (cbCtrlWrite s val) = memOf s := by simp [cbCtrlWrite]

end Sys2Proof.Machine
end

section
/-! # Operations that leave the checked memories: ports, integrity, registers, power and the engines -/

namespace Sys2Proof.Machine

/-! ## Ownership (R365 to R368) -/

@[simp] theorem memOf_flushOwner (s : State) (e : Nat) : memOf (flushOwner s e) = memOf s := by simp [flushOwner]

@[simp] theorem memOf_releaseNow (s : State) (e : Nat) : memOf (releaseNow s e) = memOf s := by simp [releaseNow]

@[simp] theorem memOf_releaseDone (s : State) (e : Nat) : memOf (releaseDone s e) = memOf s := by simp [releaseDone]

@[simp] theorem memOf_release (s : State) (e : Nat) : memOf (release s e) = memOf s := by
  unfold release
  split
  · rfl
  · split
    · simp
    · simp

/-! ## CAN ports (R246 to R266) -/

@[simp] theorem memOf_setCan (s : State) (n : Nat) (v : CanPort) : memOf (setCan s n v) = memOf s := by simp [setCan]

@[simp] theorem memOf_canHit (s : State) (n : Nat) : memOf (canHit s n) = memOf s := by simp [canHit]

@[simp] theorem memOf_canSofHit (s : State) (n : Nat) : memOf (canSofHit s n) = memOf s := by simp [canSofHit]

@[simp] theorem memOf_canClaim (s : State) (n : Nat) (f : CanFrame) : memOf (canClaim s n f) = memOf s := by simp [canClaim]

@[simp] theorem memOf_canQueue (s : State) (n : Nat) (q0 : Bool) (f : RxFrame) : memOf (canQueue s n q0 f) = memOf s := by simp [canQueue]

@[simp] theorem memOf_canFilter (s : State) (n : Nat) (f : RxFrame) : memOf (canFilter s n f) = memOf s := by
  unfold canFilter
  split <;> simp

@[simp] theorem memOf_canReport (s : State) (n k d3 : Nat) (inj : Bool) : memOf (canReport s n k d3 inj) = memOf s := by simp [canReport]

@[simp] theorem memOf_canInject (s : State) (n k : Nat) : memOf (canInject s n k).1 = memOf s := by
  induction k with
  | zero => rfl
  | succ k ih => simp [canInject, ih]

@[simp] theorem memOf_dropSend (s : State) (n slot : Nat) : memOf (dropSend s n slot) = memOf s := by simp [dropSend]

@[simp] theorem memOf_laneDrop (s : State) (n : Nat) : memOf (laneDrop s n) = memOf s := by simp [laneDrop]

@[simp] theorem memOf_busOff (s : State) (n : Nat) (inj : Bool) : memOf (busOff s n inj) = memOf s := by simp [busOff]

@[simp] theorem memOf_busOffMet (s : State) (n : Nat) (inj : Bool) : memOf (busOffMet s n inj) = memOf s := by simp [busOffMet]

@[simp] theorem memOf_busOffInject (s : State) (n : Nat) : memOf (busOffInject s n) = memOf s := by simp [busOffInject]

@[simp] theorem memOf_canCount (s : State) (n k : Nat) (tx inFlag exempt : Bool) (dominant : Nat) :
    memOf (canCount s n k tx inFlag exempt dominant) = memOf s := by
  simp [canCount]

@[simp] theorem memOf_recovCount (s : State) (n : Nat) : memOf (recovCount s n) = memOf s := by simp [recovCount]

@[simp] theorem memOf_canRecover (s : State) (n : Nat) : memOf (canRecover s n) = memOf s := by simp [canRecover]

@[simp] theorem memOf_setFp (s : State) (n r : Nat) (v : Option FastPacket) : memOf (setFp s n r v) = memOf s := by simp [setFp]

@[simp] theorem memOf_sofCount (s : State) (n : Nat) (launch : Option (Word × Word)) (first : Bool) :
    memOf (sofCount s n launch first) = memOf s := by
  simp [sofCount]

@[simp] theorem memOf_sendBegin (s : State) (n : Nat) (x : SendFrame) : memOf (sendBegin s n x) = memOf s := by simp [sendBegin]

@[simp] theorem memOf_copyBegin (s : State) (n : Nat) : memOf (copyBegin s n) = memOf s := by
  unfold copyBegin
  split <;> simp

@[simp] theorem memOf_canSent (s : State) (n : Nat) (f : CanFrame) : memOf (canSent s n f) = memOf s := by simp [canSent]

@[simp] theorem memOf_canSettings (s : State) (n : Nat) (w : Nat → Word) : memOf (canSettings s n w) = memOf s := by simp [canSettings]

@[simp] theorem memOf_canApply (s : State) (n slot : Nat) (ws : List Word) : memOf (canApply s n slot ws) = memOf s := by simp [canApply]

@[simp] theorem memOf_canStop (s : State) (n slot : Nat) : memOf (canStop s n slot) = memOf s := by simp [canStop]

@[simp] theorem memOf_canFrameEnd (s : State) (n : Nat) : memOf (canFrameEnd s n) = memOf s := by
  simp only [canFrameEnd]
  repeat' split
  all_goals simp

@[simp] theorem memOf_sendEnd (s : State) (n : Nat) (x : SendFrame) (sent : Bool) : memOf (sendEnd s n x sent) = memOf s := by
  simp [sendEnd]

@[simp] theorem memOf_copyEnd (s : State) (n : Nat) (sent : Bool) : memOf (copyEnd s n sent) = memOf s := by
  simp only [copyEnd]
  repeat' split
  all_goals simp

@[simp] theorem memOf_canPend (s : State) (slot : Nat) (c : HostCmd) (data : List Byte) : memOf (canPend s slot c data) = memOf s := by
  simp [canPend]

@[simp] theorem memOf_canPortSet (s : State) (n slot : Nat) (ws : List Word) : memOf (canPortSet s n slot ws) = memOf s := by
  simp [canPortSet]

@[simp] theorem memOf_canPortEnable (s : State) (n slot : Nat) : memOf (canPortEnable s n slot) = memOf s := by simp [canPortEnable]

@[simp] theorem memOf_canPortDisable (s : State) (n slot : Nat) : memOf (canPortDisable s n slot) = memOf s := by simp [canPortDisable]

@[simp] theorem memOf_canStatus (s : State) (n : Nat) : memOf (canStatus s n).1 = memOf s := by simp [canStatus]

/-! ## Ethernet: frames and links -/

@[simp] theorem memOf_setEth (s : State) (n : Nat) (v : EthPort) : memOf (setEth s n v) = memOf s := by simp [setEth]

/-! ## PTP (R86 to R106) -/

@[simp] theorem memOf_setPtp (s : State) (n : Nat) (p : PtpPort) : memOf (setPtp s n p) = memOf s := by simp [setPtp]

@[simp] theorem memOf_ptpSend (s : State) (n : Nat) (f : PtpFrame) : memOf (ptpSend s n f) = memOf s := by simp [ptpSend]

@[simp] theorem memOf_ptpFrame (s : State) (n : Nat) (peer event : Bool) (msg : List Byte) :
    memOf (ptpFrame s n peer event msg).1 = memOf s := by
  simp [ptpFrame]

@[simp] theorem memOf_ptpPost (s : State) (n : Nat) (kind : PtpKind) (peer event : Bool) (ref : Stamp) (corr : Int) (msg : List Byte) :
    memOf (ptpPost s n kind peer event ref corr msg) = memOf s := by
  simp [ptpPost]

@[simp] theorem memOf_roundFree (s : State) (v : Int) (n : Nat) : memOf (roundFree s v n).1 = memOf s := by simp [roundFree]

@[simp] theorem memOf_ptpMeasure (s : State) (n : Nat) (twice : Int) : memOf (ptpMeasure s n twice) = memOf s := by
  simp only [ptpMeasure]
  split <;> simp

@[simp] theorem memOf_ptpOffset (s : State) (n : Nat) (rx : Edge) (origin : Int) : memOf (ptpOffset s n rx origin) = memOf s := by
  simp only [ptpOffset]
  split <;> simp

@[simp] theorem memOf_ptpSync (s : State) (n : Nat) (bs : List Byte) (p : Nat) (rx : Edge) : memOf (ptpSync s n bs p rx) = memOf s := by
  simp [ptpSync]

@[simp] theorem memOf_ptpFollow (s : State) (n : Nat) (bs : List Byte) (p : Nat) : memOf (ptpFollow s n bs p) = memOf s := by
  unfold ptpFollow
  split <;> simp

@[simp] theorem memOf_ptpDelayResp (s : State) (n : Nat) (bs : List Byte) (p : Nat) : memOf (ptpDelayResp s n bs p) = memOf s := by
  unfold ptpDelayResp
  split <;> simp

@[simp] theorem memOf_ptpPdelayResp (s : State) (n : Nat) (bs : List Byte) (p : Nat) (rx : Edge) :
    memOf (ptpPdelayResp s n bs p rx) = memOf s := by
  unfold ptpPdelayResp
  split <;> simp

@[simp] theorem memOf_ptpPdelayFollow (s : State) (n : Nat) (bs : List Byte) (p : Nat) : memOf (ptpPdelayFollow s n bs p) = memOf s := by
  unfold ptpPdelayFollow
  split <;> simp

@[simp] theorem memOf_ptpDelayReq (s : State) (n : Nat) (bs : List Byte) (p : Nat) (rx : Edge) :
    memOf (ptpDelayReq s n bs p rx) = memOf s := by
  simp [ptpDelayReq]

@[simp] theorem memOf_ptpPdelayReq (s : State) (n : Nat) (bs : List Byte) (p : Nat) (rx : Edge) :
    memOf (ptpPdelayReq s n bs p rx) = memOf s := by
  simp [ptpPdelayReq]

@[simp] theorem memOf_ptpForward (s : State) (n : Nat) (bs : List Byte) (p : Nat) (rx : Edge) :
    memOf (ptpForward s n bs p rx) = memOf s := by
  simp [ptpForward]

@[simp] theorem memOf_ptpReceive (s : State) (n : Nat) (bs : List Byte) (p : Nat) (e : Edge) : memOf (ptpReceive s n bs p e) = memOf s := by
  simp [ptpReceive]

@[simp] theorem memOf_ptpDeparted (s : State) (n : Nat) (f : PtpFrame) (e : Edge) : memOf (ptpDeparted s n f e) = memOf s := by
  fun_cases ptpDeparted s n f e <;> simp

/-! ## Serial reception -/

@[simp] theorem memOf_framerDiscard (s : State) (p : Nat) : memOf (framerDiscard s p) = memOf s := by simp [framerDiscard]

@[simp] theorem memOf_serialOverrun (s : State) (p : Nat) (inj : Bool) : memOf (serialOverrun s p inj) = memOf s := by simp [serialOverrun]

@[simp] theorem memOf_leashResume (s : State) (p : Nat) : memOf (leashResume s p) = memOf s := by simp [leashResume]

@[simp] theorem memOf_leashReceived (s : State) (p : Nat) (ch : Byte) : memOf (leashReceived s p ch) = memOf s := by simp [leashReceived]

@[simp] theorem memOf_leashCount (s : State) (p : Nat) : memOf (leashCount s p) = memOf s := by simp [leashCount]

@[simp] theorem memOf_lineLow (s : State) (p : Nat) (bits : List Bool) (e : Edge) : memOf (lineLow s p bits e) = memOf s := by
  simp [lineLow]

@[simp] theorem memOf_serialEdge (s : State) (p k : Nat) : memOf (serialEdge s p k).1 = memOf s := by simp [serialEdge]

@[simp] theorem memOf_lineBusy (s : State) (p n : Nat) : memOf (lineBusy s p n) = memOf s := by simp [lineBusy]

@[simp] theorem memOf_charInject (s : State) (p : Nat) : memOf (charInject s p).1 = memOf s := by simp [charInject]

@[simp] theorem memOf_freeStamp (s : State) : memOf (freeStamp s).1 = memOf s := by simp [freeStamp]

/-! ## Ethernet ports (R267 to R288) -/

@[simp] theorem memOf_ethDropLaunches (s : State) (n status : Nat) : memOf (ethDropLaunches s n status) = memOf s := by
  simp [ethDropLaunches]

@[simp] theorem memOf_ethAbandon (s : State) (n : Nat) : memOf (ethAbandon s n) = memOf s := by
  simp only [ethAbandon]
  split <;> simp

@[simp] theorem memOf_ethLinkDown (s : State) (n : Nat) : memOf (ethLinkDown s n) = memOf s := by simp [ethLinkDown]

@[simp] theorem memOf_ethStop (s : State) (n slot : Nat) : memOf (ethStop s n slot) = memOf s := by simp [ethStop]

@[simp] theorem memOf_ethFrameEnd (s : State) (n : Nat) : memOf (ethFrameEnd s n) = memOf s := by
  simp only [ethFrameEnd]
  split <;> simp

@[simp] theorem memOf_ethToHost (s : State) (n ring : Nat) (bs : List Byte) (e : Edge) : memOf (ethToHost s n ring bs e) = memOf s := by
  simp [ethToHost]

@[simp] theorem memOf_ethUdpFire (s : State) (n : Nat) (inj : Bool) : memOf (ethUdpFire s n inj) = memOf s := by simp [ethUdpFire]

@[simp] theorem memOf_ethRoute (s : State) (n : Nat) (bs : List Byte) (e : Edge) (size : Nat) :
    memOf (ethRoute s n bs e size) = memOf s := by
  simp only [ethRoute]
  repeat' split
  all_goals simp

@[simp] theorem memOf_judgeParts (s : State) (n sum : Nat) (ps : List Piece) (k : Nat) (sfi : Option (List Byte)) :
    memOf (judgeParts s n sum ps k sfi).1 = memOf s := by
  induction ps generalizing s k sfi with
  | nil => rfl
  | cons p ps ih =>
    cases p with
    | malformed => simp [judgeParts, ih]
    | part bs => simp [judgeParts, ih]

@[simp] theorem memOf_dupCheck (s : State) (window : Nat) (sfi : List Byte) (group : Word) (line : Nat) :
    memOf (dupCheck s window sfi group line).1 = memOf s := by
  fun_cases dupCheck s window sfi group line <;> simp

@[simp] theorem memOf_ethBegin (s : State) (n d : Nat) (f : TxFrame) (bs : List Byte) (e : Edge) (launch : Option (Word × Word)) :
    memOf (ethBegin s n d f bs e launch) = memOf s := by
  simp [ethBegin]

@[simp] theorem memOf_ethDatagram (s : State) (n : Nat) (c : Copy) (t : Stamp) : memOf (ethDatagram s n c t).1 = memOf s := by
  simp [ethDatagram]

@[simp] theorem memOf_ethEcho (s : State) (n : Nat) (f : LaunchFrame) (e : Edge) : memOf (ethEcho s n f e) = memOf s := by simp [ethEcho]

@[simp] theorem memOf_ethRefused (s : State) (slot n status : Nat) : memOf (ethRefused s slot n status) = memOf s := by simp [ethRefused]

@[simp] theorem memOf_ethPend (s : State) (slot : Nat) (c : HostCmd) (data : List Byte) : memOf (ethPend s slot c data) = memOf s := by
  simp only [ethPend]
  split <;> simp

@[simp] theorem memOf_ethPortSet (s : State) (n slot : Nat) (w : Nat → Word) : memOf (ethPortSet s n slot w) = memOf s := by
  simp [ethPortSet]

@[simp] theorem memOf_ethPortEnable (s : State) (n slot : Nat) : memOf (ethPortEnable s n slot) = memOf s := by simp [ethPortEnable]

@[simp] theorem memOf_ethPortDisable (s : State) (n slot : Nat) : memOf (ethPortDisable s n slot) = memOf s := by simp [ethPortDisable]

@[simp] theorem memOf_mdioWrite (s : State) (v : Word) : memOf (mdioWrite s v) = memOf s := by simp [mdioWrite]

/-! ## Event inputs (R149 to R159) -/

@[simp] theorem memOf_setEvIn (s : State) (i : Nat) (v : EvIn) : memOf (setEvIn s i v) = memOf s := by simp [setEvIn]

@[simp] theorem memOf_eiPush (s : State) (i kind : Nat) (first last : Edge) (nostamp : Bool) (lost : Nat) (inj : Bool) :
    memOf (eiPush s i kind first last nostamp lost inj) = memOf s := by
  simp [eiPush]

@[simp] theorem memOf_burstClose (s : State) (i : Nat) : memOf (burstClose s i) = memOf s := by
  simp only [burstClose]
  repeat' split
  all_goals simp

@[simp] theorem memOf_burstEdge (s : State) (i : Nat) (e : Option Edge) (inj : Bool) : memOf (burstEdge s i e inj) = memOf s := by
  simp [burstEdge]

@[simp] theorem memOf_eiRecord (s : State) (i kind : Nat) (written : Bool) (e : Option Edge) (inj : Bool) :
    memOf (eiRecord s i kind written e inj).1 = memOf s := by
  unfold eiRecord
  split <;> simp

@[simp] theorem memOf_eiAccept (s : State) (i : Nat) (e : Option Edge) : memOf (eiAccept s i e) = memOf s := by
  cases e <;> simp [eiAccept]

@[simp] theorem memOf_eiJudge (s : State) (i : Nat) (at_ : Int) : memOf (eiJudge s i at_) = memOf s := by
  unfold eiJudge
  split <;> simp

@[simp] theorem memOf_eiForced (s : State) (i : Nat) : memOf (eiForced s i) = memOf s := by simp [eiForced]

@[simp] theorem memOf_eiToRing (s : State) (i : Nat) (r : EvRec) : memOf (eiToRing s i r).1 = memOf s := by
  simp only [eiToRing]
  repeat' split
  all_goals simp

@[simp] theorem memOf_eiPortSet (s : State) (i slot : Nat) (w : Nat → Word) : memOf (eiPortSet s i slot w) = memOf s := by simp [eiPortSet]

@[simp] theorem memOf_eiPortEnable (s : State) (i slot : Nat) : memOf (eiPortEnable s i slot) = memOf s := by simp [eiPortEnable]

@[simp] theorem memOf_eiStop (s : State) (i : Nat) : memOf (eiStop s i).1 = memOf s := by simp [eiStop]

@[simp] theorem memOf_eiPortDisable (s : State) (i slot : Nat) : memOf (eiPortDisable s i slot) = memOf s := by simp [eiPortDisable]

/-! ## Serial transmission -/

@[simp] theorem memOf_txBegin (s : State) (p : Nat) (it : TxItem) (at_ : Int) (late : Bool) :
    memOf (txBegin s p it at_ late) = memOf s := by
  simp only [txBegin]
  repeat' split
  all_goals simp

@[simp] theorem memOf_psEdge (s : State) (t : Int) : memOf (psEdge s t).1 = memOf s := by simp [psEdge]

@[simp] theorem memOf_txPlace (s : State) (p : Nat) (it : TxItem) : memOf (txPlace s p it).1 = memOf s := by
  unfold txPlace
  split <;> simp

@[simp] theorem memOf_txDeparted (s : State) (p : Nat) (r : TxRun) : memOf (txDeparted s p r) = memOf s := by simp [txDeparted]

@[simp] theorem memOf_rollDice (s : State) (p : Nat) : memOf (rollDice s p).1 = memOf s := by simp [rollDice]

@[simp] theorem memOf_txCollide (s : State) (p : Nat) (it : TxItem) (inj : Bool) : memOf (txCollide s p it inj) = memOf s := by
  simp [txCollide]

@[simp] theorem memOf_txAttempt (s : State) (p : Nat) (it : TxItem) : memOf (txAttempt s p it) = memOf s := by
  unfold txAttempt
  split
  · rfl
  next h => simp [memOf_of_eq h]

@[simp] theorem memOf_serialSettings (s : State) (p : Nat) (w : Nat → Word) : memOf (serialSettings s p w) = memOf s := by
  simp [serialSettings]

@[simp] theorem memOf_settingsDone (s : State) (p slot : Nat) : memOf (settingsDone s p slot) = memOf s := by simp [settingsDone]

@[simp] theorem memOf_serialPortSet (s : State) (p slot : Nat) (w : Nat → Word) : memOf (serialPortSet s p slot w) = memOf s := by
  simp [serialPortSet]

@[simp] theorem memOf_serialPortEnable (s : State) (p slot : Nat) : memOf (serialPortEnable s p slot) = memOf s := by
  simp [serialPortEnable]

@[simp] theorem memOf_serialTxStop (s : State) (p : Nat) : memOf (serialTxStop s p).1 = memOf s := by simp [serialTxStop]

@[simp] theorem memOf_shifterEnd (s : State) (p : Nat) : memOf (shifterEnd s p) = memOf s := by
  unfold shifterEnd
  split <;> simp

@[simp] theorem memOf_serialPortDisable (s : State) (p slot : Nat) : memOf (serialPortDisable s p slot) = memOf s := by
  simp [serialPortDisable]

/-! ## Settings, enables and disables of ports -/

@[simp] theorem memOf_panelPortSet (s : State) (n slot : Nat) (ws : List Word) : memOf (panelPortSet s n slot ws) = memOf s := by
  simp [panelPortSet]

@[simp] theorem memOf_panelPortDisable (s : State) (n slot : Nat) : memOf (panelPortDisable s n slot) = memOf s := by
  simp [panelPortDisable]

@[simp] theorem memOf_portSet (s : State) (cls num slot : Nat) (ws : List Word) : memOf (portSet s cls num slot ws) = memOf s := by
  simp [portSet]

@[simp] theorem memOf_portEnable (s : State) (cls num slot : Nat) : memOf (portEnable s cls num slot) = memOf s := by simp [portEnable]

@[simp] theorem memOf_portDisable (s : State) (cls num slot : Nat) : memOf (portDisable s cls num slot) = memOf s := by simp [portDisable]

/-! ## Injection, wedges and hounds (R326 to R346) -/

@[simp] theorem memOf_releaseAll (s : State) : memOf (releaseAll s) = memOf s := by simp [releaseAll]

@[simp] theorem memOf_aliveLow (s : State) : memOf (aliveLow s) = memOf s := by simp [aliveLow]

@[simp] theorem memOf_hubStop (s : State) (px : Bool) : memOf (hubStop s px) = memOf s := by simp [hubStop]

@[simp] theorem memOf_wedgeSerial (s : State) (p : Nat) : memOf (wedgeSerial s p) = memOf s := by
  simp only [wedgeSerial]
  split <;> simp

@[simp] theorem memOf_wedgeCan (s : State) (n : Nat) : memOf (wedgeCan s n) = memOf s := by
  simp only [wedgeCan]
  repeat' split
  all_goals simp

@[simp] theorem memOf_wedgeEventOut (s : State) (m : Nat) : memOf (wedgeEventOut s m) = memOf s := by
  simp only [wedgeEventOut]
  split <;> simp

@[simp] theorem memOf_wedgePanel (s : State) (n : Nat) : memOf (wedgePanel s n) = memOf s := by
  simp only [wedgePanel]
  split <;> simp

@[simp] theorem memOf_wedgeFlash (s : State) : memOf (wedgeFlash s) = memOf s := by simp [wedgeFlash]

@[simp] theorem memOf_wedgeLog (s : State) (unit d2 : Nat) : memOf (wedgeLog s unit d2) = memOf s := by simp [wedgeLog]

/-! ## Pairing (R363 to R370) -/

@[simp] theorem memOf_setPair (s : State) (p : Pair) : memOf (setPair s p) = memOf s := by simp [setPair]

@[simp] theorem memOf_pairEvent (s : State) (d2 d3 : Nat) : memOf (pairEvent s d2 d3) = memOf s := by simp [pairEvent]

@[simp] theorem memOf_panelKeep (s : State) (e : Nat) : memOf (panelKeep s e) = memOf s := by simp [panelKeep]

@[simp] theorem memOf_takeAll (s : State) (es : List Nat) : memOf (takeAll s es) = memOf s := by simp [takeAll]

@[simp] theorem memOf_pairRestart (s : State) (en : Bool) (val : Word) : memOf (pairRestart s en val) = memOf s := by simp [pairRestart]

@[simp] theorem memOf_pairCtrlWrite (s : State) (val : Word) : memOf (pairCtrlWrite s val) = memOf s := by simp [pairCtrlWrite]

@[simp] theorem memOf_beatSample (s : State) (m : List Word) : memOf (beatSample s m) = memOf s := by
  simp only [beatSample]
  repeat' split
  all_goals simp

@[simp] theorem memOf_takeHome (s : State) : memOf (takeHome s) = memOf s := by simp [takeHome]

@[simp] theorem memOf_takeover (s : State) : memOf (takeover s) = memOf s := by simp [takeover]

@[simp] theorem memOf_silentFault (s : State) : memOf (silentFault s) = memOf s := by simp [silentFault]

@[simp] theorem memOf_silenceAct (s : State) : memOf (silenceAct s) = memOf s := by
  simp only [silenceAct]
  split <;> simp

/-! ## Statistics and BAR2 -/

@[simp] theorem memOf_bar2Word (s : State) (off : Nat) : memOf (bar2Word s off).1 = memOf s := by simp [bar2Word]

@[simp] theorem memOf_bar2Words (s : State) (off n : Nat) : memOf (bar2Words s off n).1 = memOf s := by
  induction n generalizing s off with
  | zero => rfl
  | succ n ih => simp [bar2Words, ih]

@[simp] theorem memOf_badAccess (s : State) : memOf (badAccess s) = memOf s := by simp [badAccess]

/-! ## Submission of commands (R37 to R47) -/

@[simp] theorem memOf_windowPut (s : State) (w k : Nat) (l : List Word) : memOf (windowPut s w k l) = memOf s := by
  induction l generalizing s k with
  | nil => rfl
  | cons d ds ih => simp [windowPut, ih]

@[simp] theorem memOf_windowLoad (s : State) (w k : Nat) (data : List Word) : memOf (windowLoad s w k data) = memOf s := by
  simp [windowLoad]

@[simp] theorem memOf_windowClear (s : State) (w : Nat) : memOf (windowClear s w) = memOf s := by simp [windowClear]

@[simp] theorem memOf_allocate (s : State) (words : List Word) : memOf (allocate s words).1 = memOf s := by
  unfold allocate
  split <;> simp

@[simp] theorem memOf_scheduleReset (s : State) : memOf (scheduleReset s) = memOf s := by simp [scheduleReset]

@[simp] theorem memOf_acceptResult (s : State) (w : Nat) : memOf (acceptResult s w).1 = memOf s := by simp [acceptResult]

@[simp] theorem memOf_acceptRead (s : State) (w : Nat) : memOf (acceptRead s w).1 = memOf s := by simp [acceptRead]

@[simp] theorem memOf_replied (s : State) (off : Nat) (v : Word) : memOf (replied s off v) = memOf s := by simp [replied]

/-! ## Registers of the host -/

@[simp] theorem memOf_levelRestart (s : State) (off : Nat) : memOf (levelRestart s off) = memOf s := by simp [levelRestart]

@[simp] theorem memOf_readTouch (s : State) (off : Nat) : memOf (readTouch s off) = memOf s := by simp [readTouch]

@[simp] theorem memOf_rcClear (s : State) (off : Nat) : memOf (rcClear s off) = memOf s := by simp [rcClear]

@[simp] theorem memOf_hostRead (s : State) (off : Nat) : memOf (hostRead s off).1 = memOf s := by
  fun_cases hostRead s off <;> simp

@[simp] theorem memOf_plainWrite (s : State) (off : Nat) (v : Word) : memOf (plainWrite s off v) = memOf s := by
  unfold plainWrite
  split <;> simp

@[simp] theorem memOf_todWrite (s : State) (v : Word) : memOf (todWrite s v) = memOf s := by simp [todWrite]

@[simp] theorem memOf_timeWrite (s : State) (off : Nat) (v : Word) : memOf (timeWrite s off v) = memOf s := by
  fun_cases timeWrite s off v <;> simp

@[simp] theorem memOf_vidCtrlWrite (s : State) (v : Word) : memOf (vidCtrlWrite s v) = memOf s := by simp [vidCtrlWrite]

@[simp] theorem memOf_eoWrite (s : State) (off : Nat) (v : Word) : memOf (eoWrite s off v) = memOf s := by
  unfold eoWrite
  split <;> simp

@[simp] theorem memOf_bridgeWrite (s : State) (off : Nat) (v : Word) : memOf (bridgeWrite s off v) = memOf s := by simp [bridgeWrite]

@[simp] theorem memOf_panelWrite (s : State) (off : Nat) (v : Word) : memOf (panelWrite s off v) = memOf s := by
  unfold panelWrite
  split <;> simp

@[simp] theorem memOf_pairMapWrite (s : State) (off : Nat) (v : Word) : memOf (pairMapWrite s off v) = memOf s := by simp [pairMapWrite]

@[simp] theorem memOf_hostBlockWrite (s : State) (off : Nat) (v : Word) : memOf (hostBlockWrite s off v) = memOf s := by
  unfold hostBlockWrite
  split
  · simp
  · split
    · simp
    · split <;> simp

@[simp] theorem memOf_hostWrite (s : State) (off : Nat) (v : Word) : memOf (hostWrite s off v) = memOf s := by simp [hostWrite]

/-! ## Commands of the host -/

@[simp] theorem memOf_panelCommand (s : State) (c : HostCmd) (src : PanelSrc) : memOf (panelCommand s c src) = memOf s := by
  simp [panelCommand]

@[simp] theorem memOf_lineTouched (s : State) (addr : Nat) : memOf (lineTouched s addr) = memOf s := by simp [lineTouched]

@[simp] theorem memOf_fetchFault (s : State) (c : HostCmd) (f : Fetch) : memOf (fetchFault s c f) = memOf s := by simp [fetchFault]

@[simp] theorem memOf_fetchWhole (s : State) (c : HostCmd) (bytes : List Byte) : memOf (fetchWhole s c bytes) = memOf s := by
  simp [fetchWhole]

/-! ## Power and resets (R349 to R354) -/

@[simp] theorem memOf_setPower (s : State) (p : Power) : memOf (setPower s p) = memOf s := by simp [setPower]

@[simp] theorem memOf_keepIrq (s t : State) : memOf (keepIrq s t) = memOf t := by simp [keepIrq]

/-- A reset leaves every memory as after a power-on reset. -/
@[simp] theorem memOf_resetState (s : State) (p : Power) : memOf (resetState s p) = memOf State.reset := by simp [resetState]

/-- The memories after a power-on reset list no word. -/
@[simp] theorem memsWf_reset : MemsWf (memOf State.reset) := fun m => by cases m <;> rfl

@[simp] theorem memOf_fullReset (s : State) (cause : Nat) (p : Power) : memOf (fullReset s cause p) = memOf State.reset := by
  simp [fullReset]

@[simp] theorem memOf_warmReset (s : State) (cause : Nat) (keep : Bool) : memOf (warmReset s cause keep) = memOf State.reset := by
  simp [warmReset]

@[simp] theorem memOf_enablesUp (s : State) : memOf (enablesUp s) = memOf s := by simp [enablesUp]

@[simp] theorem memOf_resetTaken (s : State) : memOf (resetTaken s) = memOf State.reset := by simp [resetTaken]

@[simp] theorem memOf_enableStep (s : State) (k : Nat) : memOf (enableStep s k) = memOf s := by simp [enableStep]

@[simp] theorem memOf_memResume (s : State) : memOf (memResume s) = memOf s := by simp [memResume]

@[simp] theorem memOf_partialDropped (s : State) (n : Nat) : memOf (partialDropped s n) = memOf s := by simp [partialDropped]

/-! ## Sleep (R358 to R362) -/

@[simp] theorem memOf_wakeBy (s : State) (bits : Nat) : memOf (wakeBy s bits) = memOf s := by simp [wakeBy]

@[simp] theorem memOf_entryEnd (s : State) : memOf (entryEnd s) = memOf s := by simp [entryEnd]

@[simp] theorem memOf_setWatch (s : State) (j : Nat) (v : Watch) : memOf (setWatch s j v) = memOf s := by simp [setWatch]

@[simp] theorem memOf_watchChar (s : State) (w : Watch) (c : RawChar) (idle : Nat) : memOf (watchChar s w c idle) = memOf s := by
  simp [watchChar]

@[simp] theorem memOf_watchEnd (s : State) (j : Nat) : memOf (watchEnd s j) = memOf s := by simp [watchEnd]

/-! ## Boot (R354 to R357) -/

@[simp] theorem memOf_recordWrites (s : State) (w : Nat → Word) (k n : Nat) : memOf (recordWrites s w k n) = memOf s := by
  induction n generalizing s k with
  | zero => rfl
  | succ n ih => simp [recordWrites, ih]

@[simp] theorem memOf_bootEnd (s : State) (result : Nat) (first : Option Nat) (skipped : Nat) (valid : Bool) :
    memOf (bootEnd s result first skipped valid) = memOf s := by
  simp [bootEnd]

/-! ## Nymsa: reads and steps (R190 to R195) -/

@[simp] theorem memOf_setWreg (s : State) (e n : Nat) (v : Word) : memOf (setWreg s e n v) = memOf s := by simp [setWreg]

@[simp] theorem memOf_setFlags (s : State) (e : Nat) (f : BitVec 16 → BitVec 16) : memOf (setFlags s e f) = memOf s := by simp [setFlags]

@[simp] theorem memOf_result (s : State) (e : Nat) (w v : Word) (f : BitVec 16 → BitVec 16) : memOf (result s e w v f) = memOf s := by
  simp [result]

@[simp] theorem memOf_moveCursor (s : State) (e c : Nat) : memOf (moveCursor s e c) = memOf s := by simp [moveCursor]

@[simp] theorem memOf_setEffect (s : State) (e : Nat) : memOf (setEffect s e) = memOf s := by simp [setEffect]

@[simp] theorem memOf_engWait (s : State) (e : Nat) : memOf (engWait s e) = memOf s := by simp [engWait]

@[simp] theorem memOf_charge (s : State) (e c : Nat) : memOf (charge s e c) = memOf s := by simp [charge]

@[simp] theorem memOf_engPass (s : State) (e a : Nat) : memOf (engPass s e a) = memOf s := by simp [engPass]

/-! ## Nymsa: arithmetic (R205 to R207) -/

@[simp] theorem memOf_limited32 (s : State) (e : Nat) (w : Word) (v : Int) : memOf (limited32 s e w v) = memOf s := by simp [limited32]

/-! ## Nymsa: fields and text (R196 to R204) -/

@[simp] theorem memOf_jump (s : State) (e pc : Nat) : memOf (jump s e pc) = memOf s := by simp [jump]

@[simp] theorem memOf_parsed (s : State) (e : Nat) (w : Word) (n v : Bool) (p : Parsed) : memOf (parsed s e w n v p) = memOf s := by
  simp only [parsed]
  split <;> simp

/-! ## Nymsa: items (R213 to R219) -/

@[simp] theorem memOf_refused (s : State) (e : Nat) (r : Bool) : memOf (refused s e r) = memOf s := by simp [refused]

@[simp] theorem memOf_setItem (s : State) (e : Nat) (i : Option Item) : memOf (setItem s e i) = memOf s := by simp [setItem]

@[simp] theorem memOf_append (s : State) (e : Nat) (bs : List Byte) : memOf (append s e bs) = memOf s := by
  unfold append
  split <;> simp

/-! ## Nymsa: store, time and housekeeping (R208 to R221) -/

@[simp] theorem memOf_setTimePair (s : State) (e n : Nat) (sec ns : Word) : memOf (setTimePair s e n sec ns) = memOf s := by
  simp [setTimePair]

@[simp] theorem memOf_eventRead (s : State) (e : Nat) (r : Rec) (k n : Nat) : memOf (eventRead s e r k n).1 = memOf s := by
  induction n generalizing s k with
  | zero => rfl
  | succ n ih => simp [eventRead, ih]

/-! ## The tick -/

@[simp] theorem memOf_leashTick (s : State) : memOf (leashTick s) = memOf s := by simp [leashTick]

@[simp] theorem memOf_slTick (s : State) : memOf (slTick s) = memOf s := by simp [slTick]

end Sys2Proof.Machine
end

section
/-! # What keeps the canonical form: the state's operations, time, intake, listeners and the bridge -/

namespace Sys2Proof.Machine

/-! ## Operations of the state -/

@[simp] theorem memsWf_memFreeWords {s : State} (h : MemsWf (memOf s)) (m : Mem) (a n : Nat) : MemsWf (memOf (memFreeWords s m a n)) := by
  induction n generalizing s a with
  | zero => exact h
  | succ n ih => exact ih (by simp [h]) (a + 1)

/-! ## Commands -/

@[simp] theorem nextWf_execNopCommand {s : State} (h : MemsWf (memOf s)) (slot : Fin 256) : NextWf (execNopCommand slot s) := by
  unfold execNopCommand
  split <;> simp [h]

/-! ## Calibration (R73 to R85) -/

@[simp] theorem nextWf_execCalMidpoint {s : State} (h : MemsWf (memOf s)) (g : Fin 8) : NextWf (execCalMidpoint g s) := by
  simp [execCalMidpoint, h]

@[simp] theorem nextWf_execCalIntervalEnd {s : State} (h : MemsWf (memOf s)) (g : Fin 8) (dither : List Nat) :
    NextWf (execCalIntervalEnd g dither s) := by
  simp [execCalIntervalEnd, h]

@[simp] theorem nextWf_execCalHitsReached {s : State} (h : MemsWf (memOf s)) (g : Fin 8) (dither : List Nat) :
    NextWf (execCalHitsReached g dither s) := by
  simp [execCalHitsReached, h]

@[simp] theorem nextWf_execCalTrigger {s : State} (h : MemsWf (memOf s)) (g : Fin 8) (temp mv : BitVec 16) :
    NextWf (execCalTrigger g temp mv s) := by
  unfold execCalTrigger
  split <;> simp [h]

@[simp] theorem nextWf_execTdcTableSwitch {s : State} (h : MemsWf (memOf s)) (t : Fin 164) : NextWf (execTdcTableSwitch t s) := by
  simp [execTdcTableSwitch, h]

@[simp] theorem nextWf_execCalRun {s : State} (h : MemsWf (memOf s)) (slot : Fin 256) : NextWf (execCalRun slot s) := by
  unfold execCalRun
  split <;> simp [h]

@[simp] theorem nextWf_execCalSnapshot {s : State} (h : MemsWf (memOf s)) (slot : Fin 256) : NextWf (execCalSnapshot slot s) := by
  unfold execCalSnapshot
  split <;> simp [h]

/-! ## Event outputs (R107 to R120) -/

@[simp] theorem nextWf_execEoPulseQueue {s : State} (h : MemsWf (memOf s)) (m : Fin 8) (frac : Word) :
    NextWf (execEoPulseQueue m frac s) := by
  simp [execEoPulseQueue, h]

@[simp] theorem nextWf_execEoPulse {s : State} (h : MemsWf (memOf s)) (m : Fin 8) : NextWf (execEoPulse m s) := by
  unfold execEoPulse
  split
  · exact h
  · split
    next he => simp [memOf_eoNext he, h]
    next => exact h

@[simp] theorem nextWf_execEoPulseEnd {s : State} (h : MemsWf (memOf s)) (m : Fin 8) : NextWf (execEoPulseEnd m s) := by
  unfold execEoPulseEnd
  split <;> simp [h]

/-! ## The retriever: slots, banks and talkers (R328 to R338) -/

@[simp] theorem memsWf_slotEmpty {s : State} (h : MemsWf (memOf s)) (slot : Nat) : MemsWf (memOf (slotEmpty s slot)) := by
  simp [slotEmpty, h]

@[simp] theorem memsWf_slotCheck {s : State} (h : MemsWf (memOf s)) (slot reader : Nat) (readers ws : List Nat) :
    MemsWf (memOf (slotCheck s slot reader readers ws).1) := by
  induction ws generalizing s with
  | nil => exact h
  | cons w ws ih =>
    simp only [slotCheck]
    split <;> simp [h, ih]

@[simp] theorem memsWf_slotTake {s : State} (h : MemsWf (memOf s)) (slot : Nat) (idx : List Nat) (reader : Nat) (readers : List Nat) :
    MemsWf (memOf (slotTake s slot idx reader readers).1) := by
  simp [slotTake, h]

@[simp] theorem memsWf_substPut {s : State} (h : MemsWf (memOf s)) (m : Mem) (a : Nat) : MemsWf (memOf (substPut s m a)) := by
  unfold substPut
  split <;> simp [h]

@[simp] theorem memsWf_substWord {s : State} (h : MemsWf (memOf s)) (m : Mem) (a reader : Nat) (inj : Bool) :
    MemsWf (memOf (substWord s m a reader inj)) := by
  simp [substWord, h]

@[simp] theorem memsWf_bankRead {s : State} (h : MemsWf (memOf s)) (m : Mem) (a reader : Nat) (readers : List Nat) :
    MemsWf (memOf (bankRead s m a reader readers).1) := by
  simp only [bankRead]
  repeat' split
  all_goals simp [h]

@[simp] theorem nextWf_execProgramRefetchDone {s : State} (h : MemsWf (memOf s)) (data : Option (List Word)) :
    NextWf (execProgramRefetchDone data s) := by
  simp only [execProgramRefetchDone]
  repeat' split
  all_goals simp [h]

@[simp] theorem memsWf_setTalkW {s : State} (h : MemsWf (memOf s)) (i w : Nat) (v : Word) : MemsWf (memOf (setTalkW s i w v)) := by
  simp [setTalkW, h]

@[simp] theorem memsWf_hear {s : State} (h : MemsWf (memOf s)) (i : Nat) : MemsWf (memOf (hear s i)) := by simp [hear, h]

@[simp] theorem memsWf_talkerRepair {s : State} (h : MemsWf (memOf s)) (i w reader : Nat) (inj : Bool) :
    MemsWf (memOf (talkerRepair s i w reader inj)) := by
  have hclear := memsWf_hear (memsWf_setTalkW (memsWf_setTalkW (memsWf_setTalkW h i 13 0) i 14 0) i 15 0) i
  unfold talkerRepair
  repeat' split
  · simp [h]
  · simp [h]
  · simp [h]
  · simpa using hclear

@[simp] theorem memsWf_talkerRead {s : State} (h : MemsWf (memOf s)) (i reader : Nat) (readers ws : List Nat) :
    MemsWf (memOf (talkerRead s i reader readers ws).1) := by
  induction ws generalizing s with
  | nil => exact h
  | cons w ws ih => simp [talkerRead, h, ih]

@[simp] theorem memsWf_talkerCheck {s : State} (h : MemsWf (memOf s)) (i reader : Nat) (readers ws : List Nat) :
    MemsWf (memOf (talkerCheck s i reader readers ws)) := memsWf_talkerRead h i reader readers ws

@[simp] theorem memsWf_talkersRead {s : State} (h : MemsWf (memOf s)) (ws : List Nat) (reader : Nat) (is : List Nat) :
    MemsWf (memOf (talkersRead s ws reader is).1) := by
  induction is generalizing s with
  | nil => exact h
  | cons i is ih => simp [talkersRead, h, ih]

/-! ## The time base (R63 to R72, R86 to R106) -/

@[simp] theorem nextWf_execTodPairing {s : State} (h : MemsWf (memOf s)) : NextWf (execTodPairing s) := by simp [execTodPairing, h]

@[simp] theorem nextWf_execPairWindowClose {s : State} (h : MemsWf (memOf s)) : NextWf (execPairWindowClose s) := by
  unfold execPairWindowClose
  split <;> simp [h]

@[simp] theorem nextWf_execHoldTimeout {s : State} (h : MemsWf (memOf s)) : NextWf (execHoldTimeout s) := by simp [execHoldTimeout, h]

@[simp] theorem nextWf_execTimeStep {s : State} (h : MemsWf (memOf s)) (slot : Fin 256) : NextWf (execTimeStep slot s) := by
  unfold execTimeStep
  split <;> simp [h]

@[simp] theorem nextWf_execTimeRole {s : State} (h : MemsWf (memOf s)) (slot : Fin 256) : NextWf (execTimeRole slot s) := by
  unfold execTimeRole
  split <;> simp [h]

@[simp] theorem nextWf_execTimeReacquire {s : State} (h : MemsWf (memOf s)) (slot : Fin 256) : NextWf (execTimeReacquire slot s) := by
  unfold execTimeReacquire
  split <;> simp [h]

@[simp] theorem nextWf_execTimeLatchCapture {s : State} (h : MemsWf (memOf s)) : NextWf (execTimeLatchCapture s) := by
  simp [execTimeLatchCapture, h]

@[simp] theorem nextWf_execCmpTargetLoad {s : State} (h : MemsWf (memOf s)) (n : Fin 4) (ns : Word) :
    NextWf (execCmpTargetLoad n ns s) := by
  simp [execCmpTargetLoad, h]

@[simp] theorem nextWf_execCmpEnable {s : State} (h : MemsWf (memOf s)) (n : Fin 4) : NextWf (execCmpEnable n s) := by
  simp [execCmpEnable, h]

@[simp] theorem nextWf_execCompareHit {s : State} (h : MemsWf (memOf s)) (n : Fin 4) : NextWf (execCompareHit n s) := by
  simp only [execCompareHit]
  repeat' split
  all_goals simp [h]

@[simp] theorem nextWf_execRefclkLoss {s : State} (h : MemsWf (memOf s)) : NextWf (execRefclkLoss s) := by simp [execRefclkLoss, h]

@[simp] theorem nextWf_execPllLock {s : State} (h : MemsWf (memOf s)) : NextWf (execPllLock s) := by simp [execPllLock, h]

/-! ## Intake and the Herder (R160 to R168) -/

@[simp] theorem memsWf_fillBuckets {s : State} (h : MemsWf (memOf s)) (i : Nat) : MemsWf (memOf (fillBuckets s i)) := by
  simp [fillBuckets, h]

@[simp] theorem memsWf_clipBuckets {s : State} (h : MemsWf (memOf s)) (i : Nat) : MemsWf (memOf (clipBuckets s i)) := by
  simp only [clipBuckets]
  split <;> simp [h]

/-- A talker whose buckets are filled anew. -/
@[simp] theorem memsWf_hear_fillBuckets {s : State} (h : MemsWf (memOf s)) (i : Nat) :
    MemsWf (memOf (hear (setTalkW (setTalkW (fillBuckets s i) i 13 0#32) i 14 0#32) i)) :=
  memsWf_hear (memsWf_setTalkW (memsWf_setTalkW (memsWf_fillBuckets h i) i 13 0) i 14 0) i

@[simp] theorem memsWf_learnInto {s : State} (h : MemsWf (memOf s)) (i key : Nat) : MemsWf (memOf (learnInto s i key)) := by
  unfold learnInto
  refine memsWf_hear_fillBuckets ?_ i
  iterate 8 refine memsWf_setTalkW ?_ _ _ _
  exact h

@[simp] theorem memsWf_learnTalker {s : State} (h : MemsWf (memOf s)) (key : Nat) : MemsWf (memOf (learnTalker s key).1) := by
  simp only [learnTalker]
  repeat' split
  all_goals simp [h]

@[simp] theorem memsWf_findTalker {s : State} (h : MemsWf (memOf s)) (key : Nat) : MemsWf (memOf (findTalker s key).1) := by
  have hr := memsWf_talkersRead h [0, 1, 2] readerHerder (validTalkers s)
  simp only [findTalker]
  split
  · simp [h]
  next i _ =>
    have ht := memsWf_talkerRead hr i readerHerder [] [3, 4, 5, 6, 7, 8, 9, 10]
    split <;> simp [ht]

@[simp] theorem memsWf_refuse {s : State} (h : MemsWf (memOf s)) (src reason : Nat) (idx : Option Nat) (inj : Bool) :
    MemsWf (memOf (refuse s src reason idx inj)) := by
  unfold refuse
  split <;> simp [h]

@[simp] theorem memsWf_stagePut {s : State} (h : MemsWf (memOf s)) (g : Nat) (old new : List Byte) :
    MemsWf (memOf (stagePut s g old new)) := by
  simp [stagePut, h]

@[simp] theorem memsWf_stageRecord {s : State} (h : MemsWf (memOf s)) (a : Arrived) : MemsWf (memOf (stageRecord s a)) := by
  unfold stageRecord
  split <;> simp [h]

@[simp] theorem memsWf_commitRec {s : State} (h : MemsWf (memOf s)) (a : Arrived) (i g : Nat) (inj : Bool) (ws : List Word) :
    MemsWf (memOf (commitRec s a i g inj ws)) := by
  simp only [commitRec, memOf_leashTalker, memOf_lowPeak, memOf_mk, memPick_eta, memOf_holdRun]
  iterate 3 apply memsWf_setTalkW
  simp [h]

@[simp] theorem memsWf_admitRecord {s : State} (h : MemsWf (memOf s)) (a : Arrived) : MemsWf (memOf (admitRecord s a)) := by
  have hf := memsWf_findTalker (s := (injected (stageRecord s a) 0x41 [a.src]).1) (by simp [h]) a.key
  unfold admitRecord
  dsimp only
  generalize findTalker (injected (stageRecord s a) 0x41 [a.src]).1 a.key = r at hf ⊢
  split
  · simp [hf]
  · split
    · simp [hf]
    · split
      · simp [hf]
      · split
        next hw => simp [memOf_of_eq hw, hf]
        next hw => simp [memOf_of_eq hw, hf]

@[simp] theorem memsWf_leaveFlight {s : State} (h : MemsWf (memOf s)) (r : Rec) (plies : Nat) : MemsWf (memOf (leaveFlight s r plies)) := by
  have ht := memsWf_talkerCheck h r.talker readerHerder [] [8, 10]
  simp [leaveFlight, ht]

@[simp] theorem nextWf_execBucketRefill {s : State} (h : MemsWf (memOf s)) : NextWf (execBucketRefill s) := by
  unfold execBucketRefill
  split
  · exact h
  · refine memsWf_foldl (fun t i ht => ?_) _ h
    have hc := memsWf_talkerCheck ht i readerHerder [] [4, 5, 9, 10]
    dsimp only
    generalize talkerCheck t i readerHerder [] [4, 5, 9, 10] = u at hc ⊢
    simp only [memOf_ite, memsWf_ite, hc, memsWf_setTalkW, ite_self]

@[simp] theorem nextWf_execTalkerSweep {s : State} (h : MemsWf (memOf s)) : NextWf (execTalkerSweep s) := by
  unfold execTalkerSweep
  split
  · exact h
  · refine memsWf_foldl (fun t i ht => ?_) _ h
    have hc := memsWf_talkerCheck ht i readerHerder [] [3, 8]
    simp [hc]

/-! ## Panels (R309 to R325) -/

@[simp] theorem memsWf_bindings {s : State} (h : MemsWf (memOf s)) (n : Nat) (bs : List Nat) : MemsWf (memOf (bindings s n bs).1) := by
  induction bs generalizing s with
  | nil => exact h
  | cons b bs ih =>
    simp only [bindings]
    split
    · simp [h, ih]
    · split <;> simp [h, ih]

@[simp] theorem memsWf_panelRecover {s : State} (h : MemsWf (memOf s)) (n : Nat) (inj : Bool) (skip : Option Nat) :
    MemsWf (memOf (panelRecover s n inj skip)) := by
  simp [panelRecover, h]

@[simp] theorem memsWf_panelStart {s : State} (h : MemsWf (memOf s)) (n : Nat) (q : PanelReq) : MemsWf (memOf (panelStart s n q)) := by
  obtain ⟨region, src, slot⟩ := q
  cases src with
  | bindings => simp [panelStart, h]
  | image bytes => simp [panelStart, h]
  | payload bytes => cases bytes <;> simp [panelStart, h]
  | recovery => simp [panelStart, h]

@[simp] theorem memsWf_panelStarts {s : State} (h : MemsWf (memOf s)) (n : Nat) (rs : List Nat) : MemsWf (memOf (panelStarts s n rs)) := by
  induction rs generalizing s with
  | nil => exact h
  | cons r rs ih =>
    simp only [panelStarts]
    split <;> simp [h, ih]

@[simp] theorem nextWf_execPanelSensorRead {s : State} (h : MemsWf (memOf s)) (n : Fin 8) (startBit : Bool) (raw : BitVec 16) :
    NextWf (execPanelSensorRead n startBit raw s) := by
  unfold execPanelSensorRead
  split <;> simp [h]

@[simp] theorem nextWf_execPanelCrcCheck {s : State} (h : MemsWf (memOf s)) (n : Fin 8) : NextWf (execPanelCrcCheck n s) := by
  simp [execPanelCrcCheck, h]

/-! ## Listeners and copies (R222 to R245) -/

@[simp] theorem memsWf_bankScan {s : State} (h : MemsWf (memOf s)) (m : Mem) (reader : Nat) (readers as : List Nat) :
    MemsWf (memOf (bankScan s m reader readers as).1) := by
  induction as generalizing s with
  | nil => exact h
  | cons a as ih =>
    simp only [bankScan]
    split
    next hr => simp [memOf_of_eq hr, h]
    next hr => exact ih (by simp [memOf_of_eq hr, h])

@[simp] theorem memsWf_bankList {s : State} (h : MemsWf (memOf s)) (m : Mem) (reader : Nat) (readers as : List Nat) :
    MemsWf (memOf (bankList s m reader readers as).1) := by
  unfold bankList
  split
  next hr => simp [memOf_of_eq hr, h]
  next hr => simp [memOf_of_eq hr, h]

@[simp] theorem memsWf_poolLen {s : State} (h : MemsWf (memOf s)) (bank off reader : Nat) (readers : List Nat) :
    MemsWf (memOf (poolLen s bank off reader readers).1) := by
  unfold poolLen
  split
  next hr => simp [memOf_of_eq hr, h]
  next hr => simp [memOf_of_eq hr, h]

@[simp] theorem memsWf_poolChars {s : State} (h : MemsWf (memOf s)) (bank off reader : Nat) (readers : List Nat) (w : Word) (len : Nat) :
    MemsWf (memOf (poolChars s bank off reader readers w len).1) := by
  unfold poolChars
  dsimp only
  split
  next hr => simp [memOf_of_eq hr, h]
  next hr => simp [memOf_of_eq hr, h]

@[simp] theorem memsWf_poolString {s : State} (h : MemsWf (memOf s)) (bank off reader : Nat) (readers : List Nat) :
    MemsWf (memOf (poolString s bank off reader readers).1) := by
  unfold poolString
  split
  next hr => simp [memOf_of_eq hr, h]
  next hr => simp [memOf_of_eq hr, h]

@[simp] theorem memsWf_poolWrite {s : State} (h : MemsWf (memOf s)) (gran : Nat) (body : List Byte) :
    MemsWf (memOf (poolWrite s gran body)) := by
  simp [poolWrite, h]

@[simp] theorem memsWf_copyMake {s : State} (h : MemsWf (memOf s)) (it : Copy) (own : Option (List Byte)) (openSeq n : Nat) (w0 w1 : Word)
    (src : List Byte) : MemsWf (memOf (copyMake s it own openSeq n w0 w1 src)) := by
  simp only [copyMake]
  repeat' split
  all_goals simp [h]

@[simp] theorem memsWf_memberEntries {s : State} (h : MemsWf (memOf s)) (bank : Nat) (ns : List Nat) :
    MemsWf (memOf (memberEntries s bank ns).1) := by
  induction ns generalizing s with
  | nil => exact h
  | cons n ns ih =>
    simp only [memberEntries]
    split
    next hr =>
      have ht := ih (memsWf_of_eq hr (by simp [h]))
      split
      next hm => exact memsWf_of_eq hm ht
      next hm => exact memsWf_of_eq hm ht
    next hr => exact memsWf_of_eq hr (by simp [h])

@[simp] theorem memsWf_copyItem {s : State} (h : MemsWf (memOf s)) (it : Copy) (own : Option (List Byte)) (openSeq : Nat)
    (es : List (Nat × Word × Word × List Byte)) : MemsWf (memOf (copyItem s it own openSeq es)) := by
  induction es generalizing s with
  | nil => exact h
  | cons e es ih => exact ih (memsWf_copyMake h _ _ _ _ _ _ _)

@[simp] theorem nextWf_execListenerEnable {s : State} (h : MemsWf (memOf s)) (k : Fin 32) (mask : Word) :
    NextWf (execListenerEnable k mask s) := by
  simp [execListenerEnable, h]

@[simp] theorem nextWf_execListenerDisable {s : State} (h : MemsWf (memOf s)) (k : Fin 32) (mask : Word) :
    NextWf (execListenerDisable k mask s) := by
  simp [execListenerDisable, h]

@[simp] theorem memsWf_lqRebuilt {s : State} (h : MemsWf (memOf s)) (b : Rebuild) (body : List Byte) (inj : Bool) :
    MemsWf (memOf (lqRebuilt s b body inj)) := by
  unfold lqRebuilt
  split <;> simp [h]

@[simp] theorem memsWf_drainBuild {s : State} (h : MemsWf (memOf s)) (d : Drain) (kind num : Nat) (queue : Option Nat) :
    MemsWf (memOf (drainBuild s d kind num queue).1) := by
  unfold drainBuild
  dsimp only
  split
  next hl =>
    have ht := memsWf_of_eq hl (by simp [h])
    split
    · simp [ht]
    · split
      next hp => simp [memOf_of_eq hp, ht]
      next hp =>
        have hu := memsWf_of_eq hp (by simp [ht])
        split
        next hs => simp [memOf_of_eq hs, hu]
        next hs => simp [memOf_of_eq hs, hu]
  next hl => exact memsWf_of_eq hl (by simp [h])

@[simp] theorem nextWf_execDrainTick {s : State} (h : MemsWf (memOf s)) (l : Fin 1024) : NextWf (execDrainTick l s) := by
  unfold execDrainTick
  dsimp only
  split
  · exact h
  · split
    next hl =>
      have ht := memsWf_of_eq hl (by simp [h])
      split
      · exact ht
      · split
        · simp [ht]
        · split
          next hs => simp [memOf_of_eq hs, ht]
          next hs => simp [memOf_of_eq hs, ht]
    next hl => exact memsWf_of_eq hl (by simp [h])

@[simp] theorem memsWf_lqTake {s : State} (h : MemsWf (memOf s)) (kind num : Nat) (queue : Option Nat) (lead : Nat)
    (room : State → Copy → Bool) (fuel : Nat) (skip : List Nat) : MemsWf (memOf (lqTake s kind num queue lead room fuel skip).1) := by
  induction fuel generalizing s skip with
  | zero => exact h
  | succ fuel ih =>
    unfold lqTake
    split
    · exact h
    · split
      · exact h
      · dsimp only
        split
        · exact ih (by simp [h]) _
        · simp [h]
    · split
      next hb =>
        split
        · exact memsWf_of_eq hb (by simp [h])
        · exact h
      next hb => exact ih (memsWf_of_eq hb (by simp [h])) _

@[simp] theorem memsWf_lqNext {s : State} (h : MemsWf (memOf s)) (kind num : Nat) (queue : Option Nat) (lead : Nat) :
    MemsWf (memOf (lqNext s kind num queue lead).1) := memsWf_lqTake h _ _ _ _ _ _ _

@[simp] theorem memsWf_ringStart {s : State} (h : MemsWf (memOf s)) (r : Nat) : MemsWf (memOf (ringStart s r)) := by
  unfold ringStart
  split
  next ht => simp [memOf_of_eq ht, h]
  next ht => simp [memOf_of_eq ht, h]

@[simp] theorem memsWf_panelTake {s : State} (h : MemsWf (memOf s)) (n : Nat) : MemsWf (memOf (panelTake s n)) := by
  unfold panelTake
  split
  next ht => simp [memOf_of_eq ht, h]
  next ht => simp [memOf_of_eq ht, h]

/-! ## The Pack and its dispatch (R169 to R189) -/

@[simp] theorem memsWf_recInj {s : State} (h : MemsWf (memOf s)) (r : Rec) : MemsWf (memOf (recInj s r)) := by simp [recInj, h]

@[simp] theorem memsWf_recLost {s : State} (h : MemsWf (memOf s)) (r : Rec) : MemsWf (memOf (recLost s r)) := by simp [recLost, h]

@[simp] theorem memsWf_engEnd {s : State} (h : MemsWf (memOf s)) (e : Nat) (abandoned : Bool) : MemsWf (memOf (engEnd s e abandoned)) := by
  simp only [engEnd]
  split
  · exact h
  · rw [memOf_setEngine]
    split
    · simp only [memOf_ite, memOf_setPack, ite_self]
      split <;> simp [h]
    · simp only [memOf_ite, memOf_setPack, ite_self]
      split <;> simp [h]

@[simp] theorem memsWf_engEndNormal {s : State} (h : MemsWf (memOf s)) (e : Nat) : MemsWf (memOf (engEndNormal s e)) := by
  simp [engEndNormal, h]

@[simp] theorem memsWf_engExhausted {s : State} (h : MemsWf (memOf s)) (e : Nat) (inj : Bool) : MemsWf (memOf (engExhausted s e inj)) := by
  simp [engExhausted, h]

@[simp] theorem memsWf_engAbandon {s : State} (h : MemsWf (memOf s)) (e : Nat) : MemsWf (memOf (engAbandon s e)) := by simp [engAbandon, h]

@[simp] theorem memsWf_engWedge {s : State} (h : MemsWf (memOf s)) (e det d2 d3 : Nat) (inj : Bool) :
    MemsWf (memOf (engWedge s e det d2 d3 inj)) := by
  simp [engWedge, h]

@[simp] theorem memsWf_headerLoad {s : State} (h : MemsWf (memOf s)) (e : Nat) (r : Rec) (ks : List Nat) :
    MemsWf (memOf (headerLoad s e r ks).1) := by
  induction ks generalizing s with
  | nil => exact h
  | cons k ks ih =>
    simp only [headerLoad]
    split
    · simp [h]
    · exact ih (by simp [h])

@[simp] theorem memsWf_engStart {s : State} (h : MemsWf (memOf s)) (e : Nat) (r : Rec) (rebuild : Option Rebuild) (bank : Nat)
    (route : Word) : MemsWf (memOf (engStart s e r rebuild bank route)) := by
  simp [engStart, h]

@[simp] theorem memsWf_dispatchRebuild {s : State} (h : MemsWf (memOf s)) (e : Nat) (b : Rebuild) (rest : List Rebuild) :
    MemsWf (memOf (dispatchRebuild s e b rest)) := by
  have ht := memsWf_talkerCheck h b.recd.talker readerHerder [] [6]
  unfold dispatchRebuild
  split
  · simp [h]
  · split
    · simp [h]
    · dsimp only
      split
      next hr => exact memsWf_of_eq hr (by simp [ht])
      next hr => simp [memOf_of_eq hr, ht]

@[simp] theorem nextWf_execDispatch {s : State} (h : MemsWf (memOf s)) : NextWf (execDispatch s) := by
  unfold execDispatch
  split
  · exact h
  · split
    · exact h
    · split
      · simp [h]
      · split
        · exact h
        next r _ =>
          have hc := memsWf_talkerCheck h r.talker readerHerder [] [3, 6]
          dsimp only
          split
          next hr => exact memsWf_of_eq hr (by simp [hc])
          next hr =>
            have ht := memsWf_of_eq hr (by simp [hc])
            simp [ht]

@[simp] theorem memsWf_houndCheck {s : State} (h : MemsWf (memOf s)) (e : Nat) : MemsWf (memOf (houndCheck s e)) := by
  unfold houndCheck
  split <;> simp [h]

@[simp] theorem nextWf_execEngineHoundTrip {s : State} (h : MemsWf (memOf s)) (e : Fin 32) : NextWf (execEngineHoundTrip e s) := by
  unfold execEngineHoundTrip
  split <;> simp [h]

@[simp] theorem nextWf_execEngineGroupOnline {s : State} (h : MemsWf (memOf s)) (slot : Fin 256) :
    NextWf (execEngineGroupOnline slot s) := by
  fun_cases execEngineGroupOnline slot s <;> simp [h]

@[simp] theorem nextWf_execGroupPowered {s : State} (h : MemsWf (memOf s)) (g : Fin 8) : NextWf (execGroupPowered g s) := by
  simp only [execGroupPowered]
  repeat' split
  all_goals simp [h]

@[simp] theorem nextWf_execEngineGroupOffline {s : State} (h : MemsWf (memOf s)) (slot : Fin 256) :
    NextWf (execEngineGroupOffline slot s) := by
  unfold execEngineGroupOffline
  split <;> simp [h]

@[simp] theorem nextWf_execGroupDrained {s : State} (h : MemsWf (memOf s)) (g : Fin 8) : NextWf (execGroupDrained g s) := by
  simp only [execGroupDrained]
  repeat' split
  all_goals simp [h]

@[simp] theorem nextWf_execBankSwap {s : State} (h : MemsWf (memOf s)) (slot : Fin 256) : NextWf (execBankSwap slot s) := by
  unfold execBankSwap
  split <;> simp [h]

@[simp] theorem nextWf_execBankSwapDrained {s : State} (h : MemsWf (memOf s)) : NextWf (execBankSwapDrained s) := by
  simp only [execBankSwapDrained]
  repeat' split
  all_goals simp [h]

/-! ## Loads and tables (R45, R173) -/

@[simp] theorem memsWf_loadBegin {s : State} (h : MemsWf (memOf s)) (bank : Nat) (w : Nat → Word) :
    MemsWf (memOf (loadBegin s bank w)) := by
  have hprog : MemsWf (memOf { s with prog := s.prog.filter fun e => e.1 / 32768 != bank }) :=
    memoryWf_iff.1 (memoryWf_setMem .prog (memoryWf_iff.2 h) (swf_filter _ _ (h .prog)))
  simp only [loadBegin, memOf_setReg, memOf_bankTouched, memOf_setPack]
  exact hprog

@[simp] theorem memsWf_loadWord {s : State} (h : MemsWf (memOf s)) (bank : Nat) (w : Nat → Word) (j : Nat) (v : Word) :
    MemsWf (memOf (loadWord s bank w j v)) := by
  simp only [loadWord]
  split <;> simp [h]

@[simp] theorem memsWf_loadWords {s : State} (h : MemsWf (memOf s)) (bank : Nat) (w : Nat → Word) (j : Nat) (vs : List Word) :
    MemsWf (memOf (loadWords s bank w j vs)) := by
  induction vs generalizing s j with
  | nil => exact h
  | cons v vs ih => exact ih (memsWf_loadWord h bank w j v) (j + 1)

@[simp] theorem memsWf_loadHeader {s : State} (h : MemsWf (memOf s)) (c : HostCmd) : MemsWf (memOf (loadHeader s c)) := by
  simp [loadHeader, h]

@[simp] theorem memsWf_loadBody {s : State} (h : MemsWf (memOf s)) (c : HostCmd) : MemsWf (memOf (loadBody s c)) := by simp [loadBody, h]

@[simp] theorem memsWf_loadData {s : State} (h : MemsWf (memOf s)) (slot : Nat) (f : Fetch) : MemsWf (memOf (loadData s slot f)) := by
  unfold loadData
  split <;> simp [h]

@[simp] theorem nextWf_execLoadProgram {s : State} (h : MemsWf (memOf s)) (slot : Fin 256) : NextWf (execLoadProgram slot s) := by
  unfold execLoadProgram
  split <;> simp [h]

@[simp] theorem memsWf_talkerWrite {s : State} (h : MemsWf (memOf s)) (i : Nat) (ws : List Word) : MemsWf (memOf (talkerWrite s i ws)) := by
  simp [talkerWrite, h]

@[simp] theorem memsWf_tableEntry {s : State} (h : MemsWf (memOf s)) (id bank i : Nat) (ws : List Word) :
    MemsWf (memOf (tableEntry s id bank i ws)) := by
  simp [tableEntry, h]

@[simp] theorem memsWf_tableEntries {s : State} (h : MemsWf (memOf s)) (id bank i n : Nat) (bs : List Byte) :
    MemsWf (memOf (tableEntries s id bank i n bs)) := by
  induction n generalizing s i bs with
  | zero => exact h
  | succ n ih => exact ih (memsWf_tableEntry h _ _ _ _) _ _

@[simp] theorem memsWf_tableData {s : State} (h : MemsWf (memOf s)) (slot : Nat) (f : Fetch) : MemsWf (memOf (tableData s slot f)) := by
  unfold tableData
  split <;> simp [h]

@[simp] theorem nextWf_execTableWrite {s : State} (h : MemsWf (memOf s)) (slot : Fin 256) : NextWf (execTableWrite slot s) := by
  unfold execTableWrite
  split <;> simp [h]

@[simp] theorem nextWf_execTableRead {s : State} (h : MemsWf (memOf s)) (slot : Fin 256) : NextWf (execTableRead slot s) := by
  unfold execTableRead
  split <;> simp [h]

@[simp] theorem memsWf_talkerQuota {s : State} (h : MemsWf (memOf s)) (kind i : Nat) (v : Word) :
    MemsWf (memOf (talkerQuota s kind i v)) := by
  fun_cases talkerQuota s kind i v <;> simp [h]

@[simp] theorem memsWf_quotaSet {s : State} (h : MemsWf (memOf s)) (slot : Nat) (w1 w2 w3 : Word) :
    MemsWf (memOf (quotaSet s slot w1 w2 w3)) := by
  simp [quotaSet, h]

@[simp] theorem nextWf_execQuotaSet {s : State} (h : MemsWf (memOf s)) (slot : Fin 256) : NextWf (execQuotaSet slot s) := by
  unfold execQuotaSet
  split <;> simp [h]

/-! ## Flash -/

@[simp] theorem nextWf_execFlashRead {s : State} (h : MemsWf (memOf s)) (slot : Fin 256) : NextWf (execFlashRead slot s) := by
  rw [execFlashRead, nextWf_next, memOf_flashCmd _ _ (fun c => by simp)]
  exact h

@[simp] theorem nextWf_execFlashWrite {s : State} (h : MemsWf (memOf s)) (slot : Fin 256) : NextWf (execFlashWrite slot s) := by
  rw [execFlashWrite, nextWf_next, memOf_flashCmd _ _ (fun c => by simp)]
  exact h

@[simp] theorem nextWf_execFlashErase {s : State} (h : MemsWf (memOf s)) (slot : Fin 256) : NextWf (execFlashErase slot s) := by
  rw [execFlashErase, nextWf_next, memOf_flashCmd _ _ (fun c => by simp)]
  exact h

@[simp] theorem memsWf_flashEnd {s : State} (h : MemsWf (memOf s)) (c : HostCmd) (f : Fetch) (data : List Byte) :
    MemsWf (memOf (flashEnd s c f data)) := by
  simp [flashEnd, h]

@[simp] theorem nextWf_execFlashOperationEnd {s : State} (h : MemsWf (memOf s)) (slot : Fin 256) (ok : Bool) (data : List Byte) :
    NextWf (execFlashOperationEnd slot ok data s) := by
  unfold execFlashOperationEnd
  split
  · exact h
  · split <;> simp [h]

/-! ## Host rings (R48 to R58) -/

@[simp] theorem nextWf_execRingEnable {s : State} (h : MemsWf (memOf s)) (r : Fin 18) (ctrl : Word) : NextWf (execRingEnable r ctrl s) := by
  simp [execRingEnable, h]

@[simp] theorem nextWf_execRingHeadWrite {s : State} (h : MemsWf (memOf s)) (r : Fin 18) (v : Word) : NextWf (execRingHeadWrite r v s) := by
  simp [execRingHeadWrite, h]

@[simp] theorem nextWf_execRingModerationTimer {s : State} (h : MemsWf (memOf s)) (r : Fin 18) : NextWf (execRingModerationTimer r s) := by
  simp [execRingModerationTimer, h]

@[simp] theorem nextWf_execMsixUnmask {s : State} (h : MemsWf (memOf s)) (v : Fin 32) : NextWf (execMsixUnmask v s) := by
  simp [execMsixUnmask, h]

@[simp] theorem nextWf_execHeldCompletionFlush {s : State} (h : MemsWf (memOf s)) : NextWf (execHeldCompletionFlush s) := by
  simp [execHeldCompletionFlush, h]

/-! ## The cabinet bus bridge (R289 to R308) -/

@[simp] theorem nextWf_execBar4UnservedAccess {s : State} (h : MemsWf (memOf s)) (isWrite : Bool) (off : Nat) (enables : List Bool) :
    NextWf (execBar4UnservedAccess isWrite off enables s) := by
  unfold execBar4UnservedAccess
  split <;> simp [h]

@[simp] theorem nextWf_execBar4Write {s : State} (h : MemsWf (memOf s)) (off : Nat) (bytes : List (Option Byte)) :
    NextWf (execBar4Write off bytes s) := by
  simp only [execBar4Write]
  repeat' split
  all_goals simp [h]

@[simp] theorem nextWf_execBar4Read {s : State} (h : MemsWf (memOf s)) (off : Nat) (enables : List Bool) :
    NextWf (execBar4Read off enables s) := by
  simp only [execBar4Read]
  repeat' split
  all_goals simp [h]

@[simp] theorem nextWf_execFarWindowWrite {s : State} (h : MemsWf (memOf s)) (w : Fin 8) (reg_ : Fin 3) (val : Word) :
    NextWf (execFarWindowWrite w reg_ val s) := by
  simp [execFarWindowWrite, h]

@[simp] theorem nextWf_execCabinetCycleStart {s : State} (h : MemsWf (memOf s)) : NextWf (execCabinetCycleStart s) := by
  simp only [execCabinetCycleStart]
  repeat' split
  all_goals simp [h]

@[simp] theorem nextWf_execCabinetCycleAck {s : State} (h : MemsWf (memOf s)) (dtack berr : Bool) (data : BitVec 16) :
    NextWf (execCabinetCycleAck dtack berr data s) := by
  simp only [execCabinetCycleAck]
  repeat' split
  all_goals simp [h]

@[simp] theorem nextWf_execCabinetCycleTimeout {s : State} (h : MemsWf (memOf s)) : NextWf (execCabinetCycleTimeout s) := by
  unfold execCabinetCycleTimeout
  split <;> simp [h]

@[simp] theorem nextWf_execCardRetryWaitEnd {s : State} (h : MemsWf (memOf s)) : NextWf (execCardRetryWaitEnd s) := by
  unfold execCardRetryWaitEnd
  split <;> simp [h]

@[simp] theorem nextWf_execBar4ReadDeadline {s : State} (h : MemsWf (memOf s)) : NextWf (execBar4ReadDeadline s) := by
  unfold execBar4ReadDeadline
  split <;> simp [h]

@[simp] theorem nextWf_execPrefetchLineRead {s : State} (h : MemsWf (memOf s)) (w : Fin 8) : NextWf (execPrefetchLineRead w s) := by
  simp only [execPrefetchLineRead]
  repeat' split
  all_goals simp [h]

@[simp] theorem nextWf_execPrefetchLineAge {s : State} (h : MemsWf (memOf s)) (w : Fin 8) : NextWf (execPrefetchLineAge w s) := by
  unfold execPrefetchLineAge
  split <;> simp [h]

@[simp] theorem nextWf_execFarBusRequest {s : State} (h : MemsWf (memOf s)) : NextWf (execFarBusRequest s) := by simp [execFarBusRequest, h]

@[simp] theorem nextWf_execFarBusRelease {s : State} (h : MemsWf (memOf s)) : NextWf (execFarBusRelease s) := by simp [execFarBusRelease, h]

@[simp] theorem nextWf_execFarWrite {s : State} (h : MemsWf (memOf s)) (addr : BitVec 24) (strobes : BitVec 2) (data : BitVec 16) :
    NextWf (execFarWrite addr strobes data s) := by
  simp only [execFarWrite]
  repeat' split
  all_goals simp [h]

@[simp] theorem nextWf_execFarRead {s : State} (h : MemsWf (memOf s)) (addr : BitVec 24) (strobes : BitVec 2) :
    NextWf (execFarRead addr strobes s) := by
  simp only [execFarRead]
  repeat' split
  all_goals simp [h]

@[simp] theorem nextWf_execFarReadCompletion {s : State} (h : MemsWf (memOf s)) (data : Option (BitVec 16)) :
    NextWf (execFarReadCompletion data s) := by
  simp only [execFarReadCompletion]
  repeat' split
  all_goals simp [h]

@[simp] theorem nextWf_execHostWaitBackoff {s : State} (h : MemsWf (memOf s)) : NextWf (execHostWaitBackoff s) := by
  unfold execHostWaitBackoff
  split <;> simp [h]

@[simp] theorem nextWf_execFarHoldLimit {s : State} (h : MemsWf (memOf s)) : NextWf (execFarHoldLimit s) := by
  unfold execFarHoldLimit
  split <;> simp [h]

@[simp] theorem nextWf_execFarCardInterrupt {s : State} (h : MemsWf (memOf s)) (i : Fin 4) : NextWf (execFarCardInterrupt i s) := by
  simp [execFarCardInterrupt, h]

@[simp] theorem nextWf_execCbIrqNRelease {s : State} (h : MemsWf (memOf s)) (i : Fin 4) : NextWf (execCbIrqNRelease i s) := by
  simp [execCbIrqNRelease, h]

@[simp] theorem nextWf_execCbIrqAck {s : State} (h : MemsWf (memOf s)) (val : Word) : NextWf (execCbIrqAck val s) := by
  simp [execCbIrqAck, h]

@[simp] theorem nextWf_execCbLogClear {s : State} (h : MemsWf (memOf s)) : NextWf (execCbLogClear s) := by simp [execCbLogClear, h]

@[simp] theorem nextWf_execBridgeDisable {s : State} (h : MemsWf (memOf s)) : NextWf (execBridgeDisable s) := by simp [execBridgeDisable, h]

end Sys2Proof.Machine
end

section
/-! # What keeps the canonical form: ports, integrity, commands of the host, power and boot -/

namespace Sys2Proof.Machine

/-! ## Ownership (R365 to R368) -/

@[simp] theorem nextWf_execPanelFrameBoundary {s : State} (h : MemsWf (memOf s)) (n : Fin 8) : NextWf (execPanelFrameBoundary n s) := by
  unfold execPanelFrameBoundary
  split
  · exact h
  · extract_lets +onlyGivenNames old framed p set
    have hset : MemsWf (memOf set) := by
      simp only [set, framed]
      split <;> simp [h]
    clear_value set
    split
    · simp [hset]
    · split <;> simp [hset]

/-! ## CAN ports (R246 to R266) -/

@[simp] theorem nextWf_execCanFrameReceived {s : State} (h : MemsWf (memOf s)) (n : Fin 8) (frame : CanFrame) (own : Bool) :
    NextWf (execCanFrameReceived n frame own s) := by
  simp [execCanFrameReceived, h]

@[simp] theorem nextWf_execCanError {s : State} (h : MemsWf (memOf s)) (n : Fin 8) (f : CanFault) (tx dataPhase : Bool) :
    NextWf (execCanError n f tx dataPhase s) := by
  simp [execCanError, h]

@[simp] theorem nextWf_execCnRecoverStart {s : State} (h : MemsWf (memOf s)) (n : Fin 8) : NextWf (execCnRecoverStart n s) := by
  simp [execCnRecoverStart, h]

@[simp] theorem nextWf_execBusOffRecovered {s : State} (h : MemsWf (memOf s)) (n : Fin 8) : NextWf (execBusOffRecovered n s) := by
  simp [execBusOffRecovered, h]

@[simp] theorem nextWf_execCanStuck {s : State} (h : MemsWf (memOf s)) (n : Fin 8) : NextWf (execCanStuck n s) := by simp [execCanStuck, h]

@[simp] theorem nextWf_execCanStuckRelease {s : State} (h : MemsWf (memOf s)) (n : Fin 8) : NextWf (execCanStuckRelease n s) := by
  simp [execCanStuckRelease, h]

@[simp] theorem memsWf_canSingle {s : State} (h : MemsWf (memOf s)) (n : Nat) (r : RxFrame) (q0 n2k : Bool) :
    MemsWf (memOf (canSingle s n r q0 n2k)) := memsWf_admitRecord h _

@[simp] theorem memsWf_fpClose {s : State} (h : MemsWf (memOf s)) (n r : Nat) (f : FastPacket) (last : Edge) :
    MemsWf (memOf (fpClose s n r f last)) := by
  simp [fpClose, h]

@[simp] theorem memsWf_fpFrame {s : State} (h : MemsWf (memOf s)) (n : Nat) (x : RxFrame) (q0 : Bool) :
    MemsWf (memOf (fpFrame s n x q0)) := by
  simp only [fpFrame]
  split
  · split
    · simp [h]
    · split <;> split <;> simp [h]
  · split
    · simp [h]
    · split <;> simp [h]

@[simp] theorem nextWf_execCanIntake {s : State} (h : MemsWf (memOf s)) (n : Fin 8) : NextWf (execCanIntake n s) := by
  simp only [execCanIntake]
  split <;> simp [h]

@[simp] theorem nextWf_execFastPacketTimeout {s : State} (h : MemsWf (memOf s)) (n : Fin 8) (r : Fin 32) :
    NextWf (execFastPacketTimeout n r s) := by
  unfold execFastPacketTimeout
  split <;> simp [h]

@[simp] theorem memsWf_canStart {s : State} (h : MemsWf (memOf s)) (n : Nat) : MemsWf (memOf (canStart s n)) := by
  unfold canStart
  split
  · exact h
  · split
    next hl => exact memsWf_of_eq hl (by simp [h])
    next hl =>
      have ht := memsWf_of_eq hl (by simp [h])
      split <;> simp [ht]

@[simp] theorem nextWf_execCanLaneSelect {s : State} (h : MemsWf (memOf s)) (n : Fin 8) : NextWf (execCanLaneSelect n s) := by
  simp only [execCanLaneSelect]
  repeat' split
  all_goals simp [h]

@[simp] theorem nextWf_execCanAttemptEnd {s : State} (h : MemsWf (memOf s)) (n : Fin 8) (res : AttemptResult) :
    NextWf (execCanAttemptEnd n res s) := by
  simp only [execCanAttemptEnd]
  repeat' split
  all_goals simp [h]

@[simp] theorem nextWf_execCanIntegrated {s : State} (h : MemsWf (memOf s)) (n : Fin 8) : NextWf (execCanIntegrated n s) := by
  simp only [execCanIntegrated]
  repeat' split
  all_goals simp [h]

@[simp] theorem nextWf_execCanSend {s : State} (h : MemsWf (memOf s)) (slot : Fin 256) : NextWf (execCanSend slot s) := by
  fun_cases execCanSend slot s <;> simp [h]

@[simp] theorem nextWf_execCanCancel {s : State} (h : MemsWf (memOf s)) (slot : Fin 256) : NextWf (execCanCancel slot s) := by
  simp only [execCanCancel]
  repeat' split
  all_goals simp [h]

/-! ## PTP (R86 to R106) -/

@[simp] theorem nextWf_execPtpSyncTimer {s : State} (h : MemsWf (memOf s)) (p : Fin 4) : NextWf (execPtpSyncTimer p s) := by
  simp [execPtpSyncTimer, h]

@[simp] theorem nextWf_execPtpDelayReqTimer {s : State} (h : MemsWf (memOf s)) (p : Fin 4) : NextWf (execPtpDelayReqTimer p s) := by
  simp [execPtpDelayReqTimer, h]

@[simp] theorem nextWf_execPtpPdelayReqTimer {s : State} (h : MemsWf (memOf s)) (p : Fin 4) : NextWf (execPtpPdelayReqTimer p s) := by
  simp [execPtpPdelayReqTimer, h]

/-! ## Serial reception -/

@[simp] theorem memsWf_serialRecord {s : State} (h : MemsWf (memOf s)) (p : Nat) (a : Arrived) : MemsWf (memOf (serialRecord s p a)) := by
  simp [serialRecord, h]

@[simp] theorem memsWf_sentenceClose {s : State} (h : MemsWf (memOf s)) (p : Nat) : MemsWf (memOf (sentenceClose s p)) := by
  simp only [sentenceClose]
  split <;> simp [h]

@[simp] theorem memsWf_rawClose {s : State} (h : MemsWf (memOf s)) (p reason : Nat) : MemsWf (memOf (rawClose s p reason)) := by
  simp [rawClose, h]

@[simp] theorem memsWf_textPut {s : State} (h : MemsWf (memOf s)) (p : Nat) (c : RxChar) (f : Framer) :
    MemsWf (memOf (textPut s p c f)) := by
  simp [textPut, h]

@[simp] theorem memsWf_textOpen {s : State} (h : MemsWf (memOf s)) (p : Nat) (c : RxChar) : MemsWf (memOf (textOpen s p c)) := by
  simp [textOpen, h]

@[simp] theorem memsWf_textStep {s : State} (h : MemsWf (memOf s)) (p : Nat) (c : RxChar) (f : Framer) :
    MemsWf (memOf (textStep s p c f)) := by
  simp [textStep, h]

@[simp] theorem memsWf_framerChar {s : State} (h : MemsWf (memOf s)) (p : Nat) (c : RxChar) : MemsWf (memOf (framerChar s p c)) := by
  unfold framerChar
  split <;> simp [h]

@[simp] theorem memsWf_serialPass {s : State} (h : MemsWf (memOf s)) (p : Nat) (c : RxChar) : MemsWf (memOf (serialPass s p c)) := by
  simp [serialPass, h]

@[simp] theorem memsWf_serialChar {s : State} (h : MemsWf (memOf s)) (p : Nat) (c : RxChar) : MemsWf (memOf (serialChar s p c)) := by
  simp [serialChar, h]

@[simp] theorem nextWf_execSerialCharacter {s : State} (h : MemsWf (memOf s)) (p : Fin 128) (ch : Byte) (pBit stopLow : Bool)
    (taps : Fin 256) : NextWf (execSerialCharacter p ch pBit stopLow taps s) := by
  simp [execSerialCharacter, h]

@[simp] theorem nextWf_execSerialFalseStart {s : State} (h : MemsWf (memOf s)) (p : Fin 128) (taps : Fin 256) :
    NextWf (execSerialFalseStart p taps s) := by
  simp [execSerialFalseStart, h]

@[simp] theorem nextWf_execRawGapClose {s : State} (h : MemsWf (memOf s)) (p : Fin 128) : NextWf (execRawGapClose p s) := by
  simp [execRawGapClose, h]

@[simp] theorem memsWf_breakRecord {s : State} (h : MemsWf (memOf s)) (p : Nat) (e : Option Edge) : MemsWf (memOf (breakRecord s p e)) := by
  cases e <;> simp [breakRecord, h]

@[simp] theorem nextWf_execLineBreak {s : State} (h : MemsWf (memOf s)) (p : Fin 128) : NextWf (execLineBreak p s) := by
  simp only [execLineBreak]
  split <;> simp [h]

@[simp] theorem nextWf_execLineHeld {s : State} (h : MemsWf (memOf s)) (p : Fin 128) : NextWf (execLineHeld p s) := by
  simp only [execLineHeld]
  split <;> simp [h]

@[simp] theorem nextWf_execLineRelease {s : State} (h : MemsWf (memOf s)) (p : Fin 128) : NextWf (execLineRelease p s) := by
  simp [execLineRelease, h]

@[simp] theorem nextWf_execSpStatusRead {s : State} (h : MemsWf (memOf s)) (p : Fin 128) : NextWf (execSpStatusRead p s) := by
  simp [execSpStatusRead, h]

@[simp] theorem nextWf_execSpDataRead {s : State} (h : MemsWf (memOf s)) (p : Fin 128) : NextWf (execSpDataRead p s) := by
  unfold execSpDataRead
  split
  · simp [h]
  · split
    next hr => simp [memOf_of_eq hr, h]

/-! ## Ethernet ports (R267 to R288) -/

@[simp] theorem nextWf_execLinkChange {s : State} (h : MemsWf (memOf s)) (n : Fin 4) (up speedFault : Bool) :
    NextWf (execLinkChange n up speedFault s) := by
  simp only [execLinkChange]
  split <;> simp [h]

@[simp] theorem nextWf_execEthFrameReceived {s : State} (h : MemsWf (memOf s)) (n : Fin 4) (bytes : List Byte) (fcs : Word)
    (taps : Fin 256) : NextWf (execEthFrameReceived n bytes fcs taps s) := by
  simp only [execEthFrameReceived]
  repeat' split
  all_goals simp [h]

@[simp] theorem memsWf_partArrives {s : State} (h : MemsWf (memOf s)) (n : Nat) (d : Datagram) (total k : Nat)
    (p : List Byte × Option (List Byte) × Nat) : MemsWf (memOf (partArrives s n d total k p)) := by
  obtain ⟨bs, sfi, line⟩ := p
  cases sfi <;> simp [partArrives, h]

@[simp] theorem memsWf_partsArrive {s : State} (h : MemsWf (memOf s)) (n : Nat) (d : Datagram) (total k : Nat)
    (ps : List (List Byte × Option (List Byte) × Nat)) : MemsWf (memOf (partsArrive s n d total k ps)) := by
  induction ps generalizing s k with
  | nil => exact h
  | cons p ps ih => exact ih (memsWf_partArrives h n d total k p) (k + 1)

@[simp] theorem nextWf_execEthDatagramSplit {s : State} (h : MemsWf (memOf s)) (n : Fin 4) : NextWf (execEthDatagramSplit n s) := by
  simp only [execEthDatagramSplit]
  split <;> simp [h]

@[simp] theorem memsWf_ethQueues {s : State} (h : MemsWf (memOf s)) (n : Nat) (only : Option Nat) (qs : List Nat) :
    MemsWf (memOf (ethQueues s n only qs)) := by
  induction qs generalizing s with
  | nil => exact h
  | cons q qs ih =>
    unfold ethQueues
    split
    · simp [h]
    · split
      · exact ih h
      · split
        · simp [h, ih]
        · split
          next hl => simp [memOf_of_eq hl, h]
          next hl =>
            have ht := memsWf_of_eq hl (by simp [h])
            simp [ht, ih]

@[simp] theorem memsWf_ethStart {s : State} (h : MemsWf (memOf s)) (n : Nat) (only : Option Nat) : MemsWf (memOf (ethStart s n only)) := by
  unfold ethStart
  split
  · exact h
  · split <;> simp [h]

@[simp] theorem nextWf_execEthFrameStart {s : State} (h : MemsWf (memOf s)) (n : Fin 4) : NextWf (execEthFrameStart n s) :=
  memsWf_ethStart h n.val none

@[simp] theorem nextWf_execEthFrameDeparted {s : State} (h : MemsWf (memOf s)) (n : Fin 4) : NextWf (execEthFrameDeparted n s) := by
  simp only [execEthFrameDeparted]
  repeat' split
  all_goals simp [h]

@[simp] theorem nextWf_execEthLaunch {s : State} (h : MemsWf (memOf s)) (slot : Fin 256) : NextWf (execEthLaunch slot s) := by
  fun_cases execEthLaunch slot s <;> simp [h]

@[simp] theorem nextWf_execEthMdioCmd {s : State} (h : MemsWf (memOf s)) (val : Word) : NextWf (execEthMdioCmd val s) := by
  simp [execEthMdioCmd, h]

@[simp] theorem nextWf_execMdioFrameDone {s : State} (h : MemsWf (memOf s)) (data : BitVec 16) : NextWf (execMdioFrameDone data s) := by
  simp [execMdioFrameDone, h]

/-! ## Event inputs (R149 to R159) -/

@[simp] theorem nextWf_execEiEdge {s : State} (h : MemsWf (memOf s)) (i : Fin 32) (level : Bool) (taps : Fin 256) :
    NextWf (execEiEdge i level taps s) := by
  simp [execEiEdge, h]

@[simp] theorem nextWf_execEiLevelAccepted {s : State} (h : MemsWf (memOf s)) (i : Fin 32) : NextWf (execEiLevelAccepted i s) := by
  simp only [execEiLevelAccepted]
  split <;> simp [h]

@[simp] theorem nextWf_execBurstClose {s : State} (h : MemsWf (memOf s)) (i : Fin 32) : NextWf (execBurstClose i s) := by
  simp only [execBurstClose]
  split <;> simp [h]

@[simp] theorem nextWf_execEiHeld {s : State} (h : MemsWf (memOf s)) (i : Fin 32) : NextWf (execEiHeld i s) := by
  simp only [execEiHeld]
  repeat' split
  all_goals simp [h]

@[simp] theorem memsWf_eiToKennel {s : State} (h : MemsWf (memOf s)) (i : Nat) (r : EvRec) : MemsWf (memOf (eiToKennel s i r).1) := by
  simp [eiToKennel, h]

@[simp] theorem nextWf_execEiFifoDrain {s : State} (h : MemsWf (memOf s)) (i : Fin 32) : NextWf (execEiFifoDrain i s) := by
  simp only [execEiFifoDrain]
  split <;> simp [h]

/-! ## Serial transmission -/

@[simp] theorem memsWf_serialTake {s : State} (h : MemsWf (memOf s)) (p : Nat) : MemsWf (memOf (serialTake s p)) := by
  unfold serialTake
  split
  next hl => exact memsWf_of_eq hl (by simp [h])
  next hl => simp [memOf_of_eq hl, h]

@[simp] theorem nextWf_execSerialItemStage {s : State} (h : MemsWf (memOf s)) (p : Fin 128) : NextWf (execSerialItemStage p s) := by
  simp [execSerialItemStage, h]

@[simp] theorem nextWf_execSerialItemStart {s : State} (h : MemsWf (memOf s)) (p : Fin 128) : NextWf (execSerialItemStart p s) := by
  simp only [execSerialItemStart]
  split
  · exact h
  · split
    · exact h
    · split
      · exact h
      next ht => simp [memOf_of_eq ht, h]

@[simp] theorem nextWf_execSerialItemEnd {s : State} (h : MemsWf (memOf s)) (p : Fin 128) : NextWf (execSerialItemEnd p s) := by
  simp only [execSerialItemEnd]
  split <;> simp [h]

@[simp] theorem nextWf_execLeashTimeout {s : State} (h : MemsWf (memOf s)) (p : Fin 128) : NextWf (execLeashTimeout p s) := by
  simp only [execLeashTimeout]
  split <;> simp [h]

@[simp] theorem memsWf_halfDuplex {s : State} (h : MemsWf (memOf s)) (p : Nat) : MemsWf (memOf (halfDuplex s p)) := by
  simp only [halfDuplex]
  split
  · exact h
  · split <;> simp [h]

@[simp] theorem nextWf_execHalfDuplexAttempt {s : State} (h : MemsWf (memOf s)) (p : Fin 128) : NextWf (execHalfDuplexAttempt p s) :=
  memsWf_halfDuplex h p.val

@[simp] theorem nextWf_execCollision {s : State} (h : MemsWf (memOf s)) (p : Fin 128) : NextWf (execCollision p s) := by
  simp only [execCollision]
  split <;> simp [h]

@[simp] theorem memsWf_serialStart {s : State} (h : MemsWf (memOf s)) (p : Nat) : MemsWf (memOf (serialStart s p)) := by
  simp [serialStart, h]

@[simp] theorem nextWf_execSerialSettingsApply {s : State} (h : MemsWf (memOf s)) (p : Fin 128) (rx : Bool) :
    NextWf (execSerialSettingsApply p rx s) := by
  fun_cases execSerialSettingsApply p rx s <;> simp [h]

/-! ## Settings, enables and disables of ports -/

@[simp] theorem nextWf_execPortSet {s : State} (h : MemsWf (memOf s)) (slot : Fin 256) : NextWf (execPortSet slot s) := by
  unfold execPortSet
  split <;> simp [h]

@[simp] theorem nextWf_execPortEnable {s : State} (h : MemsWf (memOf s)) (slot : Fin 256) : NextWf (execPortEnable slot s) := by
  unfold execPortEnable
  split <;> simp [h]

@[simp] theorem nextWf_execPortDisable {s : State} (h : MemsWf (memOf s)) (slot : Fin 256) : NextWf (execPortDisable slot s) := by
  unfold execPortDisable
  split <;> simp [h]

@[simp] theorem memsWf_startCopy {s : State} (h : MemsWf (memOf s)) (ep : Endpoint) : MemsWf (memOf (startCopy s ep)) := by
  cases ep <;> simp [startCopy, h]

@[simp] theorem nextWf_execDeadlineMiss {s : State} (h : MemsWf (memOf s)) (arrival : Word) : NextWf (execDeadlineMiss arrival s) := by
  unfold execDeadlineMiss
  split <;> simp [h]

@[simp] theorem nextWf_execEndpointStartCopy {s : State} (h : MemsWf (memOf s)) (ep : Endpoint) : NextWf (execEndpointStartCopy ep s) := by
  simp [execEndpointStartCopy, h]

/-! ## Injection, wedges and hounds (R326 to R346) -/

@[simp] theorem memsWf_armSet {s : State} (h : MemsWf (memOf s)) (d mode n unit : Nat) (isolate : Bool) :
    MemsWf (memOf (armSet s d mode n unit isolate)) := by
  simp [armSet, h]

@[simp] theorem nextWf_execInjectArm {s : State} (h : MemsWf (memOf s)) (slot : Fin 256) : NextWf (execInjectArm slot s) := by
  unfold execInjectArm
  split <;> simp [h]

@[simp] theorem nextWf_execInjectionDurationEnd {s : State} (h : MemsWf (memOf s)) (d : BitVec 7) :
    NextWf (execInjectionDurationEnd d s) := by
  unfold execInjectionDurationEnd
  split <;> simp [h]

@[simp] theorem memsWf_wedgeUnit {s : State} (h : MemsWf (memOf s)) (x : Crossing) : MemsWf (memOf (wedgeUnit s x)) := by
  cases x <;> simp [wedgeUnit, h]

@[simp] theorem memsWf_crossTrip {s : State} (h : MemsWf (memOf s)) (x : Crossing) (d2 d3 : Nat) (inj : Bool) :
    MemsWf (memOf (crossTrip s x d2 d3 inj)) := by
  simp [crossTrip, h]

@[simp] theorem nextWf_execCrossingHoundTrip {s : State} (h : MemsWf (memOf s)) (ph : CrossPhase) (out idle : Bool) :
    NextWf (execCrossingHoundTrip ph out idle s) := by
  simp [execCrossingHoundTrip, h]

@[simp] theorem nextWf_execTempMonitorSample {s : State} (h : MemsWf (memOf s)) (g : Fin 8) (temp : BitVec 16) :
    NextWf (execTempMonitorSample g temp s) := by
  simp [execTempMonitorSample, h]

@[simp] theorem nextWf_execVcoreMonitorSample {s : State} (h : MemsWf (memOf s)) (g : Fin 8) (mv : BitVec 16) :
    NextWf (execVcoreMonitorSample g mv s) := by
  simp [execVcoreMonitorSample, h]

/-! ## Pairing (R363 to R370) -/

@[simp] theorem nextWf_execPairCtrlEnChange {s : State} (h : MemsWf (memOf s)) (val : Word) : NextWf (execPairCtrlEnChange val s) := by
  simp [execPairCtrlEnChange, h]

@[simp] theorem nextWf_execHeartbeatSend {s : State} (h : MemsWf (memOf s)) : NextWf (execHeartbeatSend s) := by simp [execHeartbeatSend, h]

@[simp] theorem nextWf_execHeartbeatHeard {s : State} (h : MemsWf (memOf s)) (msg : List Word) : NextWf (execHeartbeatHeard msg s) := by
  simp [execHeartbeatHeard, h]

@[simp] theorem nextWf_execPairSymbolTimeout {s : State} (h : MemsWf (memOf s)) (tx : Bool) : NextWf (execPairSymbolTimeout tx s) := by
  unfold execPairSymbolTimeout
  split <;> simp [h]

@[simp] theorem nextWf_execPartnerSilent {s : State} (h : MemsWf (memOf s)) : NextWf (execPartnerSilent s) := by simp [execPartnerSilent, h]

@[simp] theorem nextWf_execPairAliveInChange {s : State} (h : MemsWf (memOf s)) (level : Bool) :
    NextWf (execPairAliveInChange level s) := by
  simp [execPairAliveInChange, h]

@[simp] theorem nextWf_execHandbackDelay {s : State} (h : MemsWf (memOf s)) : NextWf (execHandbackDelay s) := by simp [execHandbackDelay, h]

/-! ## Voltage and occupancy (R22 to R25) -/

@[simp] theorem nextWf_execVidCodeChange {s : State} (h : MemsWf (memOf s)) : NextWf (execVidCodeChange s) := by simp [execVidCodeChange, h]

@[simp] theorem nextWf_execOccupancyWindowEnd {s : State} (h : MemsWf (memOf s)) : NextWf (execOccupancyWindowEnd s) := by
  simp [execOccupancyWindowEnd, h]

/-! ## Statistics and BAR2 -/

@[simp] theorem nextWf_execStatsSnapshot {s : State} (h : MemsWf (memOf s)) (slot : Fin 256) : NextWf (execStatsSnapshot slot s) := by
  unfold execStatsSnapshot
  split <;> simp [h]

@[simp] theorem nextWf_execBar2Read {s : State} (h : MemsWf (memOf s)) (off len : Nat) : NextWf (execBar2Read off len s) := by
  simp [execBar2Read, h]

@[simp] theorem nextWf_execBar2Write {s : State} (h : MemsWf (memOf s)) (off len : Nat) : NextWf (execBar2Write off len s) := by
  simp [execBar2Write, h]

/-! ## Submission of commands (R37 to R47) -/

@[simp] theorem nextWf_execCmdBufWrite {s : State} (h : MemsWf (memOf s)) (w : Fin 8) (k : Fin 16) (data : List Word) :
    NextWf (execCmdBufWrite w k data s) := by
  simp [execCmdBufWrite, h]

@[simp] theorem nextWf_execCmdAccept {s : State} (h : MemsWf (memOf s)) (w : Fin 8) : NextWf (execCmdAccept w s) := by
  simp [execCmdAccept, h]

@[simp] theorem nextWf_execDeviceReset {s : State} (h : MemsWf (memOf s)) (w : Fin 8) : NextWf (execDeviceReset w s) := by
  simp [execDeviceReset, h]

/-! ## Registers of the host -/

@[simp] theorem nextWf_execRcRegisterRead {s : State} (h : MemsWf (memOf s)) (off : BitVec 19) : NextWf (execRcRegisterRead off s) := by
  simp [execRcRegisterRead, h]

@[simp] theorem nextWf_execRegisterWrite {s : State} (h : MemsWf (memOf s)) (off : BitVec 19) (val : Word) :
    NextWf (execRegisterWrite off val s) := by
  simp [execRegisterWrite, h]

@[simp] theorem nextWf_execBar0BadAccess {s : State} (h : MemsWf (memOf s)) (isWrite : Bool) (off : Nat) (enables : List Bool) :
    NextWf (execBar0BadAccess isWrite off enables s) := by
  simp [execBar0BadAccess, h]

/-! ## Commands of the host -/

@[simp] theorem nextWf_execPanelUpdate {s : State} (h : MemsWf (memOf s)) (slot : Fin 256) : NextWf (execPanelUpdate slot s) := by
  unfold execPanelUpdate
  split <;> simp [h]

@[simp] theorem nextWf_execFarRmwLocked {s : State} (h : MemsWf (memOf s)) (slot : Fin 256) : NextWf (execFarRmwLocked slot s) := by
  unfold execFarRmwLocked
  split <;> simp [h]

@[simp] theorem nextWf_execFarFence {s : State} (h : MemsWf (memOf s)) (slot : Fin 256) : NextWf (execFarFence slot s) := by
  unfold execFarFence
  split <;> simp [h]

@[simp] theorem memsWf_fetchData {s : State} (h : MemsWf (memOf s)) (c : HostCmd) (f : Fetch) (data : List Byte) :
    MemsWf (memOf (fetchData s c f data)) := by
  simp [fetchData, h]

@[simp] theorem nextWf_execDmaReadCompletion {s : State} (h : MemsWf (memOf s)) (slot : Fin 256) (data : Option (List Byte)) :
    NextWf (execDmaReadCompletion slot data s) := by
  unfold execDmaReadCompletion
  split
  · exact h
  · split
    · exact h
    · split
      · exact h
      · split <;> simp [h]

/-! ## Power and resets (R349 to R354) -/

@[simp] theorem nextWf_execDeviceResetStart {s : State} (h : MemsWf (memOf s)) : NextWf (execDeviceResetStart s) := by
  unfold execDeviceResetStart
  split <;> simp [h]

@[simp] theorem nextWf_execFunctionLevelReset {s : State} (h : MemsWf (memOf s)) : NextWf (execFunctionLevelReset s) := by
  simp [execFunctionLevelReset, h]

@[simp] theorem nextWf_execBar0Usable {s : State} (h : MemsWf (memOf s)) : NextWf (execBar0Usable s) := by simp [execBar0Usable, h]

@[simp] theorem nextWf_execResetN {s : State} (h : MemsWf (memOf s)) (lowNs : Nat) : NextWf (execResetN lowNs s) := by simp [execResetN, h]

@[simp] theorem nextWf_execResetNRelease {s : State} (h : MemsWf (memOf s)) (straps : Straps) : NextWf (execResetNRelease straps s) := by
  simp [execResetNRelease, h]

@[simp] theorem nextWf_execVaonRemoved {s : State} (h : MemsWf (memOf s)) : NextWf (execVaonRemoved s) := by simp [execVaonRemoved, h]

@[simp] theorem nextWf_execPowerOnReset {s : State} (h : MemsWf (memOf s)) (straps : Straps) : NextWf (execPowerOnReset straps s) := by
  simp [execPowerOnReset, h]

@[simp] theorem nextWf_execPwrEnStep {s : State} (h : MemsWf (memOf s)) : NextWf (execPwrEnStep s) := by
  unfold execPwrEnStep
  split <;> simp [h]

@[simp] theorem nextWf_execD3hotTransition {s : State} (h : MemsWf (memOf s)) (enter : Bool) : NextWf (execD3hotTransition enter s) := by
  simp [execD3hotTransition, h]

@[simp] theorem nextWf_execMonitoredClockLoss {s : State} (h : MemsWf (memOf s)) (c : ClockStop) : NextWf (execMonitoredClockLoss c s) := by
  simp [execMonitoredClockLoss, h]

@[simp] theorem nextWf_execMonitoredClockReturn {s : State} (h : MemsWf (memOf s)) (c : MonClock) :
    NextWf (execMonitoredClockReturn c s) := by
  simp [execMonitoredClockReturn, h]

/-! ## Sleep (R358 to R362) -/

@[simp] theorem nextWf_execSleepEnter {s : State} (h : MemsWf (memOf s)) (slot : Fin 256) : NextWf (execSleepEnter slot s) := by
  unfold execSleepEnter
  split <;> simp [h]

@[simp] theorem nextWf_execSleepEntryStop {s : State} (h : MemsWf (memOf s)) : NextWf (execSleepEntryStop s) := by
  simp [execSleepEntryStop, h]

@[simp] theorem nextWf_execWakeN {s : State} (h : MemsWf (memOf s)) : NextWf (execWakeN s) := by simp [execWakeN, h]

@[simp] theorem nextWf_execWakeTimer {s : State} (h : MemsWf (memOf s)) : NextWf (execWakeTimer s) := by simp [execWakeTimer, h]

@[simp] theorem nextWf_execSleepPowerDownStep {s : State} (h : MemsWf (memOf s)) : NextWf (execSleepPowerDownStep s) := by
  simp only [execSleepPowerDownStep]
  split <;> simp [h]

@[simp] theorem nextWf_execWakeRelease {s : State} (h : MemsWf (memOf s)) : NextWf (execWakeRelease s) := by simp [execWakeRelease, h]

@[simp] theorem nextWf_execWatchCharacter {s : State} (h : MemsWf (memOf s)) (j : Fin 8) (ch : Byte) (stopLow parityBad : Bool)
    (idleChars : Nat) : NextWf (execWatchCharacter j ch stopLow parityBad idleChars s) := by
  unfold execWatchCharacter
  split <;> simp [h]

@[simp] theorem nextWf_execWatchTakeover {s : State} (h : MemsWf (memOf s)) (p : Fin 128) : NextWf (execWatchTakeover p s) := by
  simp only [execWatchTakeover]
  split
  · exact h
  next w _ =>
    split
    · exact h
    · rw [nextWf_next, memOf_ite, memOf_serialOverrun, ite_self]
      exact memsWf_foldl (fun t c ht => memsWf_serialPass ht _ _) _ (by simp [h])

@[simp] theorem nextWf_execWatchReceiverTimeout {s : State} (h : MemsWf (memOf s)) (j : Fin 8) : NextWf (execWatchReceiverTimeout j s) := by
  unfold execWatchReceiverTimeout
  split <;> simp [h]

/-! ## Boot (R354 to R357) -/

@[simp] theorem memsWf_bootProgram {s : State} (h : MemsWf (memOf s)) (img : List Byte) : MemsWf (memOf (bootProgram s img)) := by
  simp [bootProgram, h]

theorem memsWf_recordTable {s t : State} {img : List Byte} {w : Nat → Word} (ht : recordTable s img w = some t) (h : MemsWf (memOf s)) :
    MemsWf (memOf t) := by
  simp only [recordTable] at ht
  split at ht
  · cases ht
  · cases ht
    simp [h]

theorem memsWf_recordRun {s t : State} {words : List Word} {run : State → State} (ht : recordRun s words run = some t)
    (hrun : MemsWf (memOf (run s))) : MemsWf (memOf t) := by
  unfold recordRun at ht
  split at ht
  · cases ht
    exact hrun
  · cases ht

theorem memsWf_settingRecord {s t : State} {img : List Byte} {words : List Word} (ht : settingRecord s img words = some t)
    (h : MemsWf (memOf s)) : MemsWf (memOf t) := by
  unfold settingRecord at ht
  dsimp only at ht
  repeat' split at ht
  · cases ht
  · exact memsWf_recordRun ht (by simp [h])
  · exact memsWf_recordRun ht (by simp [h])
  · exact memsWf_recordRun ht (by simp [h])
  · exact memsWf_recordRun ht (by simp [h])
  · exact memsWf_recordRun ht (by simp [h])
  · exact memsWf_recordTable ht h
  · cases ht
    simp [h]
  · cases ht

@[simp] theorem memsWf_settingRecords {s : State} (h : MemsWf (memOf s)) (img : List Byte) (base i n : Nat) (first : Option Nat)
    (skipped : Nat) : MemsWf (memOf (settingRecords s img base i n first skipped).1) := by
  induction n generalizing s i first skipped with
  | zero => exact h
  | succ n ih =>
    simp only [settingRecords]
    split
    next ht => exact ih (memsWf_settingRecord ht h) _ _ _
    next => exact ih h _ _ _

@[simp] theorem memsWf_bootStaging {s : State} (h : MemsWf (memOf s)) (img : List Byte) : MemsWf (memOf (bootStaging s img)) := by
  simp [bootStaging, h]

@[simp] theorem memsWf_bootImage {s : State} (h : MemsWf (memOf s)) (img : List Byte) : MemsWf (memOf (bootImage s img)) := by
  simp [bootImage, h]

@[simp] theorem nextWf_execBoot {s : State} (h : MemsWf (memOf s)) (run : BootRun) : NextWf (execBoot run s) := by
  simp only [execBoot]
  split
  · exact h
  · split <;> simp [h]

end Sys2Proof.Machine
end

section
/-! # What keeps the canonical form: the instructions of the engines -/

namespace Sys2Proof.Machine

/-! ## Nymsa: reads and steps (R190 to R195) -/

@[simp] theorem memsWf_markMet {before s : State} (h : MemsWf (memOf s)) (e : Nat) : MemsWf (memOf (markMet before s e)) := by
  simp [markMet, h]

@[simp] theorem memsWf_engReload {s : State} (h : MemsWf (memOf s)) (e : Nat) : MemsWf (memOf (engReload s e)) := by
  unfold engReload
  dsimp only
  split
  next hr =>
    have ht := memsWf_of_eq hr (by simp [h])
    simp [ht]
  next hr =>
    have ht := memsWf_of_eq hr (by simp [h])
    have hl := memsWf_headerLoad (memsWf_markMet (before := s) ht e) e (engRec s e) [0, 1, 2, 9, 10, 11]
    simp [hl]

@[simp] theorem memsWf_reparse {s : State} (h : MemsWf (memOf s)) (e addr : Nat) (inj : Bool) : MemsWf (memOf (reparse s e addr inj)) := by
  simp [reparse, h]

@[simp] theorem memsWf_scrGet {s : State} (h : MemsWf (memOf s)) (e addr : Nat) : MemsWf (memOf (scrGet s e addr).1) := by simp [scrGet, h]

@[simp] theorem memsWf_scrGets {s : State} (h : MemsWf (memOf s)) (e : Nat) (as : List Nat) : MemsWf (memOf (scrGets s e as).1) := by
  induction as generalizing s with
  | nil => exact h
  | cons a as ih =>
    unfold scrGets
    split
    next hr => exact memsWf_of_eq hr (by simp [h])
    next hr =>
      have ht := ih (memsWf_of_eq hr (by simp [h]))
      split
      next hr => exact memsWf_of_eq hr ht
      next hr => exact memsWf_of_eq hr ht

@[simp] theorem memsWf_scrPut {s : State} (h : MemsWf (memOf s)) (e addr : Nat) (v : Word) : MemsWf (memOf (scrPut s e addr v)) := by
  simp [scrPut, h]

@[simp] theorem memsWf_fieldGet {s : State} (h : MemsWf (memOf s)) (e f : Nat) : MemsWf (memOf (fieldGet s e f).1) := by
  simp only [fieldGet]
  split <;> simp [h]

@[simp] theorem memsWf_kenGet {s : State} (h : MemsWf (memOf s)) (e k : Nat) : MemsWf (memOf (kenGet s e k).1) := by simp [kenGet, h]

@[simp] theorem memsWf_kenGets {s : State} (h : MemsWf (memOf s)) (e : Nat) (ks : List Nat) : MemsWf (memOf (kenGets s e ks).1) := by
  induction ks generalizing s with
  | nil => exact h
  | cons k ks ih =>
    unfold kenGets
    split
    next hr => exact memsWf_of_eq hr (by simp [h])
    next hr =>
      have ht := ih (memsWf_of_eq hr (by simp [h]))
      split
      next hr => exact memsWf_of_eq hr ht
      next hr => exact memsWf_of_eq hr ht

@[simp] theorem memsWf_kenBytes {s : State} (h : MemsWf (memOf s)) (e lo n : Nat) : MemsWf (memOf (kenBytes s e lo n).1) := by
  unfold kenBytes
  dsimp only
  split
  next hr => exact memsWf_of_eq hr (by simp [h])
  next hr => exact memsWf_of_eq hr (by simp [h])

@[simp] theorem memsWf_kenStamp {s : State} (h : MemsWf (memOf s)) (e k : Nat) : MemsWf (memOf (kenStamp s e k).1) := by
  unfold kenStamp
  split
  next hr => exact memsWf_of_eq hr (by simp [h])
  next hr => exact memsWf_of_eq hr (by simp [h])

@[simp] theorem memsWf_kenEdge {s : State} (h : MemsWf (memOf s)) (e : Nat) : MemsWf (memOf (kenEdge s e).1) := by
  unfold kenEdge
  split
  next hr => exact memsWf_of_eq hr (by simp [h])
  next hr => exact memsWf_of_eq hr (by simp [h])

@[simp] theorem memsWf_engBank {s : State} (h : MemsWf (memOf s)) (e : Nat) (m : Mem) (as : List Nat) :
    MemsWf (memOf (engBank s e m as).1) := by
  unfold engBank
  split
  next hr =>
    have ht := memsWf_of_eq hr (by simp [h])
    simp [ht]
  next hr =>
    have ht := memsWf_of_eq hr (by simp [h])
    simp [ht]

@[simp] theorem memsWf_engPoolLen {s : State} (h : MemsWf (memOf s)) (e off : Nat) : MemsWf (memOf (engPoolLen s e off).1) := by
  unfold engPoolLen
  dsimp only
  split
  next hr => exact memsWf_of_eq hr (by simp [h])
  next hr => exact memsWf_of_eq hr (by simp [h])

@[simp] theorem memsWf_engPoolChars {s : State} (h : MemsWf (memOf s)) (e off : Nat) (w : Word) (len : Nat) :
    MemsWf (memOf (engPoolChars s e off w len).1) := by
  unfold engPoolChars
  dsimp only
  split
  next hr => exact memsWf_of_eq hr (by simp [h])
  next hr => exact memsWf_of_eq hr (by simp [h])

/-- An instruction whose cost, reads and effect keep the memories in canonical form keeps them so. -/
theorem memsWf_nyStep {α β : Type} {ops : List NyOp} {cost : State → Nat → Word → State × Option (Nat × α)}
    {prep : State → Nat → Word → α → State × Option β} {body : State → Nat → Word → β → State}
    (hcost : ∀ t e w, MemsWf (memOf t) → MemsWf (memOf (cost t e w).1))
    (hprep : ∀ t e w x, MemsWf (memOf t) → MemsWf (memOf (prep t e w x).1))
    (hbody : ∀ t e w y, MemsWf (memOf t) → MemsWf (memOf (body t e w y))) (e : Nat) {s : State} (h : MemsWf (memOf s)) :
    MemsWf (memOf (nyStep ops cost prep body e s)) := by
  unfold nyStep
  extract_lets +onlyGivenNames loaded
  have hload : MemsWf (memOf loaded) := by simp [loaded, h]
  clear_value loaded
  split
  · exact hload
  · dsimp only
    split
    next hf =>
      have hfetch := memsWf_of_eq hf (by simp [hload])
      split
      · simp [hfetch]
      · split
        next hc => exact memsWf_of_eq hc (hcost _ _ _ hfetch)
        next t c x hc =>
          have hcosted := memsWf_of_eq hc (hcost _ _ _ hfetch)
          have hchecked : MemsWf (memOf (if (engine t e).judged then (t, false) else injected t 0x40 [unitEngine e]).1) := by
            simp [hcosted]
          generalize (if (engine t e).judged then (t, false) else injected t 0x40 [unitEngine e]) = r at hchecked ⊢
          obtain ⟨u, inj⟩ := r
          dsimp only at hchecked ⊢
          split
          · simp [hchecked]
          · split
            next hp => exact memsWf_of_eq hp (hprep _ _ _ _ (by simp [hchecked]))
            next hp =>
              have hread := memsWf_of_eq hp (hprep _ _ _ _ (by simp [hchecked]))
              exact hbody _ _ _ _ (by simp [hread])
    next hf => exact memsWf_of_eq hf (by simp [hload])

/-- An instruction that reads nothing that may wait keeps the memories in canonical form where its effect does. -/
theorem memsWf_nyPlain {op : NyOp} {c : Nat} {body : State → Nat → Word → State}
    (hbody : ∀ t e w, MemsWf (memOf t) → MemsWf (memOf (body t e w))) (e : Nat) {s : State} (h : MemsWf (memOf s)) :
    MemsWf (memOf (nyPlain op c body e s)) :=
  memsWf_nyStep (fun _ _ _ ht => ht) (fun _ _ _ _ ht => ht) (fun t e w _ ht => hbody t e w ht) e h

/-! ## Nymsa: arithmetic (R205 to R207) -/

theorem memsWf_nyBinary {op : NyOp} {c : Nat} {operand : State → Nat → Word → Word} {f : Word → Word → Word}
    {flags : BitVec 16 → Word → Word → BitVec 16} (e : Nat) {s : State} (h : MemsWf (memOf s)) :
    MemsWf (memOf (nyBinary op c operand f flags e s)) :=
  memsWf_nyPlain (fun _ _ _ ht => by simp [ht]) e h

@[simp] theorem nextWf_execAdd {s : State} (h : MemsWf (memOf s)) (e : Fin 32) : NextWf (execAdd e s) := memsWf_nyBinary e.val h

@[simp] theorem nextWf_execSub {s : State} (h : MemsWf (memOf s)) (e : Fin 32) : NextWf (execSub e s) := memsWf_nyBinary e.val h

@[simp] theorem nextWf_execMul {s : State} (h : MemsWf (memOf s)) (e : Fin 32) : NextWf (execMul e s) := memsWf_nyBinary e.val h

@[simp] theorem nextWf_execAndW {s : State} (h : MemsWf (memOf s)) (e : Fin 32) : NextWf (execAndW e s) := memsWf_nyBinary e.val h

@[simp] theorem nextWf_execOrW {s : State} (h : MemsWf (memOf s)) (e : Fin 32) : NextWf (execOrW e s) := memsWf_nyBinary e.val h

@[simp] theorem nextWf_execXorW {s : State} (h : MemsWf (memOf s)) (e : Fin 32) : NextWf (execXorW e s) := memsWf_nyBinary e.val h

@[simp] theorem nextWf_execShl {s : State} (h : MemsWf (memOf s)) (e : Fin 32) : NextWf (execShl e s) := memsWf_nyBinary e.val h

@[simp] theorem nextWf_execShr {s : State} (h : MemsWf (memOf s)) (e : Fin 32) : NextWf (execShr e s) := memsWf_nyBinary e.val h

@[simp] theorem nextWf_execMinW {s : State} (h : MemsWf (memOf s)) (e : Fin 32) : NextWf (execMinW e s) := memsWf_nyBinary e.val h

@[simp] theorem nextWf_execMaxW {s : State} (h : MemsWf (memOf s)) (e : Fin 32) : NextWf (execMaxW e s) := memsWf_nyBinary e.val h

@[simp] theorem nextWf_execCmp {s : State} (h : MemsWf (memOf s)) (e : Fin 32) : NextWf (execCmp e s) :=
  memsWf_nyPlain (fun _ _ _ ht => by simp [ht]) e.val h

@[simp] theorem nextWf_execMov {s : State} (h : MemsWf (memOf s)) (e : Fin 32) : NextWf (execMov e s) :=
  memsWf_nyPlain (fun _ _ _ ht => by simp [ht]) e.val h

@[simp] theorem nextWf_execMulq {s : State} (h : MemsWf (memOf s)) (e : Fin 32) : NextWf (execMulq e s) :=
  memsWf_nyPlain (fun _ _ _ ht => by simp [ht]) e.val h

@[simp] theorem nextWf_execScale {s : State} (h : MemsWf (memOf s)) (e : Fin 32) : NextWf (execScale e s) :=
  memsWf_nyStep (fun _ _ _ ht => ht) (fun _ _ _ _ ht => by simp [ht]) (fun _ _ _ _ ht => by simp only [memOf_limited32, ht]) e.val h

@[simp] theorem nextWf_execLdi {s : State} (h : MemsWf (memOf s)) (e : Fin 32) : NextWf (execLdi e s) :=
  memsWf_nyStep (fun _ _ _ ht => ht) (fun _ _ _ _ ht => by split <;> simp [ht]) (fun _ _ _ _ ht => by simp [ht]) e.val h

/-! ## Nymsa: fields and text (R196 to R204) -/

@[simp] theorem nextWf_execNop {s : State} (h : MemsWf (memOf s)) (e : Fin 32) : NextWf (execNop e s) :=
  memsWf_nyStep (fun _ _ _ ht => ht) (fun _ _ _ _ ht => ht) (fun _ _ _ _ ht => ht) e.val h

@[simp] theorem nextWf_execEndRecord {s : State} (h : MemsWf (memOf s)) (e : Fin 32) : NextWf (execEndRecord e s) :=
  memsWf_nyPlain (fun _ _ _ ht => by simp [ht]) e.val h

@[simp] theorem nextWf_execDrop {s : State} (h : MemsWf (memOf s)) (e : Fin 32) : NextWf (execDrop e s) :=
  memsWf_nyPlain (fun _ _ _ ht => by simp [ht]) e.val h

@[simp] theorem nextWf_execBr {s : State} (h : MemsWf (memOf s)) (e : Fin 32) : NextWf (execBr e s) :=
  memsWf_nyPlain (fun _ _ _ ht => by simp [ht]) e.val h

@[simp] theorem nextWf_execBrc {s : State} (h : MemsWf (memOf s)) (e : Fin 32) : NextWf (execBrc e s) :=
  memsWf_nyPlain (fun _ _ _ ht => by simp [ht]) e.val h

@[simp] theorem nextWf_execCall {s : State} (h : MemsWf (memOf s)) (e : Fin 32) : NextWf (execCall e s) :=
  memsWf_nyPlain (fun _ _ _ ht => by simp [ht]) e.val h

@[simp] theorem nextWf_execRet {s : State} (h : MemsWf (memOf s)) (e : Fin 32) : NextWf (execRet e s) := by
  refine memsWf_nyPlain (fun _ _ _ ht => ?_) e.val h
  dsimp only
  split <;> simp [ht]

@[simp] theorem nextWf_execBudget {s : State} (h : MemsWf (memOf s)) (e : Fin 32) : NextWf (execBudget e s) :=
  memsWf_nyPlain (fun _ _ _ ht => by simp [ht]) e.val h

@[simp] theorem nextWf_execCur {s : State} (h : MemsWf (memOf s)) (e : Fin 32) : NextWf (execCur e s) :=
  memsWf_nyPlain (fun _ _ _ ht => by simp [ht]) e.val h

@[simp] theorem nextWf_execSkip {s : State} (h : MemsWf (memOf s)) (e : Fin 32) : NextWf (execSkip e s) :=
  memsWf_nyPlain (fun _ _ _ ht => by simp [ht]) e.val h

@[simp] theorem nextWf_execGetc {s : State} (h : MemsWf (memOf s)) (e : Fin 32) : NextWf (execGetc e s) := by
  refine memsWf_nyPlain (fun _ _ _ ht => ?_) e.val h
  dsimp only
  split
  next hr => exact memsWf_of_eq hr (by simp [ht])
  next hr => simp [memOf_of_eq hr, ht]

@[simp] theorem nextWf_execMatch {s : State} (h : MemsWf (memOf s)) (e : Fin 32) : NextWf (execMatch e s) := by
  refine memsWf_nyStep (fun _ _ _ ht => ?_) (fun _ _ _ _ ht => by simp [ht]) (fun _ _ _ _ ht => ?_) e.val h
  · split
    next hr => exact memsWf_of_eq hr (by simp [ht])
    next hr => exact memsWf_of_eq hr (by simp [ht])
  · dsimp only
    split
    · simp [ht]
    · split
      · simp [ht]
      · split
        next hr => exact memsWf_of_eq hr (by simp [ht])
        next hr => simp [memOf_of_eq hr, ht]

@[simp] theorem memsWf_nextfRead {s : State} (h : MemsWf (memOf s)) (e skip len : Nat) (acc : List Byte) (ks : List Nat) :
    MemsWf (memOf (nextfRead s e skip len acc ks).1) := by
  induction ks generalizing s acc with
  | nil => exact h
  | cons k ks ih =>
    unfold nextfRead
    split
    · exact h
    · split
      next hr => exact memsWf_of_eq hr (by simp [h])
      next hr => exact ih (memsWf_of_eq hr (by simp [h])) _

@[simp] theorem nextWf_execNextf {s : State} (h : MemsWf (memOf s)) (e : Fin 32) : NextWf (execNextf e s) := by
  refine memsWf_nyPlain (fun _ _ _ ht => ?_) e.val h
  dsimp only
  split
  next hr => exact memsWf_of_eq hr (by simp [ht])
  next hr =>
    have hu := memsWf_of_eq hr (by simp [ht])
    split <;> simp [hu]

@[simp] theorem nextWf_execChk {s : State} (h : MemsWf (memOf s)) (e : Fin 32) : NextWf (execChk e s) := by
  refine memsWf_nyStep (fun _ _ _ ht => ht) (fun _ _ _ _ ht => ht) (fun _ _ _ _ ht => ?_) e.val h
  · dsimp only
    split
    · simp [ht]
    · split
      next hr => exact memsWf_of_eq hr (by simp [ht])
      next hr =>
        have hu := memsWf_of_eq hr (by simp [ht])
        split <;> simp [hu]

@[simp] theorem memsWf_addressChars {s : State} (h : MemsWf (memOf s)) (e : Nat) (w : Word) (from_ n : Nat) :
    MemsWf (memOf (addressChars s e w from_ n)) := by
  unfold addressChars
  split
  · simp [h]
  · split
    next hr => exact memsWf_of_eq hr (by simp [h])
    next hr => simp [memOf_of_eq hr, h]

@[simp] theorem nextWf_execTalk {s : State} (h : MemsWf (memOf s)) (e : Fin 32) : NextWf (execTalk e s) :=
  memsWf_nyPlain (fun _ _ _ ht => by simp [ht]) e.val h

@[simp] theorem nextWf_execFmt {s : State} (h : MemsWf (memOf s)) (e : Fin 32) : NextWf (execFmt e s) :=
  memsWf_nyPlain (fun _ _ _ ht => by simp [ht]) e.val h

@[simp] theorem memsWf_fieldText {s : State} (h : MemsWf (memOf s)) (e f : Nat) : MemsWf (memOf (fieldText s e f).1) := by
  unfold fieldText
  split
  next hr => exact memsWf_of_eq hr (by simp [h])
  next hr => exact memsWf_of_eq hr (by simp [h])
  next hr =>
    have ht := memsWf_of_eq hr (by simp [h])
    split
    next hb => exact memsWf_of_eq hb (by simp [ht])
    next hb => exact memsWf_of_eq hb (by simp [ht])

@[simp] theorem memsWf_fieldTexts {s : State} (h : MemsWf (memOf s)) (e f k : Nat) : MemsWf (memOf (fieldTexts s e f k).1) := by
  induction k generalizing s f with
  | zero => exact h
  | succ k ih =>
    unfold fieldTexts
    split
    next hr => exact memsWf_of_eq hr (by simp [h])
    next hr =>
      have ht := memsWf_of_eq hr (by simp [h])
      split
      · exact ht
      · split
        next hm => exact memsWf_of_eq hm (ih ht _)
        next hm => exact memsWf_of_eq hm (ih ht _)

theorem memsWf_nyParse {op : NyOp} {c k : Nat} {n v : Bool} {f : Word → List (List Byte) → Option (Word × Bool)} (e : Nat) {s : State}
    (h : MemsWf (memOf s)) : MemsWf (memOf (nyParse op c k n v f e s)) := by
  refine memsWf_nyPlain (fun _ _ _ ht => ?_) e h
  split
  next hr => exact memsWf_of_eq hr (by simp [ht])
  next hr => simp [memOf_of_eq hr, ht]

@[simp] theorem nextWf_execPdec {s : State} (h : MemsWf (memOf s)) (e : Fin 32) : NextWf (execPdec e s) := memsWf_nyParse e.val h

@[simp] theorem nextWf_execPlat {s : State} (h : MemsWf (memOf s)) (e : Fin 32) : NextWf (execPlat e s) := memsWf_nyParse e.val h

@[simp] theorem nextWf_execPlon {s : State} (h : MemsWf (memOf s)) (e : Fin 32) : NextWf (execPlon e s) := memsWf_nyParse e.val h

@[simp] theorem nextWf_execPhex {s : State} (h : MemsWf (memOf s)) (e : Fin 32) : NextWf (execPhex e s) := memsWf_nyParse e.val h

@[simp] theorem nextWf_execPchr {s : State} (h : MemsWf (memOf s)) (e : Fin 32) : NextWf (execPchr e s) := memsWf_nyParse e.val h

@[simp] theorem nextWf_execPtime {s : State} (h : MemsWf (memOf s)) (e : Fin 32) : NextWf (execPtime e s) := by
  refine memsWf_nyPlain (fun _ _ _ ht => ?_) e.val h
  dsimp only
  split
  next hr => exact memsWf_of_eq hr (by simp [ht])
  next hr =>
    have hu := memsWf_of_eq hr (by simp [ht])
    split
    · simp [hu]
    · simp [hu]
    · split <;> simp [hu]

@[simp] theorem nextWf_execPdate {s : State} (h : MemsWf (memOf s)) (e : Fin 32) : NextWf (execPdate e s) := by
  refine memsWf_nyPlain (fun _ _ _ ht => ?_) e.val h
  split
  next hr => exact memsWf_of_eq hr (by simp [ht])
  next hr => simp [memOf_of_eq hr, ht]

/-! ## Nymsa: items (R213 to R219) -/

@[simp] theorem nextWf_execOpenItem {s : State} (h : MemsWf (memOf s)) (e : Fin 32) : NextWf (execOpenItem e s) :=
  memsWf_nyPlain (fun _ _ _ ht => by simp [ht]) e.val h

@[simp] theorem nextWf_execPutc {s : State} (h : MemsWf (memOf s)) (e : Fin 32) : NextWf (execPutc e s) :=
  memsWf_nyPlain (fun _ _ _ ht => by simp [ht]) e.val h

@[simp] theorem nextWf_execPuts {s : State} (h : MemsWf (memOf s)) (e : Fin 32) : NextWf (execPuts e s) := by
  refine memsWf_nyStep (fun _ _ _ ht => ?_) (fun _ _ _ _ ht => by simp [ht]) (fun _ _ _ _ ht => by simp [ht]) e.val h
  split
  next hr => exact memsWf_of_eq hr (by simp [ht])
  next hr => exact memsWf_of_eq hr (by simp [ht])

@[simp] theorem nextWf_execPutf {s : State} (h : MemsWf (memOf s)) (e : Fin 32) : NextWf (execPutf e s) := by
  refine memsWf_nyStep (fun _ _ _ ht => ?_) (fun _ _ _ _ ht => ht) (fun _ _ _ _ ht => ?_) e.val h
  · split
    · exact ht
    · split
      next hr => exact memsWf_of_eq hr (by simp [ht])
      next hr => exact memsWf_of_eq hr (by simp [ht])
      next hr => exact memsWf_of_eq hr (by simp [ht])
  · split
    · simp [ht]
    · split
      · simp [ht]
      · split
        next hr => exact memsWf_of_eq hr (by simp [ht])
        next hr => simp [memOf_of_eq hr, ht]

@[simp] theorem nextWf_execPutraw {s : State} (h : MemsWf (memOf s)) (e : Fin 32) : NextWf (execPutraw e s) := by
  refine memsWf_nyStep (fun _ _ _ ht => ht) (fun _ _ _ _ ht => ht) (fun _ _ _ _ ht => ?_) e.val h
  · dsimp only
    split
    · simp [ht]
    · split
      · simp [ht]
      · split
        next hr => exact memsWf_of_eq hr (by simp [ht])
        next hr => simp [memOf_of_eq hr, ht]

@[simp] theorem nextWf_execOpgn {s : State} (h : MemsWf (memOf s)) (e : Fin 32) : NextWf (execOpgn e s) := by
  refine memsWf_nyPlain (fun _ _ _ ht => ?_) e.val h
  split <;> simp [ht]

@[simp] theorem nextWf_execPutb {s : State} (h : MemsWf (memOf s)) (e : Fin 32) : NextWf (execPutb e s) :=
  memsWf_nyPlain (fun _ _ _ ht => by simp [ht]) e.val h

@[simp] theorem memsWf_closeRead {s : State} (h : MemsWf (memOf s)) (e : Nat) : MemsWf (memOf (closeRead s e).1) := by
  unfold closeRead
  split
  · exact h
  · dsimp only
    split
    next hr =>
      have ht := memsWf_of_eq hr (by simp [h])
      simp [ht]
    next hr =>
      have ht := memsWf_of_eq hr (by simp [h])
      split
      next hm =>
        have hu := memsWf_of_eq hm (memsWf_memberEntries ht _ _)
        simp [hu]
      next hm =>
        have hu := memsWf_of_eq hm (memsWf_memberEntries ht _ _)
        simp [hu]

@[simp] theorem nextWf_execClose {s : State} (h : MemsWf (memOf s)) (e : Fin 32) : NextWf (execClose e s) := by
  refine memsWf_nyStep (fun _ _ _ ht => ht) (fun _ _ _ _ ht => by simp [ht]) (fun _ _ _ _ ht => ?_) e.val h
  · dsimp only
    split
    · split
      next hr => exact memsWf_of_eq hr (by simp [ht])
      next hr =>
        have hu := memsWf_of_eq hr (by simp [ht])
        simp only [memOf_refused, memOf_setWreg]
        split <;> simp [hu]
    · simp [ht]

@[simp] theorem nextWf_execLaunch {s : State} (h : MemsWf (memOf s)) (e : Fin 32) : NextWf (execLaunch e s) := by
  refine memsWf_nyPlain (fun _ _ _ ht => ?_) e.val h
  dsimp only
  split
  · split <;> simp [ht]
  · simp [ht]

@[simp] theorem nextWf_execTagItem {s : State} (h : MemsWf (memOf s)) (e : Fin 32) : NextWf (execTagItem e s) := by
  refine memsWf_nyStep (fun _ _ _ ht => ht) (fun _ _ _ _ ht => ?_) (fun _ _ _ _ ht => ?_) e.val h
  · dsimp only
    split
    · exact ht
    · split
      next hr => exact memsWf_of_eq hr (by simp [ht])
      next hr =>
        have hu := memsWf_of_eq hr (by simp [ht])
        split
        next hc => exact memsWf_of_eq hc (by simp [hu])
        next hc => exact memsWf_of_eq hc (by simp [hu])
  · split <;> simp [ht]

@[simp] theorem nextWf_execPanel {s : State} (h : MemsWf (memOf s)) (e : Fin 32) : NextWf (execPanel e s) := by
  refine memsWf_nyPlain (fun _ _ _ ht => ?_) e.val h
  dsimp only
  split
  · simp [ht]
  · split
    next hr => simp [memOf_of_eq hr, ht]
    next hr => simp [memOf_of_eq hr, ht]

/-! ## Nymsa: store, time and housekeeping (R208 to R221) -/

@[simp] theorem nextWf_execTlk {s : State} (h : MemsWf (memOf s)) (e : Fin 32) : NextWf (execTlk e s) :=
  memsWf_nyPlain (fun _ _ _ ht => by simp [ht]) e.val h

@[simp] theorem nextWf_execRt {s : State} (h : MemsWf (memOf s)) (e : Fin 32) : NextWf (execRt e s) :=
  memsWf_nyStep (fun _ _ _ ht => ht) (fun _ _ _ _ ht => by simp [ht]) (fun _ _ _ _ ht => by simp [ht]) e.val h

@[simp] theorem nextWf_execLds {s : State} (h : MemsWf (memOf s)) (e : Fin 32) : NextWf (execLds e s) := by
  refine memsWf_nyPlain (fun _ _ _ ht => ?_) e.val h
  split
  next hr => exact memsWf_of_eq hr (by simp [ht])
  next hr => simp [memOf_of_eq hr, ht]

@[simp] theorem nextWf_execSts {s : State} (h : MemsWf (memOf s)) (e : Fin 32) : NextWf (execSts e s) :=
  memsWf_nyPlain (fun _ _ _ ht => by simp [ht]) e.val h

@[simp] theorem nextWf_execSlotw {s : State} (h : MemsWf (memOf s)) (e : Fin 32) : NextWf (execSlotw e s) := by
  refine memsWf_nyPlain (fun _ _ _ ht => ?_) e.val h
  split
  · exact ht
  · split
    next hr => exact memsWf_of_eq hr (by simp [ht])
    next hr =>
      have hu := memsWf_of_eq hr (by simp [ht])
      split
      next hk => exact memsWf_of_eq hk (by simp [hu])
      next hk =>
        have hv := memsWf_of_eq hk (by simp [hu])
        simp [hv]

@[simp] theorem memsWf_scrPuts {s : State} (h : MemsWf (memOf s)) (e : Nat) (as : List Nat) (vs : List Word) :
    MemsWf (memOf (scrPuts s e as vs)) := by
  induction as generalizing s vs with
  | nil => exact h
  | cons a as ih =>
    cases vs with
    | nil => exact h
    | cons v vs => exact ih (memsWf_scrPut h e a v) vs

@[simp] theorem nextWf_execSlotr {s : State} (h : MemsWf (memOf s)) (e : Fin 32) : NextWf (execSlotr e s) := by
  refine memsWf_nyPlain (fun t e w ht => ?_) e.val h
  have hs := memsWf_slotTake ht ((valA t e w).toNat % 4096) (List.range 12) e []
  simp only []
  split <;> simp [hs]

@[simp] theorem memsWf_stampRead {s : State} (h : MemsWf (memOf s)) (e : Nat) (w : Word) (k : Nat) :
    MemsWf (memOf (stampRead s e w k)) := by
  unfold stampRead
  split
  next hr => exact memsWf_of_eq hr (by simp [h])
  next hr =>
    have ht := memsWf_of_eq hr (by simp [h])
    simp [ht]

@[simp] theorem nextWf_execTsa {s : State} (h : MemsWf (memOf s)) (e : Fin 32) : NextWf (execTsa e s) :=
  memsWf_nyPlain (fun _ _ _ ht => by simp [ht]) e.val h

@[simp] theorem nextWf_execTse {s : State} (h : MemsWf (memOf s)) (e : Fin 32) : NextWf (execTse e s) :=
  memsWf_nyPlain (fun _ _ _ ht => by simp [ht]) e.val h

@[simp] theorem nextWf_execTnow {s : State} (h : MemsWf (memOf s)) (e : Fin 32) : NextWf (execTnow e s) :=
  memsWf_nyPlain (fun _ _ _ ht => by simp [ht]) e.val h

@[simp] theorem nextWf_execTdiff {s : State} (h : MemsWf (memOf s)) (e : Fin 32) : NextWf (execTdiff e s) :=
  memsWf_nyPlain (fun _ _ _ ht => by simp [ht]) e.val h

@[simp] theorem nextWf_execTimeset {s : State} (h : MemsWf (memOf s)) (e : Fin 32) : NextWf (execTimeset e s) := by
  refine memsWf_nyPlain (fun _ _ _ ht => ?_) e.val h
  dsimp only
  split
  · simp [ht]
  · split
    · simp [ht]
    · split
      next hr => exact memsWf_of_eq hr (by simp [ht])
      next hr => simp [memOf_of_eq hr, ht]

@[simp] theorem nextWf_execCount {s : State} (h : MemsWf (memOf s)) (e : Fin 32) : NextWf (execCount e s) :=
  memsWf_nyPlain (fun _ _ _ ht => by simp [ht]) e.val h

@[simp] theorem nextWf_execEvent {s : State} (h : MemsWf (memOf s)) (e : Fin 32) : NextWf (execEvent e s) :=
  memsWf_nyPlain (fun _ _ _ ht => by simp [ht]) e.val h

@[simp] theorem nextWf_execAckstat {s : State} (h : MemsWf (memOf s)) (e : Fin 32) : NextWf (execAckstat e s) := by
  refine memsWf_nyPlain (fun _ _ _ ht => ?_) e.val h
  split
  · simp [ht]
  · split
    next hr => simp [memOf_of_eq hr, ht]

end Sys2Proof.Machine
end

section
/-! # Every step keeps the canonical form -/

namespace Sys2Proof.Machine

/-! ## Every command -/

/-- Every command keeps the memories in canonical form. -/
theorem nextWf_exec {s : State} (h : MemsWf (memOf s)) (i : Instr) : NextWf (exec i s) := by
  cases i <;> simp [exec, h]

/-! ## The tick -/

theorem memsWf_hubTick {s : State} (h : MemsWf (memOf s)) : MemsWf (memOf (hubTick s)) := by
  simp only [hubTick]
  split
  · simp [h]
  · have hhound := memsWf_foldl (fun t e ht => memsWf_houndCheck ht e) (List.range 32)
      (s := leashTick ((List.range 8).foldl eoTable (reverseTick (tick s)))) (by simp [h])
    simp [hhound]

/-- A step keeps the memories in canonical form: the command at the front of the queue does, and so does a tick. -/
theorem nextWf_step {s : State} (h : MemsWf (memOf s)) : NextWf (step s) := by
  unfold step
  split
  · have ht := memsWf_hubTick h
    simp [ht, h]
  · exact nextWf_exec (by simp [h]) _

end Sys2Proof.Machine

namespace Sys2Proof.Proofs
open Sys2Proof.Machine

/-- Settles O59: the memories of the state that a step gives, by the lemma that says what it keeps. -/
theorem stepKeepsMemories : Obligations.StepKeepsMemories := by
  intro s t h hstep
  have hnext := nextWf_step (memoryWf_iff.1 h)
  rw [hstep] at hnext
  exact memoryWf_iff.2 hnext

end Sys2Proof.Proofs
end

section
/-! # The check bits of a memory word (R18)

Check bit k is the XOR of the data bits k, k+4, …, k+28, so it is linear in the data: the check bits of a changed word differ from the
stored ones exactly in the groups in which an odd number of bits changed. -/

namespace Sys2Proof.Machine

/-- The XOR of the data bits of group k. -/
theorem checkBit_eq (d : Word) (k : Nat) :
    checkBit d k = (d.getLsbD k ^^ d.getLsbD (k + 4) ^^ d.getLsbD (k + 8) ^^ d.getLsbD (k + 12) ^^ d.getLsbD (k + 16) ^^ d.getLsbD (k + 20)
      ^^ d.getLsbD (k + 24) ^^ d.getLsbD (k + 28)) := by
  simp [checkBit, bit_eq]

/-- A running XOR of sums is the sum of the running XORs. -/
theorem foldl_xor (f g : Nat → Bool) (l : List Nat) (a b : Bool) :
    l.foldl (fun acc j => acc ^^ (f j ^^ g j)) (a ^^ b) = (l.foldl (fun acc j => acc ^^ f j) a ^^ l.foldl (fun acc j => acc ^^ g j) b) := by
  induction l generalizing a b with
  | nil => rfl
  | cons j l ih =>
    have hswap : ((a ^^ b) ^^ (f j ^^ g j)) = ((a ^^ f j) ^^ (b ^^ g j)) := by rw [Bool.xor_assoc, Bool.xor_assoc, Bool.xor_left_comm b]
    simp only [List.foldl_cons, hswap, ih]

/-- A check bit is linear in the data. -/
theorem checkBit_xor (d e : Word) (k : Nat) : checkBit (d ^^^ e) k = (checkBit d k ^^ checkBit e k) := by
  simp only [checkBit, bit_eq, BitVec.getLsbD_xor]
  exact foldl_xor (fun j => d.getLsbD (k + j)) (fun j => e.getLsbD (k + j)) _ false false

/-- Bit k of four flags packed into a number. -/
theorem getLsbD_ofFlags : ∀ (f : Fin 4 → Bool) (k : Fin 4),
    (BitVec.ofNat 4 (b2n (f 0) + 2 * b2n (f 1) + 4 * b2n (f 2) + 8 * b2n (f 3))).getLsbD k = f k := by decide

/-- The check bits one by one. -/
theorem getLsbD_checkBits (d : Word) {k : Nat} (hk : k < 4) : (checkBits d).getLsbD k = checkBit d k :=
  getLsbD_ofFlags (fun i => checkBit d i) ⟨k, hk⟩

/-- A stored check bit of a memory word. -/
theorem getLsbD_memCheck (m : MemWord) {k : Nat} (hk : k < 4) : (memCheck m).getLsbD k = m.getLsbD (32 + k) := by
  simp [memCheck, hk]

/-- A data bit of a memory word. -/
theorem getLsbD_memData (m : MemWord) {i : Nat} (hi : i < 32) : (memData m).getLsbD i = m.getLsbD i := by
  simp [memData, hi]

/-- A stored check bit of a fresh word. -/
theorem getLsbD_memFresh_check (d : Word) {k : Nat} (hk : k < 4) : (memFresh d).getLsbD (32 + k) = checkBit d k := by
  rw [← getLsbD_memCheck _ hk, memCheck_memFresh, getLsbD_checkBits d hk]

/-- A word is in error when a stored check bit differs from the XOR over its group. -/
theorem memGood_eq_false_iff (m : MemWord) :
    memGood m = false ↔ ∃ k, k < 4 ∧ m.getLsbD (32 + k) ≠ checkBit (memData m) k := by
  have hgood : memGood m = true ↔ ∀ k, k < 4 → m.getLsbD (32 + k) = checkBit (memData m) k := by
    rw [memGood, beq_iff_eq]
    constructor
    · intro h k hk
      rw [← getLsbD_memCheck m hk, h, getLsbD_checkBits _ hk]
    · intro h
      refine BitVec.eq_of_getLsbD_eq fun k hk => ?_
      rw [getLsbD_memCheck m hk, h k hk, getLsbD_checkBits _ hk]
  rw [← Bool.not_eq_true, hgood]
  push Not
  rfl

/-- The number of members that satisfy a test is odd when the XOR of the tests is set. -/
theorem length_filter_odd_iff (f : Nat → Bool) (l : List Nat) :
    (l.filter f).length % 2 = 1 ↔ l.foldr (fun i acc => f i ^^ acc) false = true := by
  induction l with
  | nil => simp
  | cons a l ih => cases ha : f a <;> simp [ha, ← ih, ← Bool.not_eq_true]; omega

/-- The changed bits of group k: its check bit with its eight data bits. -/
theorem group_odd_iff (x : MemWord) {k : Nat} (hk : k < 4) :
    ([k, k + 4, k + 8, k + 12, k + 16, k + 20, k + 24, k + 28, k + 32].filter fun i => x.getLsbD i).length % 2 = 1
      ↔ x.getLsbD (32 + k) ≠ checkBit (memData x) k := by
  rw [length_filter_odd_iff, checkBit_eq, ← Bool.xor_iff_ne, Nat.add_comm 32 k, Bool.xor_comm (x.getLsbD (k + 32))]
  simp (disch := omega) only [getLsbD_memData, List.foldr_cons, List.foldr_nil, Bool.xor_false, Bool.xor_assoc]

/-- A stored check bit of a changed word against the XOR over its changed data: the unchanged parts cancel. -/
theorem changed_check_ne_iff (d : Word) (x : MemWord) {k : Nat} (hk : k < 4) :
    (memFresh d ^^^ x).getLsbD (32 + k) ≠ checkBit (memData (memFresh d ^^^ x)) k
      ↔ x.getLsbD (32 + k) ≠ checkBit (memData x) k := by
  have hdata : memData (memFresh d ^^^ x) = d ^^^ memData x := by
    rw [show memData (memFresh d ^^^ x) = memData (memFresh d) ^^^ memData x from BitVec.setWidth_xor, memData_memFresh]
  rw [BitVec.getLsbD_xor, getLsbD_memFresh_check d hk, hdata, checkBit_xor, Ne, Bool.xor_right_inj]

end Sys2Proof.Machine

namespace Sys2Proof.Proofs
open Sys2Proof.Machine

/-- Settles O21: check bits are linear in the data, so what a change leaves of the comparison is the parity of each group's changed bits. -/
theorem checkCode : Obligations.CheckCode := by
  intro d m x xor group
  have hxor : ∀ k v, xor k v = checkBit v k := fun k v => (checkBit_eq v k).symm
  simp only [hxor]
  refine ⟨memData_memFresh d, fun k hk => getLsbD_memFresh_check d hk, memGood_eq_false_iff m, ?_⟩
  rw [memGood_eq_false_iff]
  exact exists_congr fun k => and_congr_right fun hk => (changed_check_ne_iff d x hk).trans (group_odd_iff x hk).symm

end Sys2Proof.Proofs
end

section
/-! # Fields of one register, and a detector that no limit governs -/

namespace Sys2Proof.Machine

/-- A bit of a word with a field replaced. -/
theorem testBit_setFld {w : Word} {hi lo v : Nat} (h : lo ≤ hi) (h32 : hi < 32) (i : Nat) :
    (setFld w hi lo v).toNat.testBit i = if lo ≤ i ∧ i ≤ hi then v.testBit (i - lo) else w.toNat.testBit i := by
  have hp : 2 ^ (hi + 1) = 2 ^ lo * 2 ^ (hi + 1 - lo) := by rw [← Nat.pow_add]; congr 1; omega
  have hform : (setFld w hi lo v).toNat
      = 2 ^ lo * (2 ^ (hi + 1 - lo) * (w.toNat / 2 ^ (hi + 1)) + v % 2 ^ (hi + 1 - lo)) + w.toNat % 2 ^ lo := by
    rw [setFld_toNat h h32, Nat.mul_add, ← Nat.mul_assoc, ← hp]
    omega
  rw [hform, Nat.testBit_two_pow_mul_add _ (Nat.mod_lt _ (by positivity)),
    Nat.testBit_two_pow_mul_add _ (Nat.mod_lt _ (by positivity)), Nat.testBit_mod_two_pow, Nat.testBit_mod_two_pow,
    Nat.testBit_div_two_pow]
  by_cases hlo : i < lo
  · simp [hlo, show ¬lo ≤ i by omega]
  · by_cases hhi : i ≤ hi
    · simp [hlo, hhi, show lo ≤ i by omega, show i - lo < hi + 1 - lo by omega]
    · simp [hlo, hhi, show ¬i - lo < hi + 1 - lo by omega, show i - lo - (hi + 1 - lo) + (hi + 1) = i by omega]

/-- A bit of a field. -/
theorem testBit_fld (w : Word) (hi lo j : Nat) :
    (fld w hi lo).testBit j = (decide (j < hi + 1 - lo) && w.toNat.testBit (lo + j)) := by
  rw [fld, Nat.testBit_mod_two_pow, Nat.testBit_shiftRight]

/-- A field of a word after a field below or above it is replaced. -/
theorem fld_setFld_of_disjoint {w : Word} {hi lo hi' lo' v : Nat} (h : lo ≤ hi) (h32 : hi < 32) (hd : hi' < lo ∨ hi < lo') :
    fld (setFld w hi lo v) hi' lo' = fld w hi' lo' := by
  refine Nat.eq_of_testBit_eq fun j => ?_
  rw [testBit_fld, testBit_fld, testBit_setFld h h32]
  by_cases hj : j < hi' + 1 - lo'
  · rw [if_neg (by omega)]
  · simp [hj]

/-- Another field of the register whose field is written. -/
theorem regF_setF_of_disjoint {s : State} {o hi lo hi' lo' v : Nat} (h : lo ≤ hi) (h32 : hi < 32) (hd : hi' < lo ∨ hi < lo') :
    regF (setF s o hi lo v) o hi' lo' = regF s o hi' lo' := by
  simp [regF, setF, fld_setFld_of_disjoint h h32 hd]

/-- Fields of a register that two states share. -/
theorem regF_of_reg {s t : State} {o : Nat} (h : reg t o = reg s o) (hi lo : Nat) : regF t o hi lo = regF s o hi lo := by
  rw [regF, regF, h]

/-- A written field changes its register alone. -/
theorem sameRegs_setF (s : State) (o hi lo v : Nat) : SameRegs s (setF s o hi lo v) [o] := sameRegs_setReg s o _

/-- A region after a region is written. -/
theorem region_setRegion (s : State) (g h : Nat) (r : Region) : region (setRegion s g r) h = if h = g then r else region s h := by
  simp [region, setRegion]

/-- The registers after a region is written. -/
@[simp] theorem reg_setRegion (s : State) (g : Nat) (r : Region) (off : Nat) : reg (setRegion s g r) off = reg s off :=
  reg_of_regs (setRegion_regs s g r) off

@[simp] theorem regF_setRegion (s : State) (g : Nat) (r : Region) (off hi lo : Nat) :
    regF (setRegion s g r) off hi lo = regF s off hi lo := regF_of_reg (reg_setRegion s g r off) hi lo

/-- What a written field of a register leaves. -/
@[simp] theorem region_setF (s : State) (o hi lo v g : Nat) : region (setF s o hi lo v) g = region s g := rfl
@[simp] theorem setF_totals (s : State) (o hi lo v : Nat) : (setF s o hi lo v).totals = s.totals := rfl
@[simp] theorem setF_out (s : State) (o hi lo v : Nat) : (setF s o hi lo v).out = s.out := rfl
@[simp] theorem setF_integ (s : State) (o hi lo v : Nat) : (setF s o hi lo v).integ = s.integ := rfl
@[simp] theorem setF_vid (s : State) (o hi lo v : Nat) : (setF s o hi lo v).vid = s.vid := rfl

/-- A detector is counted, in its register and in its total. -/
def detCounted (s : State) (d : Nat) : State :=
  let s := setReg s (Reg.detCount d) (BitVec.ofNat 32 (satAdd (reg s (Reg.detCount d)).toNat 1 0xFFFFFFFF))
  { s with totals := sset 0 s.totals (32 * Reg.detCount d) ((sget 0 s.totals (32 * Reg.detCount d) + 1) % 2 ^ 32) }

/-- A detector that no limit governs is counted, and its event is written unless it is masked. -/
theorem fire_unlimited (s : State) (d unit d2 d3 : Nat) (inj : Bool) :
    fire s d unit d2 d3 inj none = if regB (detCounted s d) (Reg.detEvtMask (d / 32)) (d % 32) then detCounted s d
      else event (detCounted s d) 0 d unit d2 d3 inj (now s) := rfl

/-- A firing leaves the totals and the registers outside the rings as the count leaves them. -/
theorem fire_unlimited_frame (s : State) (d unit d2 d3 : Nat) (inj : Bool) :
    (fire s d unit d2 d3 inj none).totals = (detCounted s d).totals
      ∧ ∀ off, ¬ringReg off → reg (fire s d unit d2 d3 inj none) off = reg (detCounted s d) off := by
  rw [fire_unlimited]
  split
  · exact ⟨rfl, fun _ _ => rfl⟩
  · refine ⟨?_, fun off h => reg_event _ _ _ _ _ _ _ _ h⟩
    obtain ⟨r, g, o, q, f, h⟩ := event_frame (detCounted s d) 0 d unit d2 d3 inj (now s)
    rw [h]

/-- The regions do not change when a detector fires. -/
@[simp] theorem region_fire (s : State) (d unit d2 d3 : Nat) (inj : Bool) (l : Option Nat) (g : Nat) :
    region (fire s d unit d2 d3 inj l) g = region s g := by
  obtain ⟨r, rg, o, q, f, m, n, h⟩ := fireAt_frame s d unit d2 d3 inj l (now s)
  rw [fire, h]
  rfl

/-- Of the registers outside the rings, a firing changes the detector's count alone. -/
theorem reg_fire {s : State} {d unit d2 d3 : Nat} {inj : Bool} {off : Nat} (hring : ¬ringReg off) (hoff : off ≠ Reg.detCount d) :
    reg (fire s d unit d2 d3 inj none) off = reg s off := by
  rw [(fire_unlimited_frame s d unit d2 d3 inj).2 off hring]
  exact (reg_setReg s _ off _).trans (if_neg hoff)

/-- No count of a detector lies among the rings. -/
theorem not_ringReg_detCount (d : Nat) : ¬ringReg (Reg.detCount d) := by
  unfold ringReg Reg.detCount
  omega

/-- A detector that fires has fired once. -/
theorem firedOnce_fire (s : State) (d unit d2 d3 : Nat) (inj : Bool) : FiredOnce s (fire s d unit d2 d3 inj none) d := by
  obtain ⟨htot, hreg⟩ := fire_unlimited_frame s d unit d2 d3 inj
  constructor
  · simp [total, htot, detCounted]
  · have hcount : reg (detCounted s d) (Reg.detCount d) = BitVec.ofNat 32 (satAdd (reg s (Reg.detCount d)).toNat 1 0xFFFFFFFF) :=
      (reg_setReg s _ _ _).trans (if_pos rfl)
    have hlt := (reg s (Reg.detCount d)).isLt
    rw [hreg _ (not_ringReg_detCount d), hcount, BitVec.toNat_ofNat]
    unfold satAdd
    split <;> omega

/-- A count of firings starts from any state with the same count and total. -/
theorem firedOnce_of_same {s s' t : State} {d : Nat} (htot : s'.totals = s.totals)
    (hreg : reg s' (Reg.detCount d) = reg s (Reg.detCount d)) (h : FiredOnce s' t d) : FiredOnce s t d := by
  simpa only [FiredOnce, total, htot, hreg] using h

end Sys2Proof.Machine
end

section
/-! # The core voltage request and the monitors (R22 to R25, R347, R348) -/

namespace Sys2Proof.Machine

/-- TB runs only in a powered hub. -/
theorem powered_of_ticking {s : State} (h : ticking s = true) : powered s = true := by
  simp only [ticking, alive, Bool.and_eq_true] at h
  exact h.1.1

/-- The percentage that a window shows: a whole number, or one of its two neighbours as a free bit picks. -/
def occupancyShown (s : State) : Nat :=
  let n := 100 * s.vid.busy
  let whole := s.vid.online == 0 || n % s.vid.online == 0
  if s.vid.online == 0 then 0 else n / s.vid.online + b2n (if whole then false else (takeBit s).2)

/-- What a window asks for before automatic control is consulted. -/
def occupancyAsks (s : State) : Nat :=
  let n := 100 * s.vid.busy
  let hi := min 100 (regF s Reg.vidCtrl 30 24)
  let lo := min 100 (regF s Reg.vidCtrl 22 16)
  if hi * s.vid.online < n then 1 else if n < lo * s.vid.online || (s.vid.online == 0 && decide (0 < lo)) then 2 else 0

/-- What the end of a window gives. -/
theorem execOccupancyWindowEnd_due {s : State} (ht : ticking s = true) (hw : s.vid.windows < drainMs s / 10) :
    ∃ n, execOccupancyWindowEnd s = .next (setF
      { s with
        freeCount := n
        vid := { s.vid with
          busy := 0, online := 0, want := if vidMay s (occupancyAsks s) then occupancyAsks s else 0, windows := s.vid.windows + 1 } }
      Reg.vidStatus 15 9 (occupancyShown s)) := by
  unfold execOccupancyWindowEnd
  simp only [ht, hw, decide_true, Bool.and_self, Bool.not_true, Bool.false_eq_true, if_false]
  by_cases hwhole : (s.vid.online == 0 || 100 * s.vid.busy % s.vid.online == 0) = true
  · refine ⟨s.freeCount, ?_⟩
    simp only [hwhole, if_true, occupancyShown, occupancyAsks]
    rfl
  · refine ⟨s.freeCount + 1, ?_⟩
    simp only [hwhole, Bool.false_eq_true, if_false, occupancyShown, occupancyAsks]
    rfl

/-- The percentage shown is within one of the share of the window that was busy. -/
theorem occupancyShown_bounds {s : State} (h0 : s.vid.online ≠ 0) :
    s.vid.online * occupancyShown s ≤ 100 * s.vid.busy + s.vid.online
      ∧ 100 * s.vid.busy < s.vid.online * (occupancyShown s + 1) := by
  have hdiv := Nat.div_add_mod (100 * s.vid.busy) s.vid.online
  have hlt := Nat.mod_lt (100 * s.vid.busy) (Nat.pos_of_ne_zero h0)
  simp only [occupancyShown, beq_iff_eq, h0, if_false, Nat.mul_add, Nat.mul_one]
  cases hup : (if (s.vid.online == 0 || 100 * s.vid.busy % s.vid.online == 0) = true then false else (takeBit s).2) with
  | false => exact ⟨by simp [b2n]; omega, by simp [b2n]; omega⟩
  | true => exact ⟨by simp [b2n]; omega, by simp [b2n]; omega⟩

/-- A window that was busy no longer than it lasted shows a percentage that its field holds. -/
theorem occupancyShown_lt {s : State} (h0 : s.vid.online ≠ 0) (hb : s.vid.busy ≤ s.vid.online) : occupancyShown s < 128 := by
  have hle := (occupancyShown_bounds h0).1
  have : occupancyShown s ≤ 101 := Nat.le_of_mul_le_mul_left (by omega) (Nat.pos_of_ne_zero h0)
  omega

/-- Above the upper limit a window asks to raise the code. -/
theorem occupancyAsks_raise {s : State} (h : min 100 (regF s Reg.vidCtrl 30 24) * s.vid.online < 100 * s.vid.busy) :
    occupancyAsks s = 1 := by simp [occupancyAsks, h]

/-- Below the lower limit, and not above the upper one, a window asks to lower the code. -/
theorem occupancyAsks_lower {s : State} (hhi : 100 * s.vid.busy ≤ min 100 (regF s Reg.vidCtrl 30 24) * s.vid.online)
    (hlo : 100 * s.vid.busy < min 100 (regF s Reg.vidCtrl 22 16) * s.vid.online) : occupancyAsks s = 2 := by
  simp only [occupancyAsks, Nat.not_lt.2 hhi, hlo, if_false, decide_true, Bool.true_or, if_true]

/-- The end of a window shows its occupancy and keeps what it asks for, where automatic control may do it. -/
theorem occupancyWindowEnd_spec {s : State} (ht : ticking s = true) (hw : s.vid.windows < drainMs s / 10) :
    ∃ t, execOccupancyWindowEnd s = .next t ∧ t.vid.busy = 0 ∧ t.vid.online = 0 ∧ t.vid.windows = s.vid.windows + 1
      ∧ SameRegs s t [Reg.vidStatus] ∧ vidCode t = vidCode s ∧ regF t Reg.vidStatus 15 9 = occupancyShown s % 128
      ∧ t.vid.want = if vidMay s (occupancyAsks s) then occupancyAsks s else 0 := by
  obtain ⟨n, h⟩ := execOccupancyWindowEnd_due ht hw
  refine ⟨_, h, rfl, rfl, rfl, ?_, ?_, ?_, rfl⟩
  · exact sameRegs_setF _ _ _ _ _
  · exact regF_setF_of_disjoint (by decide) (by decide) (by decide)
  · exact regF_setF_same (by decide) (by decide)

/-- The code that a change asks for lies above 0 where it asks to lower it. -/
theorem vidCode_pos_of_vidWant {s : State} (h : vidWant s = 2) : 0 < vidCode s := by
  have htoward : ∀ target, vidToward (vidCode s) target = 2 → 0 < vidCode s := by
    intro target
    unfold vidToward
    split
    · simp
    · split
      · omega
      · simp
  unfold vidWant at h
  extract_lets cur least most at h
  split at h
  · exact htoward _ h
  · split at h
    · exact htoward _ h
    · split at h
      · simp at h
      · split at h
        · omega
        · split at h
          next hmay =>
            rw [h] at hmay
            simp only [vidMay, Bool.and_eq_true, Bool.or_eq_true, decide_eq_true_eq, Nat.reduceBEq, Bool.false_eq_true, false_and,
              true_and, false_or] at hmay
            omega
          · simp at h

/-- The code that VID_CODE_CHANGE gives. -/
def vidNext (s : State) : Nat := if vidWant s == 1 then vidCode s + 1 else vidCode s - 1

/-- The registers after VID_CODE_CHANGE: the code, and the number of changes. -/
def vidShown (s : State) : State :=
  setF (setF s Reg.vidStatus 3 0 (vidNext s)) Reg.vidStatus 31 16 (regF s Reg.vidStatus 31 16 + 1)

/-- VID_CODE_CHANGE where a change is asked for and free. -/
theorem execVidCodeChange_due {s : State} (hp : powered s = true) (hf : vidFree s = true) (hw : vidWant s ≠ 0) :
    ∃ n, execVidCodeChange s = .next { s with
      regs := (vidShown s).regs
      totals := n
      vid := { s.vid with committed := [], changed := true, changeTb := s.time.tb, want := 0 }
      out := s.out ++ [.vid (vidNext s)] } := by
  have hw' : (vidWant s == 0) = false := by simpa using hw
  unfold execVidCodeChange
  simp only [hp, hf, hw', Bool.not_true, Bool.or_self, Bool.false_eq_true, if_false]
  exact ⟨_, rfl⟩

/-- What VID_CODE_CHANGE gives where a change is asked for and free. -/
theorem vidCodeChange_spec {s : State} (hp : powered s = true) (hf : vidFree s = true) (hw : vidWant s ≠ 0) :
    ∃ t, execVidCodeChange s = .next t ∧ vidCode t = vidNext s % 16 ∧ t.out = s.out ++ [.vid (vidNext s)] ∧ t.vid.committed = []
      ∧ SameRegs s t [Reg.vidStatus] := by
  obtain ⟨n, h⟩ := execVidCodeChange_due hp hf hw
  have hcode : vidCode (vidShown s) = vidNext s % 16 :=
    (regF_setF_of_disjoint (s := setF s Reg.vidStatus 3 0 (vidNext s)) (by decide) (by decide) (by decide)).trans
      (regF_setF_same (by decide) (by decide))
  have hsame : SameRegs s (vidShown s) [Reg.vidStatus] := fun off hoff =>
    (sameRegs_setF (setF s Reg.vidStatus 3 0 (vidNext s)) Reg.vidStatus 31 16 _ off hoff).trans
      (sameRegs_setF s Reg.vidStatus 3 0 _ off hoff)
  exact ⟨_, h, hcode, rfl, rfl, hsame⟩

/-- The state in which a temperature sample has been kept, with no detector yet fired. -/
def tempSampled (s : State) (g : Nat) (temp : BitVec 16) : State :=
  let hi := 8 * sext 16 (regF s Reg.monTemp 31 16)
  let lo := 8 * sext 16 (regF s Reg.monTemp 15 0)
  let r := region s g
  setRegion (setF s (Reg.monRegion g) 15 0 temp.toNat) g { r with
    temp := temp, tempHi := if decide (hi < temp.toInt) then true else if temp.toInt ≤ hi - 40 then false else r.tempHi,
    tempLo := if decide (temp.toInt < lo) then true else if lo + 40 ≤ temp.toInt then false else r.tempLo }

/-- What a temperature sample gives while nothing is injected. -/
theorem execTempMonitorSample_quiet {s : State} (ht : ticking s = true) (hi : s.integ.arms = []) (g : Fin 8) (temp : BitVec 16) :
    let above := decide (8 * sext 16 (regF s Reg.monTemp 31 16) < temp.toInt)
    let below := decide (temp.toInt < 8 * sext 16 (regF s Reg.monTemp 15 0))
    let t := tempSampled s g temp
    execTempMonitorSample g temp s = .next (
      if above && !(region s g).tempHi then fire t 0x68 (unitOf 8 g) temp.toNat 1 false none
      else if below && !(region s g).tempLo then fire t 0x68 (unitOf 8 g) temp.toNat 0 false none else t) := by
  intro above below t
  unfold execTempMonitorSample
  simp only [ht, Bool.not_true, Bool.false_eq_true, if_false, injected_none hi]
  rfl

/-- A register other than the region's own after a temperature sample is kept. -/
theorem reg_tempSampled {s : State} {g : Nat} {temp : BitVec 16} {off : Nat} (h : off ≠ Reg.monRegion g) :
    reg (tempSampled s g temp) off = reg s off := by
  rw [tempSampled, reg_setRegion, reg_setF_other h]

/-- The regions after a temperature sample is kept. -/
theorem region_tempSampled_other {s : State} {g h : Nat} {temp : BitVec 16} (hne : h ≠ g) :
    region (tempSampled s g temp) h = region s h := by
  rw [tempSampled, region_setRegion, if_neg hne, region_setF]

/-- The sample that a region shows. -/
theorem regF_tempSampled (s : State) (g : Nat) (temp : BitVec 16) :
    regF (tempSampled s g temp) (Reg.monRegion g) 15 0 = temp.toNat := by
  rw [tempSampled, regF_setRegion, regF_setF_same (by decide) (by decide)]
  exact Nat.mod_eq_of_lt temp.isLt

/-- A sample above the upper limit is noted. -/
theorem tempHi_tempSampled_above {s : State} {g : Nat} {temp : BitVec 16} (h : 8 * sext 16 (regF s Reg.monTemp 31 16) < temp.toInt) :
    (region (tempSampled s g temp) g).tempHi = true := by
  rw [tempSampled, region_setRegion, if_pos rfl]
  simp only [h, decide_true, if_true]

/-- The note of a sample above the limit ends with a sample 5 °C inside it. -/
theorem tempHi_tempSampled_inside {s : State} {g : Nat} {temp : BitVec 16}
    (h : temp.toInt ≤ 8 * sext 16 (regF s Reg.monTemp 31 16) - 40) : (region (tempSampled s g temp) g).tempHi = false := by
  have hna : ¬8 * sext 16 (regF s Reg.monTemp 31 16) < temp.toInt := by omega
  rw [tempSampled, region_setRegion, if_pos rfl]
  simp only [hna, h, decide_false, Bool.false_eq_true, if_true, if_false]

/-- The register of a region's samples is neither among the rings nor a detector's count. -/
theorem monRegion_apart (g : Fin 8) : ¬ringReg (Reg.monRegion g) ∧ ∀ d, d < 128 → Reg.monRegion g ≠ Reg.detCount d := by
  unfold ringReg Reg.monRegion Reg.detCount
  exact ⟨by omega, by omega⟩

/-- A sample kept, then perhaps a detector fired: the region and its register stay as the sample left them. -/
structure Reported (k t : State) (g : Nat) : Prop where
  region : ∀ h, region t h = region k h
  shown : reg t (Reg.monRegion g) = reg k (Reg.monRegion g)

/-- A sample with which no detector fires. -/
theorem reported_self (k : State) (g : Nat) : Reported k k g := ⟨fun _ => rfl, rfl⟩

/-- A sample with which a detector fires. -/
theorem reported_fire (k : State) (g : Fin 8) {d : Nat} (hd : d < 128) (unit d2 d3 : Nat) (inj : Bool) :
    Reported k (fire k d unit d2 d3 inj none) g :=
  ⟨region_fire k d unit d2 d3 inj none, reg_fire (monRegion_apart g).1 ((monRegion_apart g).2 d hd)⟩

/-- What a temperature sample gives while nothing is injected. -/
theorem tempMonitorSample_spec {s : State} (ht : ticking s = true) (hi : s.integ.arms = []) (g : Fin 8) (temp : BitVec 16) :
    ∃ t, execTempMonitorSample g temp s = .next t ∧ Reported (tempSampled s g temp) t g
      ∧ (8 * sext 16 (regF s Reg.monTemp 31 16) < temp.toInt → (region s g).tempHi = false → FiredOnce (tempSampled s g temp) t 0x68)
      ∧ (8 * sext 16 (regF s Reg.monTemp 15 0) ≤ temp.toInt → temp.toInt ≤ 8 * sext 16 (regF s Reg.monTemp 31 16) →
        t = tempSampled s g temp) := by
  refine ⟨_, execTempMonitorSample_quiet ht hi g temp, ?_, ?_, ?_⟩
  · split
    · exact reported_fire _ g (by decide) _ _ _ _
    · split
      · exact reported_fire _ g (by decide) _ _ _ _
      · exact reported_self _ _
  · intro habove hfirst
    rw [if_pos (by simp [habove, hfirst])]
    exact firedOnce_fire _ _ _ _ _ _
  · intro hlo hhi
    rw [if_neg (by simp; omega), if_neg (by simp; omega)]

/-- The state in which a VCORE sample has been kept. -/
def vcoreKept (s : State) (g : Nat) (mv : BitVec 16) : State :=
  let s := setF s (Reg.monRegion g) 31 16 mv.toNat
  setRegion s g { region s g with mv := mv }

/-- A register other than the region's own after a VCORE sample is kept. -/
theorem reg_vcoreKept {s : State} {g : Nat} {mv : BitVec 16} {off : Nat} (h : off ≠ Reg.monRegion g) :
    reg (vcoreKept s g mv) off = reg s off := by
  rw [vcoreKept, reg_setRegion, reg_setF_other h]

/-- What a VCORE sample that is kept leaves. -/
theorem vcoreKept_integ (s : State) (g : Nat) (mv : BitVec 16) : (vcoreKept s g mv).integ = s.integ := by
  rw [vcoreKept, setRegion_integ, setF_integ]
theorem vcoreKept_vid (s : State) (g : Nat) (mv : BitVec 16) : (vcoreKept s g mv).vid = s.vid := by
  rw [vcoreKept, setRegion_vid, setF_vid]
theorem vcoreKept_totals (s : State) (g : Nat) (mv : BitVec 16) : (vcoreKept s g mv).totals = s.totals := by
  rw [vcoreKept, setRegion_totals, setF_totals]
theorem vcoreKept_out (s : State) (g : Nat) (mv : BitVec 16) : (vcoreKept s g mv).out = s.out := by
  rw [vcoreKept, setRegion_out, setF_out]

/-- The region after a VCORE sample is kept. -/
theorem region_vcoreKept (s : State) (g : Nat) (mv : BitVec 16) : region (vcoreKept s g mv) g = { region s g with mv := mv } := by
  rw [vcoreKept, region_setRegion, if_pos rfl, region_setF]

/-- The side of the band on which a sample lies, and whether it is the second one there (2) or the first (1); 0 inside the band. -/
def vcoreSide (s : State) (g : Nat) (mv : BitVec 16) : Int :=
  let above := decide (vidMv s + max 1 (regF s Reg.monVcore 31 16) < mv.toNat)
  let below := decide (mv.toNat + max 1 (regF s Reg.monVcore 15 0) < vidMv s)
  if above then (if 0 < (region s g).vcoreOut then 2 else 1) else if below then (if (region s g).vcoreOut < 0 then -2 else -1) else 0

/-- The detector is due: a second consecutive sample on one side, not yet reported. -/
def vcoreDue (s : State) (g : Nat) (mv : BitVec 16) : Bool :=
  (vcoreSide s g mv == 2 || vcoreSide s g mv == -2) && !(region s g).vcoreSaid

/-- The state in which a VCORE sample has been kept and judged, with no detector yet fired. -/
def vcoreJudged (s : State) (g : Nat) (mv : BitVec 16) : State :=
  let n := vcoreSide s g mv
  setRegion s g { region s g with vcoreOut := n, vcoreSaid := n != 0 && ((region s g).vcoreSaid || vcoreDue s g mv) }

/-- What a VCORE sample gives while nothing is injected and the code has not changed. -/
theorem execVcoreMonitorSample_quiet {s : State} (ht : ticking s = true) (hi : s.integ.arms = []) (hc : s.vid.changed = false)
    (g : Fin 8) (mv : BitVec 16) :
    execVcoreMonitorSample g mv s = .next (
      if vcoreDue (vcoreKept s g mv) g mv then
        fire (vcoreJudged (vcoreKept s g mv) g mv) 0x69 (unitOf 8 g) (mv.toNat * 65536 + vidMv (vcoreKept s g mv)) g false none
      else vcoreJudged (vcoreKept s g mv) g mv) := by
  have hk : (vcoreKept s g mv).integ.arms = [] ∧ (vcoreKept s g mv).vid.changed = false := by
    rw [vcoreKept_integ, vcoreKept_vid]
    exact ⟨hi, hc⟩
  unfold execVcoreMonitorSample
  extract_lets i written r kept
  have hkept : kept = vcoreKept s g mv := rfl
  clear_value kept
  subst hkept
  generalize vcoreKept s g mv = k at *
  simp only [ht, hk.2, injected_none hk.1, Bool.not_true, Bool.false_and, Bool.false_eq_true, if_false, Bool.or_false]
  rfl

/-- A sample that is kept changes no judgement: the registers of the band and of the code hold, and so does what was judged before. -/
theorem vcoreSide_vcoreKept (s : State) (g : Fin 8) (mv : BitVec 16) : vcoreSide (vcoreKept s g mv) g mv = vcoreSide s g mv := by
  have hband : reg (vcoreKept s g mv) Reg.monVcore = reg s Reg.monVcore :=
    reg_vcoreKept (by unfold Reg.monVcore Reg.monRegion; omega)
  have hcode : reg (vcoreKept s g mv) Reg.vidStatus = reg s Reg.vidStatus :=
    reg_vcoreKept (by unfold Reg.vidStatus Reg.monRegion; omega)
  unfold vcoreSide vidMv
  rw [regF_of_reg hband, regF_of_reg hband, regF_of_reg hcode, region_vcoreKept]

/-- A sample that is kept does not change whether the detector is due. -/
theorem vcoreDue_vcoreKept (s : State) (g : Fin 8) (mv : BitVec 16) : vcoreDue (vcoreKept s g mv) g mv = vcoreDue s g mv := by
  rw [vcoreDue, vcoreDue, vcoreSide_vcoreKept, region_vcoreKept]

/-- The region after a VCORE sample is judged. -/
theorem region_vcoreJudged (s : State) (g : Fin 8) (mv : BitVec 16) :
    region (vcoreJudged (vcoreKept s g mv) g mv) g = { region s g with
      mv := mv
      vcoreOut := vcoreSide s g mv
      vcoreSaid := vcoreSide s g mv != 0 && ((region s g).vcoreSaid || vcoreDue s g mv) } := by
  rw [vcoreJudged, region_setRegion, if_pos rfl, vcoreSide_vcoreKept, vcoreDue_vcoreKept, region_vcoreKept]

/-- The sample that a region shows. -/
theorem regF_vcoreJudged (s : State) (g : Nat) (mv : BitVec 16) :
    regF (vcoreJudged (vcoreKept s g mv) g mv) (Reg.monRegion g) 31 16 = mv.toNat := by
  rw [vcoreJudged, regF_setRegion, vcoreKept, regF_setRegion, regF_setF_same (by decide) (by decide)]
  exact Nat.mod_eq_of_lt mv.isLt

/-- What a VCORE sample gives while nothing is injected and the code has not changed. -/
theorem vcoreMonitorSample_spec {s : State} (ht : ticking s = true) (hi : s.integ.arms = []) (hc : s.vid.changed = false)
    (g : Fin 8) (mv : BitVec 16) :
    ∃ t, execVcoreMonitorSample g mv s = .next t ∧ Reported (vcoreJudged (vcoreKept s g mv) g mv) t g
      ∧ (vcoreDue s g mv = true → FiredOnce s t 0x69) ∧ (vcoreDue s g mv = false → t.out = s.out) := by
  refine ⟨_, execVcoreMonitorSample_quiet ht hi hc g mv, ?_, ?_, ?_⟩
  · split
    · exact reported_fire _ g (by decide) _ _ _ _
    · exact reported_self _ _
  · intro hdue
    rw [vcoreDue_vcoreKept, if_pos hdue]
    refine firedOnce_of_same ?_ ?_ (firedOnce_fire _ _ _ _ _ _)
    · rw [vcoreJudged, setRegion_totals, vcoreKept_totals]
    · rw [vcoreJudged, reg_setRegion]
      exact reg_vcoreKept ((monRegion_apart g).2 _ (by decide)).symm
  · intro hdue
    rw [vcoreDue_vcoreKept, hdue, if_neg Bool.false_ne_true, vcoreJudged, setRegion_out, vcoreKept_out]

/-- Inside the band a sample lies on no side. -/
theorem vcoreSide_inside {s : State} {g : Nat} {mv : BitVec 16} (ha : ¬vidMv s + max 1 (regF s Reg.monVcore 31 16) < mv.toNat)
    (hb : ¬mv.toNat + max 1 (regF s Reg.monVcore 15 0) < vidMv s) : vcoreSide s g mv = 0 := by
  simp only [vcoreSide, ha, hb, decide_false, Bool.false_eq_true, if_false]

/-- Above the band a sample is the second one there where the sample before it lay there too. -/
theorem vcoreSide_above {s : State} {g : Nat} {mv : BitVec 16} (ha : vidMv s + max 1 (regF s Reg.monVcore 31 16) < mv.toNat) :
    vcoreSide s g mv = if 0 < (region s g).vcoreOut then 2 else 1 := by
  simp only [vcoreSide, ha, decide_true, if_true]

end Sys2Proof.Machine

namespace Sys2Proof.Proofs
open Sys2Proof.Machine

/-- Settles O47: a lemma for each command says what it gives, and the detectors' lemmas say what one firing adds. -/
theorem voltageAndMonitors : Obligations.VoltageAndMonitors := by
  intro s ht
  refine ⟨?window, ?change, ?held, ?temp, ?vcore⟩
  case window =>
    intro hw
    obtain ⟨t, hexec, hbusy, honline, hwindows, hsame, hcode, hocc, hwant⟩ := occupancyWindowEnd_spec ht hw
    refine ⟨t, hexec, hbusy, honline, hwindows, hsame, hcode, fun h0 hb => ?_⟩
    rw [hocc, Nat.mod_eq_of_lt (occupancyShown_lt h0 hb)]
    obtain ⟨hle, hlt⟩ := occupancyShown_bounds h0
    refine ⟨hle, hlt, fun habove => ?_, fun hhi hlo => ?_⟩
    · rw [hwant, occupancyAsks_raise habove]
    · rw [hwant, occupancyAsks_lower hhi hlo]
  case change =>
    intro hfree hwant hmax
    obtain ⟨t, hexec, hcode, hout, hcommitted, hsame⟩ := vidCodeChange_spec (powered_of_ticking ht) hfree hwant
    have hnext : vidCode t = vidNext s := by
      rw [hcode, Nat.mod_eq_of_lt]
      unfold vidNext
      split <;> omega
    refine ⟨t, hexec, fun h1 => ?_, fun h2 => ?_, by rw [hout, hnext], hcommitted, hsame⟩
    · rw [hnext, vidNext, h1]
      rfl
    · have := vidCode_pos_of_vidWant h2
      rw [hnext, vidNext, h2]
      exact Nat.sub_add_cancel this
  case held =>
    intro hfree
    show execVidCodeChange s = _
    simp [execVidCodeChange, hfree]
  case temp =>
    intro g temp harms hi lo
    obtain ⟨t, hexec, hrep, hfire, hquiet⟩ := tempMonitorSample_spec ht harms g temp
    refine ⟨t, hexec, ?_, ?_, ?_, ?_, ?_⟩
    · rw [regF_of_reg hrep.shown, regF_tempSampled]
    · exact fun h hne => (hrep.region h).trans (region_tempSampled_other hne)
    · intro habove
      refine ⟨by rw [hrep.region, tempHi_tempSampled_above habove], fun hfirst => ?_⟩
      have hcount := reg_tempSampled (s := s) (temp := temp) ((monRegion_apart g).2 0x68 (by decide)).symm
      exact firedOnce_of_same (s' := tempSampled s g temp) rfl hcount (hfire habove hfirst)
    · intro hlo hhi
      rw [hquiet hlo hhi]
      exact ⟨rfl, fun off hoff => reg_tempSampled (by simpa using hoff)⟩
    · intro hin
      rw [hrep.region, tempHi_tempSampled_inside hin]
  case vcore =>
    intro g mv harms hchanged req above below
    obtain ⟨t, hexec, hrep, hfire, hquiet⟩ := vcoreMonitorSample_spec ht harms hchanged g mv
    have hregion := (hrep.region g).trans (region_vcoreJudged s g mv)
    refine ⟨t, hexec, ?_, by rw [hregion], ?_, ?_, ?_⟩
    · rw [regF_of_reg hrep.shown, regF_vcoreJudged]
    · intro ha hb
      have hside := vcoreSide_inside (g := g) ha hb
      exact ⟨by rw [hregion, ← hside], hquiet (by simp [vcoreDue, hside])⟩
    · intro ha hout hsaid
      have hside : vcoreSide s g mv = 2 := by rw [vcoreSide_above ha, if_pos hout]
      have hdue : vcoreDue s g mv = true := by simp [vcoreDue, hside, hsaid]
      exact ⟨hfire hdue, by simp [hregion, hside, hdue]⟩
    · intro ha hout
      have hside : vcoreSide s g mv = 1 := by rw [vcoreSide_above ha, if_neg (by omega)]
      exact ⟨by rw [hregion, ← hside], hquiet (by simp [vcoreDue, hside])⟩

end Sys2Proof.Proofs
end

section
/-! # Entries of rings (R50, R57) -/

namespace Sys2Proof.Machine

/-! ## What a ring shows -/

/-- A ring after a ring is written. -/
@[simp] theorem ring_setRing (s : State) (r n : Nat) (v : Ring) : ring (setRing s r v) n = if n = r then v else ring s n := by
  simp [ring]

@[simp] theorem ring_setF (s : State) (o hi lo v r : Nat) : ring (setF s o hi lo v) r = ring s r := rfl
@[simp] theorem ring_dmaWrite (s : State) (a : Nat) (bs : List Byte) (r : Nat) : ring (dmaWrite s a bs) r = ring s r := rfl
@[simp] theorem ringTail_dmaWrite (s : State) (a : Nat) (bs : List Byte) (r : Nat) : ringTail (dmaWrite s a bs) r = ringTail s r := rfl
@[simp] theorem ringUnits_dmaWrite (s : State) (a : Nat) (bs : List Byte) (r : Nat) : ringUnits (dmaWrite s a bs) r = ringUnits s r := rfl

/-- The units of a ring of an unchanged size. -/
theorem ringUnits_setRing (s : State) (r : Nat) {v : Ring} (h : v.size = (ring s r).size) :
    ringUnits (setRing s r v) r = ringUnits s r := by
  simp [ringUnits, h]

/-! ## An entry -/

/-- The hub after the two writes of an entry: its bytes behind the PHASE word, then that word (R57). -/
def ringSent (s : State) (r : Nat) (words : List Word) : State :=
  let a := (ring s r).base + ringTail s r * ringUnit r
  dmaWrite (dmaWrite s (a + 4) (wordsBytes (words.drop 1))) a (wordBytes (setFld (words.headD 0) 31 31 (b2n (ring s r).phase)))

/-- The phase of a ring behind an entry: it toggles where the entry reaches the end (R57). -/
def ringPhased (s : State) (r units : Nat) : Ring :=
  { ring s r with phase := if ringUnits s r ≤ ringTail s r + units then !(ring s r).phase else (ring s r).phase }

/-- An entry is sent, its ring takes its phase, and TAIL advances modulo the size (R50, R57). -/
theorem ringWrite_eq (s : State) (r units : Nat) (words : List Word) :
    ringWrite s r units words =
      setF (setRing (ringSent s r words) r (ringPhased s r units)) (ringOff r + 16) 15 0 ((ringTail s r + units) % ringUnits s r) := by
  have hunits : ringUnits (setRing (ringSent s r words) r (ringPhased s r units)) r = ringUnits s r := ringUnits_setRing _ r rfl
  rw [← hunits]
  rfl

/-- TAIL behind an entry (R50). -/
theorem ringTail_ringWrite {s : State} {r : Nat} (units : Nat) (words : List Word) (hsize : (ring s r).size ≤ 16) :
    ringTail (ringWrite s r units words) r = (ringTail s r + units) % ringUnits s r := by
  have hunits : ringUnits s r ≤ 2 ^ 16 := Nat.pow_le_pow_right (by decide) hsize
  have hlt : (ringTail s r + units) % ringUnits s r < 2 ^ 16 := (Nat.mod_lt _ (Nat.two_pow_pos _)).trans_le hunits
  rw [ringWrite_eq, ringTail, regF_setF_same (by decide) (by decide)]
  exact Nat.mod_eq_of_lt hlt

/-- The ring behind an entry. -/
theorem ring_ringWrite (s : State) (r units : Nat) (words : List Word) :
    ring (ringWrite s r units words) r = ringPhased s r units := by
  simp [ringWrite_eq]

/-- Of the registers an entry changes TAIL alone. -/
theorem sameRegs_ringWrite (s : State) (r units : Nat) (words : List Word) : SameRegs s (ringWrite s r units words) [ringOff r + 16] := by
  rw [ringWrite_eq]
  exact sameRegs_setF (setRing (ringSent s r words) r _) _ _ _ _

/-- TAIL of an entry that fits returns to 0 exactly where the entry ends at the end of the ring. -/
theorem tail_advance {tail units size : Nat} (hroom : tail + units ≤ size) :
    (tail + units) % size = if tail + units = size then 0 else tail + units := by
  split
  · rename_i h
    rw [h, Nat.mod_self]
  · exact Nat.mod_eq_of_lt (by omega)

end Sys2Proof.Machine

namespace Sys2Proof.Proofs
open Sys2Proof.Machine

/-- Settles O23: the two writes, TAIL and the phase of an entry, each by its lemma. -/
theorem ringEntries : Obligations.RingEntries := by
  unfold Obligations.RingEntries
  intro s r units w ws hroom _ hsize
  dsimp only
  refine ⟨⟨_, rfl, rfl⟩, ?_, ?_, sameRegs_ringWrite s r units (w :: ws), rfl⟩
  · rw [ringTail_ringWrite _ _ hsize, tail_advance hroom]
    simp
  · have hwrap : ringUnits s r ≤ ringTail s r + units ↔ ringTail s r + units = ringUnits s r := by omega
    rw [ring_ringWrite, ringPhased]
    by_cases h : ringTail s r + units = ringUnits s r <;> simp [hwrap, h]

end Sys2Proof.Proofs
end

section
/-! # The submission windows (R38 to R43, R47)

Loading a window, the checks of a read of CMD_ACCEPT in their order, and the slot and handle of an accepted command. -/

namespace Sys2Proof.Machine

/-! ## The dispatch -/

theorem exec_cmdAccept (w : Fin 8) (s : State) : exec (.cmdAccept w) s = execCmdAccept w s := rfl

theorem exec_deviceReset (w : Fin 8) (s : State) : exec (.deviceReset w) s = execDeviceReset w s := rfl

/-! ## Loading a window -/

/-- The buffer after words are written to it from word k of window w on. -/
theorem sget_windowPut (s : State) (w k : Nat) (data : List Word) (i : Nat) :
    sget 0 (windowPut s w k data).host.cmdBuf i =
      if 16 * w + k ≤ i ∧ i < 16 * w + k + data.length then data.getD (i - (16 * w + k)) 0 else sget 0 s.host.cmdBuf i := by
  induction data generalizing s k with
  | nil => simp [windowPut, show ¬(16 * w + k ≤ i ∧ i < 16 * w + k) by omega]
  | cons d ds ih =>
    rw [windowPut, ih]
    by_cases hfirst : i = 16 * w + k
    · simp [hfirst]
    · by_cases hin : 16 * w + (k + 1) ≤ i ∧ i < 16 * w + (k + 1) + ds.length
      · have hidx : i - (16 * w + k) = i - (16 * w + (k + 1)) + 1 := by omega
        rw [if_pos hin, if_pos (by simp only [List.length_cons]; omega), hidx, List.getD_cons_succ]
      · rw [if_neg hin, if_neg (by simp only [List.length_cons]; omega)]
        simp [hfirst]

/-- Words written to a buffer change the buffers alone. -/
theorem windowPut_frame (s : State) (w k : Nat) (data : List Word) :
    windowPut s w k data = { s with host := { s.host with cmdBuf := (windowPut s w k data).host.cmdBuf } } := by
  induction data generalizing s k with
  | nil => rfl
  | cons d ds ih =>
    rw [windowPut]
    exact ih _ (k + 1)

/-- Loading a window changes the buffers and the windows that are loaded. -/
theorem windowLoad_frame (s : State) (w k : Nat) (data : List Word) :
    windowLoad s w k data =
      { s with
        host := { s.host with cmdBuf := (windowPut s w k data).host.cmdBuf, loaded := (windowLoad s w k data).host.loaded } } := by
  unfold windowLoad
  rw [windowPut_frame]

/-- A window that is written is loaded (R38). -/
theorem mem_loaded_windowLoad (s : State) (w k : Nat) (data : List Word) : w ∈ (windowLoad s w k data).host.loaded := by
  unfold windowLoad
  dsimp only
  split
  · rename_i h
    simpa using h
  · simp

/-! ## A window that is read -/

/-- Word k of the command in a window. -/
def windowWord (s : State) (w k : Nat) : Word := (windowWords s w).getD k 0

theorem windowWord_eq (s : State) (w : Nat) {k : Nat} (hk : k < 16) : windowWord s w k = sget 0 s.host.cmdBuf (16 * w + k) := by
  simp [windowWord, windowWords, hk]

theorem windowWords_headD (s : State) (w : Nat) : (windowWords s w).headD 0 = windowWord s w 0 := rfl

/-- What a read of CMD_ACCEPT leaves of the buffers: its window is 0, the others hold their words. -/
theorem sget_windowClear (s : State) (w i : Nat) :
    sget 0 (windowClear s w).host.cmdBuf i = if i / 16 = w then 0 else sget 0 s.host.cmdBuf i := by
  have h := sget_filter_key (0 : Word) (fun i => i / 16 != w) s.host.cmdBuf i
  by_cases hw : i / 16 = w <;> simp_all [windowClear]

/-- A window that is read is cleared, and no other (R38). -/
def WindowCleared (s t : State) (w : Nat) : Prop :=
  windowWords t w = List.replicate 16 0 ∧ w ∉ t.host.loaded
    ∧ ∀ i : Nat, i / 16 ≠ w → sget 0 t.host.cmdBuf i = sget 0 s.host.cmdBuf i

theorem windowCleared_windowClear (s : State) (w : Nat) : WindowCleared s (windowClear s w) w := by
  refine ⟨List.eq_replicate_iff.2 ⟨by simp [windowWords], fun v hv => ?_⟩, ?_, fun i hi => ?_⟩
  · obtain ⟨k, hk, rfl⟩ := List.mem_map.1 hv
    rw [sget_windowClear, if_pos (by have := List.mem_range.1 hk; omega)]
  · simp [windowClear]
  · rw [sget_windowClear, if_neg hi]

/-- What a further change of the hub leaves of a cleared window, where it keeps the buffers and the loaded windows. -/
theorem WindowCleared.congr {s t u : State} {w : Nat} (h : WindowCleared s t w) (hb : u.host.cmdBuf = t.host.cmdBuf)
    (hl : u.host.loaded = t.host.loaded) : WindowCleared s u w := by
  simpa only [WindowCleared, windowWords, hb, hl] using h

/-! ## The checks (R43) -/

/-- The checks in their order. -/
theorem refusal_eq (s : State) (w : Nat) :
    refusal s w =
      if !s.host.loaded.contains w then 5 else if notEnabled s (fld (windowWord s w 0) 7 0) then 4
      else if !catalogue.contains (fld (windowWord s w 0) 7 0) then 2 else if malformed (windowWord s w) then 3
      else if bootBusy s && bootRefused (windowWord s w) then 6
      else if fld (windowWord s w 0) 7 0 != 0x01 && s.host.free.isEmpty then 1 else 0 := rfl

/-- A window that was not written since its last read holds no command. -/
theorem refusal_empty {s : State} {w : Nat} (h : w ∉ s.host.loaded) : refusal s w = 5 := by simp [refusal_eq, h]

/-- Commands are not accepted while the host interface or the completion ring is disabled, nor, but for DEVICE_RESET, in a stopped hub. -/
theorem notEnabled_iff {s : State} {op : Nat} :
    notEnabled s op = true ↔ regB s Reg.hostCtrl 0 = false ∨ ringEn s 0 = false ∨ (s.integ.stopped = true ∧ op ≠ 0x01) := by
  simp [notEnabled, or_assoc]

/-- The commands that the boot sequencer keeps out. -/
theorem bootRefused_iff {g : Nat → Word} :
    bootRefused g = true ↔ fld (g 0) 7 0 = 0x10 ∨ fld (g 0) 7 0 = 0x11 ∨ (fld (g 0) 7 0 = 0x12 ∧ fld (g 1) 7 0 < 3)
      ∨ fld (g 0) 7 0 = 0x80 ∨ fld (g 0) 7 0 = 0x81 ∨ fld (g 0) 7 0 = 0x82 := by
  have hflash : 0x80 ≤ fld (g 0) 7 0 ∧ fld (g 0) 7 0 ≤ 0x82
      ↔ fld (g 0) 7 0 = 0x80 ∨ fld (g 0) 7 0 = 0x81 ∨ fld (g 0) 7 0 = 0x82 := by omega
  simp [bootRefused, or_assoc, hflash]

section Checked
variable {s : State} {w : Nat} (hl : w ∈ s.host.loaded)
include hl

theorem refusal_notEnabled (h : notEnabled s (fld (windowWord s w 0) 7 0) = true) : refusal s w = 4 := by
  rw [refusal_eq, List.contains_iff_mem.2 hl, h]
  rfl

variable (hen : notEnabled s (fld (windowWord s w 0) 7 0) = false)
include hen

theorem refusal_badOpcode (h : fld (windowWord s w 0) 7 0 ∉ catalogue) : refusal s w = 2 := by
  have hno : catalogue.contains (fld (windowWord s w 0) 7 0) = false := by simpa using h
  rw [refusal_eq, List.contains_iff_mem.2 hl, hen, hno]
  rfl

variable (hop : fld (windowWord s w 0) 7 0 ∈ catalogue)
include hop

theorem refusal_malformed (h : malformed (windowWord s w) = true) : refusal s w = 3 := by
  rw [refusal_eq, List.contains_iff_mem.2 hl, hen, List.contains_iff_mem.2 hop, h]
  rfl

/-- The checks behind the encoding: the boot sequencer, then a free slot. -/
theorem refusal_wellFormed (h : malformed (windowWord s w) = false) :
    refusal s w = if bootBusy s && bootRefused (windowWord s w) then 6
      else if fld (windowWord s w 0) 7 0 != 0x01 && s.host.free.isEmpty then 1 else 0 := by
  rw [refusal_eq, List.contains_iff_mem.2 hl, hen, List.contains_iff_mem.2 hop, h]
  rfl

end Checked

/-- A command other than DEVICE_RESET is accepted only where a slot is free. -/
theorem free_of_accepted {s : State} {w : Nat} (h : refusal s w = 0) (hop : fld (windowWord s w 0) 7 0 ≠ 0x01) :
    ∃ slot rest, s.host.free = slot :: rest := by
  cases hf : s.host.free with
  | cons slot rest => exact ⟨slot, rest, rfl⟩
  | nil =>
    have hop' : (fld (windowWord s w 0) 7 0 != 0x01) = true := by simpa using hop
    rw [refusal_eq, hop', hf] at h
    split_ifs at h
    contradiction

/-! ## Fields outside their encoding -/

section Encoding
variable {g : Nat → Word}

theorem malformed_resetKey (hop : fld (g 0) 7 0 = 0x01) (h : g 1 ≠ 0x5E5E#32) : malformed g = true := by
  simp [malformed, hop, h]

theorem malformed_port (hop : fld (g 0) 7 0 = 0x20 ∨ fld (g 0) 7 0 = 0x21 ∨ fld (g 0) 7 0 = 0x22)
    (h : portCount (fld (g 1) 15 12) ≤ fld (g 1) 6 0) : malformed g = true := by
  rcases hop with hop | hop | hop <;> simp [malformed, hop, h]

theorem malformed_table (hop : fld (g 0) 7 0 = 0x12 ∨ fld (g 0) 7 0 = 0x13) (h : 4 < fld (g 1) 7 0) : malformed g = true := by
  rcases hop with hop | hop <;> simp [malformed, hop, h]

theorem malformed_step (hop : fld (g 0) 7 0 = 0x30) (h : 1000000000 ≤ (g 2).toInt.natAbs) : malformed g = true := by
  simp only [malformed, hop]
  simpa using h

theorem malformed_reacquire (hop : fld (g 0) 7 0 = 0x31) (h : (g 2).toNat < 10 ∨ 1000000000 < (g 2).toNat) : malformed g = true := by
  simpa [malformed, hop] using h

/-- The opcodes of which every field has a meaning, or lies outside it as a bad parameter of the command (R43, R47). -/
theorem malformed_never (hop : fld (g 0) 7 0 = 0x00 ∨ fld (g 0) 7 0 = 0x11 ∨ fld (g 0) 7 0 = 0x23 ∨ fld (g 0) 7 0 = 0x24
    ∨ fld (g 0) 7 0 = 0x25 ∨ fld (g 0) 7 0 = 0x32 ∨ fld (g 0) 7 0 = 0x33 ∨ fld (g 0) 7 0 = 0x40 ∨ fld (g 0) 7 0 = 0x51
    ∨ fld (g 0) 7 0 = 0x61) : malformed g = false := by
  rcases hop with hop | hop | hop | hop | hop | hop | hop | hop | hop | hop <;> simp [malformed, hop]

end Encoding

/-! ## Accepting (R41, R42, R47) -/

/-- The command that takes a slot: its generation follows that of the slot's last handle (R41). -/
def acceptedCmd (s : State) (slot : Nat) (words : List Word) : HostCmd :=
  let op := fld (words.headD 0) 7 0
  { slot := slot, gen := sget 0 s.host.gens slot % 255 + 1, words := words, phase := .accepted, fetch := none, flash := false, got := [],
    done := 0, aux := if op == 0x50 || op == 0x51 then s.bridge.posted.length else 0 }

/-- A command takes the slot free the longest. -/
theorem allocate_cons {s : State} {slot : Nat} {rest : List Nat} (h : s.host.free = slot :: rest) (words : List Word) :
    allocate s words =
      ({ s with
          host := { s.host with
            free := rest, gens := sset 0 s.host.gens slot (acceptedCmd s slot words).gen,
            cmds := s.host.cmds ++ [acceptedCmd s slot words] } },
        (acceptedCmd s slot words).gen * 256 + slot) := by
  simp only [allocate, h, acceptedCmd]

/-- What a read of CMD_ACCEPT does, by its refusal and by the command. -/
theorem acceptResult_refused {s : State} {w : Nat} (h : refusal s w ≠ 0) : acceptResult s w = (windowClear s w, refusal s w) := by
  simp [acceptResult, h]

theorem acceptResult_reset {s : State} {w : Nat} (h : refusal s w = 0) (hop : fld (windowWord s w 0) 7 0 = 0x01) :
    acceptResult s w = (scheduleReset (windowClear s w), 0xFFFF) := by
  simp only [acceptResult, h, windowWords_headD, hop]
  rfl

theorem acceptResult_command {s : State} {w : Nat} (h : refusal s w = 0) (hop : fld (windowWord s w 0) 7 0 ≠ 0x01) :
    acceptResult s w = allocate (windowClear s w) (windowWords s w) := by
  simp only [acceptResult, h, windowWords_headD, beq_eq_false_iff_ne.2 hop]
  rfl

/-- A read of CMD_ACCEPT is answered with its result. -/
theorem execCmdAccept_eq {s t : State} {w : Fin 8} {r : Nat} (hok : bar0Ok s = true) (h : acceptResult s w = (t, r)) :
    execCmdAccept w s = .next (replied t (Reg.cmdAccept w) (BitVec.ofNat 32 r)) := by
  simp [execCmdAccept, hok, acceptRead, h]

/-- The accepting read of a DEVICE_RESET is that command. -/
theorem execDeviceReset_eq {s : State} {w : Fin 8} (hok : bar0Ok s = true) (h : refusal s w = 0)
    (hop : fld (windowWord s w 0) 7 0 = 0x01) : execDeviceReset w s = execCmdAccept w s := by
  have hheld : holdsReset s w = true := by
    rw [windowWord_eq s w (by decide)] at hop
    simpa [holdsReset, h] using hop
  simp [execDeviceReset, execCmdAccept, hok, hheld]

end Sys2Proof.Machine

namespace Sys2Proof.Proofs
open Sys2Proof.Machine

/-- Settles O24: a write of the buffer by windowLoad, a read of CMD_ACCEPT by the three results of its evaluation. -/
theorem submissionWindows : Obligations.SubmissionWindows := by
  unfold Obligations.SubmissionWindows
  intro s w hok
  dsimp only
  have hclear := windowCleared_windowClear s w
  refine ⟨fun k data hp hne hlen => ?_, fun k data hp hbad => ?_, fun hr => ?_, fun hr hop => ?_, fun hr hop => ?_⟩
  · refine ⟨windowLoad s w k data, ?_, mem_loaded_windowLoad s w k data, sget_windowPut s w k data, windowLoad_frame s w k data⟩
    simp [exec_cmdBufWrite, execCmdBufWrite, bar0Writes_of hok hp, hne, hlen]
  · have hbad' : (data.isEmpty || decide (16 < k.val + data.length)) = true := by simpa using hbad
    simp only [exec_cmdBufWrite, execCmdBufWrite, bar0Writes_of hok hp, hbad', badAccess]
    rfl
  · exact ⟨_, (exec_cmdAccept w s).trans (execCmdAccept_eq hok (acceptResult_refused hr)), rfl, hclear.congr rfl rfl, rfl⟩
  · obtain ⟨slot, rest, hfree⟩ := free_of_accepted hr hop
    have hacc := (acceptResult_command hr hop).trans (allocate_cons (s := windowClear s w) hfree (windowWords s w))
    exact ⟨slot, rest, _, hfree, (exec_cmdAccept w s).trans (execCmdAccept_eq hok hacc), hclear.congr rfl rfl, rfl,
      ⟨acceptedCmd (windowClear s w) slot (windowWords s w), rfl, rfl, rfl, rfl, rfl⟩, fun _ _ => rfl⟩
  · have hacc := execCmdAccept_eq hok (acceptResult_reset hr hop)
    exact ⟨_, (exec_deviceReset w s).trans ((execDeviceReset_eq hok hr hop).trans hacc), (exec_cmdAccept w s).trans hacc, rfl,
      hclear.congr rfl rfl, rfl, rfl, rfl, fun _ _ => rfl⟩

/-- Settles O25: the handle and the generations that taking a slot leaves, and the generations after reset. -/
theorem handles : Obligations.Handles := by
  unfold Obligations.Handles
  intro s slot rest words hfree hslot
  dsimp only
  rw [allocate_cons hfree]
  simp only [acceptedCmd, sget_sset, if_true]
  refine ⟨by omega, by omega, fun h => by simp [h], fun h1 h2 => by omega, fun h => by simp [h], by omega, by omega, fun k hk => by simp [hk],
    fun _ => rfl⟩

/-- Settles O26: the checks one behind another, each by its lemma; the opcodes whose fields cannot lie outside their encoding reach the
last two. -/
theorem acceptanceChecks : Obligations.AcceptanceChecks := by
  unfold Obligations.AcceptanceChecks
  intro s w g op empty disabled bad busy
  have h0 : fld (windowWord s w 0) 7 0 = op := by rw [windowWord_eq s w (by decide)]
  have h1 : windowWord s w 1 = g 1 := windowWord_eq s w (by decide)
  have h2 : windowWord s w 2 = g 2 := windowWord_eq s w (by decide)
  have henabled : ¬disabled → notEnabled s (fld (windowWord s w 0) 7 0) = false := fun h => by
    rw [h0, ← Bool.not_eq_true, notEnabled_iff]
    exact h
  refine ⟨refusal_empty, fun hl hdis => ?_, fun hl hen hbad => ?_, fun hl hen hop => ?_⟩
  · exact refusal_notEnabled (not_not.1 hl) (by rw [h0]; exact notEnabled_iff.2 hdis)
  · exact refusal_badOpcode (not_not.1 hl) (henabled hen) (by rwa [h0])
  have hcat : fld (windowWord s w 0) 7 0 ∈ catalogue := by
    rw [h0]
    exact not_not.1 hop
  have hmal : malformed (windowWord s w) = true → refusal s w = 3 := refusal_malformed (not_not.1 hl) (henabled hen) hcat
  refine ⟨fun h hkey => hmal ?_, fun h hport => hmal ?_, fun h htab => hmal ?_, fun h hns => hmal ?_, fun h hrate => hmal ?_, fun h => ?_⟩
  · exact malformed_resetKey (h0.trans h) (by rwa [h1])
  · exact malformed_port (by rwa [h0]) (by rwa [h1])
  · exact malformed_table (by rwa [h0]) (by rwa [h1])
  · exact malformed_step (h0.trans h) (by rwa [h2])
  · exact malformed_reacquire (h0.trans h) (by rwa [h2])
  · have hbusy : (bootBusy s && bootRefused (windowWord s w)) = true ↔ busy := by
      rw [Bool.and_eq_true, bootRefused_iff, h0, h1]
    have hnot : op ≠ 0x01 := by rintro hone; simp [hone] at h
    rw [refusal_wellFormed (not_not.1 hl) (henabled hen) hcat (malformed_never (by rwa [h0]))]
    refine ⟨fun hb => if_pos (hbusy.2 hb), fun hb hfree => ?_, fun hb hfree => ?_⟩
    · rw [if_neg (fun hx => hb (hbusy.1 hx)), if_pos]
      rw [h0, hfree]
      simpa using hnot
    · rw [if_neg (fun hx => hb (hbusy.1 hx)), if_neg]
      simp [hfree]

end Sys2Proof.Proofs
end

section
/-! # Completions (R44, R51)

What a finished command writes, or leaves to be written; and the completions that wait, written in finishing order. -/

namespace Sys2Proof.Machine

/-! ## The dispatch -/

theorem exec_nopCommand (k : Fin 256) (s : State) : exec (.nopCommand k) s = execNopCommand k s := rfl

theorem exec_heldCompletionFlush (s : State) : exec .heldCompletionFlush s = execHeldCompletionFlush s := rfl

/-! ## The command that runs -/

/-- A command that may take effect: the core works, and its slot holds it with its opcode. -/
theorem cmdReady_eq_some {s : State} {k op : Nat} {c : HostCmd} (h : cmdReady s k op = some c) :
    alive s = true ∧ cmdAt s k = some c ∧ cmdOp c = op ∧ c.phase = .accepted := by
  unfold cmdReady at h
  split at h
  · simp at h
  · rename_i hrun
    split at h
    · simp at h
    · rename_i d hd
      split at h
      · rename_i hc
        simp only [Bool.and_eq_true, beq_iff_eq] at hc
        obtain ⟨⟨hop, hphase⟩, -⟩ := hc
        cases h
        exact ⟨by simp_all, hd, hop, hphase⟩
      · simp at h

theorem cmdAt_of_ready {s : State} {k op : Nat} {c : HostCmd} (h : cmdReady s k op = some c) : cmdAt s k = some c :=
  (cmdReady_eq_some h).2.1

/-- The slot of the command found in a slot. -/
theorem slot_of_cmdAt {s : State} {k : Nat} {c : HostCmd} (h : cmdAt s k = some c) : c.slot = k := by
  simpa using List.find?_some h

/-! ## What leaves the hub -/

/-- A message leaves the hub at most once. -/
theorem out_message (s : State) (v : Nat) : ∃ m : List Out, (message s v).out = s.out ++ m ∧ m.length ≤ 1 := by
  unfold message
  split
  · exact ⟨[], by simp, by simp⟩
  · split
    · exact ⟨[], by simp, by simp⟩
    · exact ⟨_, rfl, by simp⟩

/-- The announcement of an entry issues at most one message. -/
theorem out_ringAnnounce (s : State) (r : Nat) : ∃ m : List Out, (ringAnnounce s r).out = s.out ++ m ∧ m.length ≤ 1 := by
  unfold ringAnnounce
  extract_lets g x
  split
  · exact out_message _ _
  · exact ⟨[], by simp [x], by simp⟩

/-- The words of a completion entry (R51). -/
def completionWords (c : Completion) : List Word :=
  [BitVec.ofNat 32 (c.status * 65536 + c.handle), BitVec.ofNat 32 (c.res1 * 65536 + c.res0), BitVec.ofNat 32 c.sec, BitVec.ofNat 32 c.ns]

/-- A slot is free again, behind those free longer (R42, R44). -/
def slotFreed (s : State) (slot : Nat) : State := { s with host := { s.host with free := s.host.free ++ [slot] } }

@[simp] theorem slotFreed_regs (s : State) (slot : Nat) : (slotFreed s slot).regs = s.regs := rfl
@[simp] theorem slotFreed_out (s : State) (slot : Nat) : (slotFreed s slot).out = s.out := rfl

/-- The hub after the entry of a completion (R51). -/
def completionPut (s : State) (c : Completion) : State := slotFreed (ringWrite s 0 1 (completionWords c)) c.slot

/-- Behind its entry a completion asks for no message, for one of its own vector, or for that of the ring (R58). -/
theorem writeCompletion_eq (s : State) (c : Completion) :
    writeCompletion s c =
      if c.noirq then completionPut s c else if c.vecSel then message (completionPut s c) c.vector
      else ringAnnounce (completionPut s c) 0 := rfl

theorem completionPut_out (s : State) (c : Completion) : (completionPut s c).out = (ringSent s 0 (completionWords c)).out := by
  rw [completionPut, ringWrite_eq, slotFreed_out, setF_out, setRing_out]

/-- A completion leaves as its entry, with at most one message behind it. -/
theorem out_writeCompletion (s : State) (c : Completion) :
    ∃ m : List Out, (writeCompletion s c).out = (ringSent s 0 (completionWords c)).out ++ m ∧ m.length ≤ 1 := by
  rw [writeCompletion_eq, ← completionPut_out]
  split
  · exact ⟨[], by simp, by simp⟩
  · split
    · exact out_message _ _
    · exact out_ringAnnounce _ _

/-! ## Registers outside the rings -/

theorem not_ringReg_ne {off r : Nat} (h : ¬ringReg off) (hr : ringReg r) : off ≠ r := fun e => h (e ▸ hr)

theorem reg_completionPut (s : State) (c : Completion) {off : Nat} (h : ¬ringReg off) : reg (completionPut s c) off = reg s off := by
  rw [completionPut, reg_of_regs (slotFreed_regs _ _), reg_ringWrite s 1 (completionWords c) (by decide) h]

/-- A completion leaves the registers outside the rings. -/
theorem reg_writeCompletion (s : State) (c : Completion) {off : Nat} (h : ¬ringReg off) : reg (writeCompletion s c) off = reg s off := by
  rw [writeCompletion_eq, ← reg_completionPut s c h]
  split
  · rfl
  · split
    · exact reg_message _ _ (not_ringReg_ne h (by unfold ringReg; decide))
    · exact reg_ringAnnounce _ _ h

/-- A finished command leaves the registers outside the rings. -/
theorem reg_finishAt (s : State) (k st r0 r1 : Nat) (t : Stamp) {off : Nat} (h : ¬ringReg off) :
    reg (finishAt s k st r0 r1 t) off = reg s off := by
  unfold finishAt deliver
  split
  · rfl
  · dsimp only
    split
    · exact reg_writeCompletion _ _ h
    · rfl

theorem reg_finish (s : State) (k st r0 r1 : Nat) {off : Nat} (h : ¬ringReg off) : reg (finish s k st r0 r1) off = reg s off :=
  reg_finishAt s k st r0 r1 _ h

theorem cmdAt_finish (s : State) (k st r0 r1 : Nat) : cmdAt (finish s k st r0 r1) k = none := cmdAt_finishAt s k st r0 r1 _

/-- A finished command changes the completion ring, what leaves the hub, and the commands and their slots. -/
theorem finish_frame (s : State) (k st r0 r1 : Nat) :
    ∃ r g o fr hd, finish s k st r0 r1 =
      { s with
        regs := r, rings := g, out := o,
        host := { s.host with cmds := s.host.cmds.filter (fun c => c.slot != k), free := fr, held := hd } } :=
  finishAt_frame s k st r0 r1 _

/-! ## A command that finishes -/

/-- The completion of the command in a slot, finished now (R44, R51). -/
def completionOf (s : State) (c : HostCmd) (k st r0 r1 : Nat) : Completion :=
  ⟨k, c.gen * 256 + k, st, min r0 65535, min r1 65535, stSec (now s) % 2 ^ 32, stNs (now s), bit (cmdW c 0) 14, bit (cmdW c 0) 13,
    fld (cmdW c 0) 12 8⟩

/-- The hub without the command in a slot. -/
def cmdGone (s : State) (k : Nat) : State := { s with host := { s.host with cmds := s.host.cmds.filter (fun c => c.slot != k) } }

/-- The entry of a command that is done without results: STATUS, RES0 and RES1 are 0 (R51). -/
theorem completionWords_done (s : State) (c : HostCmd) (k : Nat) :
    completionWords (completionOf s c k stDone 0 0) =
      [BitVec.ofNat 32 (c.gen * 256 + k), 0, BitVec.ofNat 32 (stSec (now s)), BitVec.ofNat 32 (stNs (now s))] := by
  have hsec : BitVec.ofNat 32 (stSec (now s) % 2 ^ 32) = BitVec.ofNat 32 (stSec (now s)) := by
    apply BitVec.eq_of_toNat_eq
    simp
  simp [completionWords, completionOf, stDone, ← hsec]

theorem finish_eq {s : State} {k : Nat} {c : HostCmd} (h : cmdAt s k = some c) (st r0 r1 : Nat) :
    finish s k st r0 r1 = deliver (cmdGone s k) (completionOf s c k st r0 r1) := by
  unfold finish finishAt
  rw [h]
  rfl

/-- Where the ring has room and nothing waits, the completion is written and its slot freed. -/
theorem deliver_room {s : State} (hh : s.host.held = []) (hr : ringRoom s 0 1 = true) (c : Completion) :
    deliver s c = writeCompletion s c := by simp [deliver, hh, hr]

/-- Else it is held behind those that wait. -/
theorem deliver_held {s : State} (h : s.host.held ≠ [] ∨ ringRoom s 0 1 = false) (c : Completion) :
    deliver s c = { s with host := { s.host with held := s.host.held ++ [c] } } := by
  have hcond : (s.host.held.isEmpty && ringRoom s 0 1) = false := by
    rcases h with h | h <;> simp [h]
  rw [deliver, hcond]
  rfl

/-! ## The completions that wait -/

/-- From s to t completions that waited were written, first come first, until none waits or the ring has no room. -/
def HeldWritten (s t : State) : Prop :=
  SameBut s t [] ∧ t.time = s.time
    ∧ (∃ n, t.host.held = s.host.held.drop n ∧ t.host.free = s.host.free ++ (s.host.held.take n).map (·.slot))
    ∧ (t.host.held = [] ∨ ringRoom t 0 1 = false)

/-- Nothing is written where nothing waits, or the ring has no room. -/
theorem heldWritten_refl {s : State} (h : s.host.held = [] ∨ ringRoom s 0 1 = false) : HeldWritten s s :=
  ⟨fun _ _ _ => rfl, rfl, ⟨0, by simp, by simp⟩, h⟩

/-- The first completion is written, then others. -/
theorem HeldWritten.cons {s t : State} {c : Completion} {cs : List Completion} (hs : s.host.held = c :: cs)
    (h : HeldWritten (writeCompletion { s with host := { s.host with held := cs } } c) t) : HeldWritten s t := by
  obtain ⟨hregs, htime, ⟨n, hheld, hfree⟩, hend⟩ := h
  obtain ⟨r, g, o, hw⟩ := writeCompletion_frame { s with host := { s.host with held := cs } } c
  refine ⟨fun off hoff hmem => ?_, ?_, ⟨n + 1, ?_, ?_⟩, hend⟩
  · exact (hregs off hoff hmem).trans (reg_writeCompletion { s with host := { s.host with held := cs } } c hoff)
  · rw [htime, hw]
  · rw [hheld, hw, hs]
    rfl
  · rw [hfree, hw, hs]
    simp

/-- As many as wait may be written. -/
theorem heldWritten_flushHeld (n : Nat) (s : State) (h : s.host.held.length ≤ n) : HeldWritten s (flushHeld n s) := by
  induction n generalizing s with
  | zero => exact heldWritten_refl (.inl (List.length_eq_zero_iff.1 (Nat.le_zero.1 h)))
  | succ n ih =>
    unfold flushHeld
    split
    · rename_i hnone
      exact heldWritten_refl (.inl hnone)
    · rename_i c cs hcons
      split
      · refine .cons hcons (ih _ ?_)
        obtain ⟨r, g, o, hw⟩ := writeCompletion_frame { s with host := { s.host with held := cs } } c
        rw [hw]
        rw [hcons, List.length_cons] at h
        exact Nat.le_of_succ_le_succ h
      · rename_i hfull
        exact heldWritten_refl (.inr (by simpa using hfull))

/-- The mark of an entry into harbour watch changes when it begins. -/
theorem entryMark_frame (s : State) : ∃ b x, entryMark s = { s with power := { s.power with entryTb := b, entrySlot := x } } := by
  unfold entryMark
  split
  · exact ⟨_, _, rfl⟩
  · split <;> exact ⟨_, _, rfl⟩

/-- That mark leaves what was written. -/
theorem HeldWritten.entryMark {s t : State} (h : HeldWritten s t) : HeldWritten s (entryMark t) := by
  obtain ⟨b, x, hm⟩ := entryMark_frame t
  rw [hm]
  exact h

end Sys2Proof.Machine

namespace Sys2Proof.Proofs
open Sys2Proof.Machine

/-- Settles O27: a finished command by what deliver does with its completion, the held ones by induction over their number. -/
theorem commandCompletion : Obligations.CommandCompletion := by
  unfold Obligations.CommandCompletion
  intro s k c
  dsimp only
  refine ⟨fun hready => ?_, fun halive hheld => ?_⟩
  · have hat := cmdAt_of_ready hready
    have hexec : exec (.nopCommand k) s = .next (finish s k stDone 0 0) := by simp [exec_nopCommand, execNopCommand, hready]
    have hfinish := finish_eq hat stDone 0 0
    obtain ⟨r, g, o, fr, hd, hframe⟩ := finish_frame s k stDone 0 0
    refine ⟨_, hexec, ⟨fun off hoff _ => reg_finish s k _ _ _ hoff, by rw [hframe]⟩, by rw [hframe], cmdAt_finish _ _ _ _ _, ?_, ?_⟩
    · intro hnone hroom
      obtain ⟨r, g, o, hw⟩ := writeCompletion_frame (cmdGone s k) (completionOf s c k stDone 0 0)
      have hwrite := hfinish.trans (deliver_room (s := cmdGone s k) hnone hroom _)
      obtain ⟨m, hm, hlen⟩ := out_writeCompletion (cmdGone s k) (completionOf s c k stDone 0 0)
      rw [hwrite]
      refine ⟨by rw [hw]; rfl, by rw [hw]; exact hnone, m, ?_, hlen⟩
      rw [hm]
      rw [completionWords_done]
      rfl
    · intro hfull
      rw [hfinish.trans (deliver_held (s := cmdGone s k) hfull _)]
      exact ⟨rfl, rfl, _, rfl, rfl, rfl, rfl⟩
  · obtain ⟨hregs, htime, ⟨n, hn⟩, hend⟩ := (heldWritten_flushHeld _ s (Nat.le_refl _)).entryMark
    have hexec : exec .heldCompletionFlush s = .next (entryMark (flushHeld s.host.held.length s)) := by
      simp [exec_heldCompletionFlush, execHeldCompletionFlush, halive, hheld]
    exact ⟨_, n, hexec, ⟨hregs, htime⟩, hn.1, hn.2, hend⟩

end Sys2Proof.Proofs
end

section
/-! # Ring registers, moderation and unmasking (R50, R58) -/

namespace Sys2Proof.Machine

/-! ## The dispatch -/

theorem exec_ringModerationTimer (r : Fin 18) (s : State) : exec (.ringModerationTimer r) s = execRingModerationTimer r s := rfl

theorem exec_msixUnmask (v : Fin 32) (s : State) : exec (.msixUnmask v) s = execMsixUnmask v s := rfl

/-! ## Numbers and bits -/

theorem clampNat_eq_max_min {lo hi : Nat} (h : lo ≤ hi) (v : Nat) : clampNat lo hi v = max lo (min hi v) := by
  unfold clampNat
  split
  · omega
  · split <;> omega

/-- The log2 of units that a SIZE field asks of a ring (R50). -/
theorem ringLog_eq (r size : Nat) : ringLog r size = max (if r = 0 then 8 else 6) (min 16 size) := by
  unfold ringLog
  by_cases hr : r = 0 <;> simp [hr, clampNat_eq_max_min]

/-- The largest value of a field. -/
theorem fld_lt (w : Word) (hi lo : Nat) : fld w hi lo < 2 ^ (hi + 1 - lo) := Nat.mod_lt _ (by positivity)

/-- A bit of the register whose field was written. -/
theorem regB_setF {s : State} {o hi lo v : Nat} (h : lo ≤ hi) (h32 : hi < 32) (i : Nat) :
    regB (setF s o hi lo v) o i = if lo ≤ i ∧ i ≤ hi then v.testBit (i - lo) else regB s o i := by
  simp only [regB, setF, reg_setReg, if_true, bit_eq, BitVec.getLsbD]
  exact testBit_setFld h h32 i

/-- Bits of a register that two states share. -/
theorem regB_of_reg {s t : State} {o : Nat} (h : reg t o = reg s o) (i : Nat) : regB t o i = regB s o i := by rw [regB, regB, h]

@[simp] theorem reg_setRing (s : State) (r : Nat) (v : Ring) (off : Nat) : reg (setRing s r v) off = reg s off := rfl
@[simp] theorem regF_setRing (s : State) (r : Nat) (v : Ring) (off hi lo : Nat) : regF (setRing s r v) off hi lo = regF s off hi lo := rfl
@[simp] theorem regB_setRing (s : State) (r : Nat) (v : Ring) (off i : Nat) : regB (setRing s r v) off i = regB s off i := rfl
@[simp] theorem hostMem_setRing (s : State) (r : Nat) (v : Ring) : hostMem (setRing s r v) = hostMem s := rfl
@[simp] theorem setF_host (s : State) (o hi lo v : Nat) : (setF s o hi lo v).host = s.host := rfl
@[simp] theorem hostMem_setF (s : State) (o hi lo v : Nat) : hostMem (setF s o hi lo v) = hostMem s := rfl
@[simp] theorem hostMem_setReg (s : State) (o : Nat) (v : Word) : hostMem (setReg s o v) = hostMem s := rfl
@[simp] theorem reg_emit (s : State) (y : Out) (off : Nat) : reg (emit s y) off = reg s off := rfl
@[simp] theorem ring_setReg (s : State) (o : Nat) (v : Word) (r : Nat) : ring (setReg s o v) r = ring s r := rfl

/-- From s to t only registers, rings and what leaves the hub change. -/
def RingFrame (s t : State) : Prop := ∃ r g o, t = { s with regs := r, rings := g, out := o }

theorem RingFrame.refl (s : State) : RingFrame s s := ⟨s.regs, s.rings, s.out, rfl⟩

theorem RingFrame.setReg {s t : State} (h : RingFrame s t) (o : Nat) (v : Word) : RingFrame s (setReg t o v) := by
  obtain ⟨r, g, x, rfl⟩ := h
  exact ⟨_, g, x, rfl⟩

theorem RingFrame.setF {s t : State} (h : RingFrame s t) (o hi lo v : Nat) : RingFrame s (setF t o hi lo v) := h.setReg o _

theorem RingFrame.setRing {s t : State} (h : RingFrame s t) (n : Nat) (v : Ring) : RingFrame s (setRing t n v) := by
  obtain ⟨r, g, x, rfl⟩ := h
  exact ⟨r, _, x, rfl⟩

theorem RingFrame.emit {s t : State} (h : RingFrame s t) (y : Out) : RingFrame s (emit t y) := by
  obtain ⟨r, g, x, rfl⟩ := h
  exact ⟨r, g, _, rfl⟩

/-- Such a change, where nothing leaves the hub. -/
theorem RingFrame.regs_rings {s t : State} (h : RingFrame s t) (ho : t.out = s.out) : t = { s with regs := t.regs, rings := t.rings } := by
  obtain ⟨r, g, x, rfl⟩ := h
  cases ho
  rfl

/-- Such a change, where no ring changes. -/
theorem RingFrame.regs_out {s t : State} (h : RingFrame s t) (hr : t.rings = s.rings) : t = { s with regs := t.regs, out := t.out } := by
  obtain ⟨r, g, x, rfl⟩ := h
  cases hr
  rfl

/-! ## CTRL and HEAD -/

/-- A ring at an enable: its base and size as the registers give them, empty, with phase 1 (R50). -/
def ringTaken (s : State) (r : Nat) (v : Word) : Ring :=
  { ring s r with
    base := (reg s (ringOff r + 4)).toNat * 2 ^ 32 + regF s (ringOff r) 31 12 * 4096, size := ringLog r (fld v 20 16), phase := true,
    unann := 0, firstTb := 0 }

/-- A write of CTRL that enables its ring. -/
theorem ringCtrlWrite_enable {s : State} {r : Nat} {v : Word} (hoff : ringEn s r = false) (hv : bit v 31 = true) :
    ringCtrlWrite s r v =
      setRing (setF (setF (setReg s (ringOff r + 8) (v &&& 0x9F1FFFFF#32)) (ringOff r + 12) 15 0 0) (ringOff r + 16) 15 0 0) r
        (ringTaken s r v) := by
  simp [ringCtrlWrite, hoff, hv, ringTaken, setF, regF]

/-- Another write of CTRL stores its value. -/
theorem ringCtrlWrite_other {s : State} {r : Nat} {v : Word} (h : ringEn s r = true ∨ bit v 31 = false) :
    ringCtrlWrite s r v = setReg s (ringOff r + 8) (v &&& 0x9F1FFFFF#32) := by
  rcases h with h | h <;> simp [ringCtrlWrite, h]

/-- What an enable leaves: the ring is empty, with its base and size, and three of its registers are written. -/
theorem ringCtrlWrite_enable_spec {s : State} {r : Nat} {v : Word} (hoff : ringEn s r = false) (hv : bit v 31 = true) :
    ringHead (ringCtrlWrite s r v) r = 0 ∧ ringTail (ringCtrlWrite s r v) r = 0 ∧ ring (ringCtrlWrite s r v) r = ringTaken s r v
      ∧ reg (ringCtrlWrite s r v) (ringOff r + 8) = v &&& 0x9F1FFFFF#32
      ∧ SameRegs s (ringCtrlWrite s r v) [ringOff r + 8, ringOff r + 12, ringOff r + 16]
      ∧ ringCtrlWrite s r v = { s with regs := (ringCtrlWrite s r v).regs, rings := (ringCtrlWrite s r v).rings } := by
  rw [ringCtrlWrite_enable hoff hv]
  refine ⟨?_, ?_, by simp, ?_, fun off hoff => ?_,
    ((((RingFrame.refl s).setReg _ _).setF _ _ _ _).setF _ _ _ _).setRing _ _ |>.regs_rings (by simp)⟩
  · rw [ringHead, regF_setRing, regF_of_reg (reg_setF_other (by omega)), regF_setF_same (by decide) (by decide), Nat.zero_mod]
  · rw [ringTail, regF_setRing, regF_setF_same (by decide) (by decide), Nat.zero_mod]
  · rw [reg_setRing, reg_setF_other (by omega), reg_setF_other (by omega), reg_setReg, if_pos rfl]
  · simp only [List.mem_cons, List.not_mem_nil, or_false, not_or] at hoff
    obtain ⟨h8, h12, h16⟩ := hoff
    rw [reg_setRing, reg_setF_other h16, reg_setF_other h12, reg_setReg, if_neg h8]

/-- HEAD after a write of it: modulo the size. -/
theorem ringHead_ringHeadWrite (s : State) (r : Nat) (v : Word) :
    ringHead (ringHeadWrite s r v) r = fld v 15 0 % 2 ^ ringSizeNow s r := by
  rw [ringHeadWrite, ringHead, regF_setF_same (by decide) (by decide)]
  exact Nat.mod_eq_of_lt ((Nat.mod_le _ _).trans_lt (fld_lt v 15 0))

/-! ## Messages -/

/-- The message of a vector, as its table words give it (R58). -/
def msixOut (s : State) (v : Nat) : Out :=
  .msix v ((reg s (Reg.msixTable v 1)).toNat * 2 ^ 32 + (reg s (Reg.msixTable v 0)).toNat) (reg s (Reg.msixTable v 2))

/-- The message of a vector that is not masked leaves the hub. -/
theorem message_sent {s : State} {v : Nat} (hx : s.host.msix = true) (hm : regB s (Reg.msixTable v 3) 0 = false) (hh : hostMem s = true) :
    message s v = emit s (msixOut s v) := by
  simp [message, hx, hm, hh, msixOut]

/-- The message of a masked vector stays as its pending bit. -/
theorem message_masked {s : State} {v : Nat} (hx : s.host.msix = true) (hm : regB s (Reg.msixTable v 3) 0 = true) :
    message s v = setReg s Reg.msixPba (reg s Reg.msixPba ||| BitVec.ofNat 32 (2 ^ v)) := by
  simp [message, hx, hm]

/-- A message leaves the rings. -/
@[simp] theorem ring_message (s : State) (v r : Nat) : ring (message s v) r = ring s r := by
  obtain ⟨x, o, h⟩ := message_frame s v
  rw [h]
  rfl

/-- The ring whose message is due. -/
def ringSaid (s : State) (r : Nat) : State := setRing s r { ring s r with unann := 0, firstTb := 0 }

theorem ringMessage_eq (s : State) (r : Nat) : ringMessage s r = message (ringSaid s r) (regF s (ringOff r + 8) 28 24) := rfl

theorem ringSaid_host (s : State) (r : Nat) : (ringSaid s r).host = s.host := rfl
theorem ringSaid_out (s : State) (r : Nat) : (ringSaid s r).out = s.out := rfl
theorem hostMem_ringSaid (s : State) (r : Nat) : hostMem (ringSaid s r) = hostMem s := rfl
theorem reg_ringSaid (s : State) (r off : Nat) : reg (ringSaid s r) off = reg s off := rfl

/-- The pending bit of a vector that stays. -/
theorem regB_pending (s : State) {v : Nat} (hv : v < 32) :
    regB (setReg s Reg.msixPba (reg s Reg.msixPba ||| BitVec.ofNat 32 (2 ^ v))) Reg.msixPba v = true := by
  simp only [regB, reg_setReg, if_true, bit_eq, BitVec.getLsbD_or, BitVec.getLsbD_ofNat, Nat.testBit_two_pow_self, hv, decide_true,
    Bool.and_true, Bool.or_true]

/-- The word that a vector's table shows, beside that of the pending bits. -/
theorem msixTable_ne_msixPba (v : Fin 32) {k : Nat} (hk : k < 4) : Reg.msixTable v k ≠ Reg.msixPba := by
  unfold Reg.msixTable Reg.msixPba
  omega

theorem msixTable_control_ne (v : Nat) {k : Nat} (hk : k < 3) : Reg.msixTable v k ≠ Reg.msixTable v 3 := by
  unfold Reg.msixTable
  omega

/-- Registers that two states share in the table of a vector give the same message. -/
theorem msixOut_congr {s t : State} {v : Nat} (h : ∀ k, k < 3 → reg t (Reg.msixTable v k) = reg s (Reg.msixTable v k)) :
    msixOut t v = msixOut s v := by
  rw [msixOut, msixOut, h 0 (by decide), h 1 (by decide), h 2 (by decide)]

/-- A pending message that may go out leaves the hub, and its bit is cleared. -/
theorem messageNow_pending {s : State} {v : Fin 32} (hp : regB s Reg.msixPba v = true) (hx : s.host.msix = true) (hh : hostMem s = true)
    (hm : regB s (Reg.msixTable v 3) 0 = false) :
    messageNow s v = emit (setF s Reg.msixPba v v 0) (msixOut s v) := by
  have hreg : ∀ k, k < 4 → reg (setF s Reg.msixPba v v 0) (Reg.msixTable v k) = reg s (Reg.msixTable v k) :=
    fun k hk => reg_setF_other (msixTable_ne_msixPba v hk)
  have hm' : regB (setF s Reg.msixPba v v 0) (Reg.msixTable v 3) 0 = false := by rw [regB_of_reg (hreg 3 (by decide)), hm]
  have hsent := message_sent (s := setF s Reg.msixPba v v 0) (v := v) (by rw [setF_host]; exact hx) hm' ((hostMem_setF s _ _ _ _).trans hh)
  have hgo : (regB s Reg.msixPba v && s.host.msix && hostMem s && !regB s (Reg.msixTable v 3) 0) = true := by rw [hp, hx, hh, hm]; rfl
  rw [messageNow, if_pos hgo, hsent, msixOut_congr fun k hk => hreg k (by omega)]

/-- Where no message is pending, or none may go out, nothing happens. -/
theorem messageNow_idle {s : State} {v : Nat}
    (h : ¬(regB s Reg.msixPba v = true ∧ s.host.msix = true ∧ hostMem s = true ∧ regB s (Reg.msixTable v 3) 0 = false)) :
    messageNow s v = s := by
  unfold messageNow
  exact if_neg (by simpa [and_assoc] using h)

/-! ## Unmasking -/

/-- A vector is no longer masked. -/
def unmasked (s : State) (v : Nat) : State := setF s (Reg.msixTable v 3) 0 0 0

theorem regB_unmasked (s : State) (v : Nat) : regB (unmasked s v) (Reg.msixTable v 3) 0 = false := by
  rw [unmasked, regB_setF (by decide) (by decide)]
  simp

theorem reg_unmasked {s : State} {v off : Nat} (h : off ≠ Reg.msixTable v 3) : reg (unmasked s v) off = reg s off := by
  rw [unmasked, reg_setF_other h]

theorem unmasked_host (s : State) (v : Nat) : (unmasked s v).host = s.host := rfl
theorem unmasked_out (s : State) (v : Nat) : (unmasked s v).out = s.out := rfl
theorem hostMem_unmasked (s : State) (v : Nat) : hostMem (unmasked s v) = hostMem s := rfl

/-- What an unmask leaves, whether the vector's message was pending or not. -/
structure Unmasked (s t : State) (v : Nat) : Prop where
  control : regB t (Reg.msixTable v 3) 0 = false
  others : ∀ i, i ≠ v → regB t Reg.msixPba i = regB s Reg.msixPba i
  regs : SameRegs s t [Reg.msixTable v 3, Reg.msixPba]
  frame : t = { s with regs := t.regs, out := t.out }

theorem Unmasked.idle (s : State) (v : Fin 32) : Unmasked s (unmasked s v) v where
  control := regB_unmasked s v
  others i _ := regB_of_reg (reg_unmasked (msixTable_ne_msixPba v (by decide)).symm) i
  regs off hoff := reg_unmasked (by simp_all)
  frame := ((RingFrame.refl s).setReg _ _).regs_out rfl

theorem Unmasked.pending (s : State) (v : Fin 32) (y : Out) : Unmasked s (emit (setF (unmasked s v) Reg.msixPba v v 0) y) v := by
  have hidle := Unmasked.idle s v
  have hreg : ∀ off, off ≠ Reg.msixPba → reg (emit (setF (unmasked s v) Reg.msixPba v v 0) y) off = reg (unmasked s v) off :=
    fun off h => (reg_emit _ _ off).trans (reg_setF_other h)
  refine ⟨?_, fun i hi => ?_, fun off hoff => ?_, ?_⟩
  · rw [regB_of_reg (hreg _ (msixTable_ne_msixPba v (by decide)))]
    exact hidle.control
  · rw [regB_of_reg (reg_emit _ _ _), regB_setF (Nat.le_refl _) v.isLt, if_neg (by omega)]
    exact hidle.others i hi
  · rw [hreg off (by simp_all)]
    exact hidle.regs off hoff
  · exact (((RingFrame.refl s).setReg _ _).setF _ _ _ _ |>.emit y).regs_out (by simp [setF])

end Sys2Proof.Machine

namespace Sys2Proof.Proofs
open Sys2Proof.Machine

/-- Settles O28: CTRL and HEAD by what their writes leave, the moderation timer and an unmask by the message that goes out or stays. -/
theorem ringCommands : Obligations.RingCommands := by
  unfold Obligations.RingCommands
  intro s
  dsimp only
  refine ⟨fun r v hw => ?_, fun r v hw => ?_, fun r ht hun hus hdue => ?_, fun v hw => ?_⟩
  · have hrun : exec (.ringEnable r v) s = .next (ringCtrlWrite s r v) := by simp [exec_ringEnable, execRingEnable, hw]
    by_cases hen : ringEn s r = false ∧ bit v 31 = true
    · obtain ⟨hhead, htail, hring, hctrl, hregs, hframe⟩ := ringCtrlWrite_enable_spec hen.1 hen.2
      refine ⟨_, hrun, hctrl, fun _ _ => ⟨hhead, htail, by rw [hring]; rfl, by rw [hring]; rfl, ?_⟩, fun h => ?_, hregs, hframe⟩
      · rw [hring]
        exact ringLog_eq r (fld v 20 16)
      · simp [hen.1, hen.2] at h
    · have hother : ringEn s r = true ∨ bit v 31 = false := by
        rw [← Bool.not_eq_false, ← Bool.not_eq_true (bit v 31)]
        exact not_and_or.1 hen
      rw [ringCtrlWrite_other hother] at hrun
      refine ⟨_, hrun, by simp, fun h0 h1 => absurd ⟨h0, h1⟩ hen, fun _ => ⟨?_, ?_, rfl⟩, fun off hoff => ?_, rfl⟩
      · exact regF_of_reg (by simp) _ _
      · exact regF_of_reg (by simp) _ _
      · exact sameRegs_setReg s _ _ off (by simp_all)
  · exact ⟨ringHeadWrite s r v, by simp [exec_ringHeadWrite, execRingHeadWrite, hw], ringHead_ringHeadWrite s r v, sameRegs_setF s _ _ _ _, rfl⟩
  · obtain ⟨x, g, o, hframe⟩ := ringMessage_frame s r
    have hrun : exec (.ringModerationTimer r) s = .next (ringMessage s r) := by
      simp only [exec_ringModerationTimer, execRingModerationTimer]
      exact if_pos (by simp [ht, hun, hus, Config.tickUs, sinceTb, hdue])
    have hcontrol := regB_of_reg (reg_ringSaid s r (Reg.msixTable (regF s (ringOff r + 8) 28 24) 3)) 0
    rw [ringMessage_eq] at hrun hframe
    refine ⟨_, hrun, by simp [ringSaid], fun hx hm hh => ?_, fun hx hm => ?_, fun off hoff => ?_, by rw [hframe]⟩
    · rw [message_sent ((congrArg HostIf.msix (ringSaid_host s r)).trans hx) (hcontrol.trans hm) ((hostMem_ringSaid s r).trans hh), emit_out,
        ringSaid_out, msixOut_congr fun k _ => reg_ringSaid s r _]
      rfl
    · rw [message_masked ((congrArg HostIf.msix (ringSaid_host s r)).trans hx) (hcontrol.trans hm)]
      exact ⟨ringSaid_out s r, regB_pending _ (fld_lt _ 28 24)⟩
    · exact reg_message _ _ (by simpa using hoff)
  · have hrun : exec (.msixUnmask v) s = .next (messageNow (unmasked s v) v) := by
      simp only [exec_msixUnmask, execMsixUnmask, hw, if_true]
      rfl
    have hpba : ∀ i, regB (unmasked s v) Reg.msixPba i = regB s Reg.msixPba i :=
      regB_of_reg (reg_unmasked (msixTable_ne_msixPba v (by decide)).symm)
    by_cases hgo : regB s Reg.msixPba v = true ∧ s.host.msix = true ∧ hostMem s = true
    · obtain ⟨hp, hx, hh⟩ := hgo
      have hnow := messageNow_pending (s := unmasked s v) ((hpba v).trans hp) (by rw [unmasked_host]; exact hx)
        ((hostMem_unmasked s v).trans hh) (regB_unmasked s v)
      rw [hnow] at hrun
      have hafter := Unmasked.pending s v (msixOut (unmasked s v) v)
      refine ⟨_, hrun, hafter.control, fun _ _ _ => ⟨?_, ?_⟩, fun hn => ?_, hafter.others, hafter.regs, hafter.frame⟩
      · rw [emit_out, setF_out, unmasked_out, msixOut_congr fun k hk => reg_unmasked (msixTable_control_ne v hk)]
        rfl
      · rw [regB_of_reg (reg_emit _ _ _), regB_setF (Nat.le_refl _) v.isLt, if_pos ⟨Nat.le_refl _, Nat.le_refl _⟩]
        simp
      · simp [hp] at hn
    · rw [messageNow_idle fun h => hgo ⟨(hpba v).symm.trans h.1, h.2.1, h.2.2.1⟩] at hrun
      have hafter := Unmasked.idle s v
      exact ⟨_, hrun, hafter.control, fun hp hx hh => absurd ⟨hp, hx, hh⟩ hgo, fun _ => unmasked_out s v, hafter.others, hafter.regs,
        hafter.frame⟩

end Sys2Proof.Proofs
end

section
/-! # Accesses of BAR2 (R31, R35) -/

namespace Sys2Proof.Machine

theorem exec_bar2Read (off len : Nat) (s : State) : exec (.bar2Read off len) s = execBar2Read off len s := rfl

theorem exec_bar2Write (off len : Nat) (s : State) : exec (.bar2Write off len) s = execBar2Write off len s := rfl

/-- An aligned DWORD of BAR2 is read at once. -/
theorem execBar2Read_dword {s : State} {a : Nat} (hok : bar0Ok s = true) (ha : 4 * a + 4 ≤ bar2Size) :
    execBar2Read (4 * a) 4 s =
      .next (emit (bar2Word s (4 * a)).1 (.readReply 2 (4 * a) (wordBytes (bar2Word s (4 * a)).2))) := by
  have hn : (4 * a + 4 - 1) / 4 + 1 - 4 * a / 4 = 1 := by omega
  have hfirst : 4 * (4 * a / 4) = 4 * a := by omega
  have hbytes : ∀ w : Word, ((wordsBytes [w]).drop (4 * a % 4)).take 4 = wordBytes w := by
    intro w
    rw [Nat.mul_mod_right]
    rfl
  simp only [execBar2Read, Nat.not_lt.2 ha, if_false, hok, Bool.not_true, Bool.false_eq_true, hn, hfirst, bar2Words, hbytes,
    show ((4 : Nat) == 0) = false from rfl]

/-- A good word that the host reads, with no injection armed, is answered as stored, and its read changes nothing. -/
theorem hostWords_one_good {s : State} {m : Mem} {a : Nat} (index : Nat → Nat) (hi : s.integ.arms = [])
    (hg : memGood (memGet s m a) = true) : hostWords s m index a 1 = (s, [memWord s m a]) := by
  simp [hostWords, memRead_good hi hg]

/-- A failed word that the host reads, with no injection armed, is answered as stored and reported. -/
theorem hostWords_one_failed {s : State} {m : Mem} {a : Nat} (index : Nat → Nat) (hi : s.integ.arms = [])
    (hg : memGood (memGet s m a) = false) : hostWords s m index a 1 = (hostReport s m a (index a) false, [memWord s m a]) := by
  simp [hostWords, memRead, injected_none hi, hg, memWord]

/-- The Kennel is the first 2 MiB of BAR2. -/
theorem bar2Word_kennel (s : State) {a : Nat} (ha : a < 2 ^ 19) :
    bar2Word s (4 * a) =
      ((hostWords s .kennel (fun _ => 0) a 1).1, (hostWords s .kennel (fun _ => 0) a 1).2.headD 0) := by
  have hlt : 4 * a < 0x200000 := by omega
  have hdiv : 4 * a / 4 = a := by omega
  simp only [bar2Word, hlt, if_true, hdiv]

/-- The statistics block stands behind the Kennel and the slot store (R36). -/
theorem bar2Word_statistics (s : State) {k : Nat} (hk : k < 2 ^ 14) : bar2Word s (0x240000 + 4 * k) = (s, statWord s (4 * k)) := by
  have h1 : ¬0x240000 + 4 * k < 0x200000 := by omega
  have h2 : ¬0x240000 + 4 * k < 0x240000 := by omega
  have h3 : 0x240000 + 4 * k < 0x250000 := by omega
  simp only [bar2Word, h1, h2, h3, if_false, if_true, Nat.add_sub_cancel_left]

theorem kennel_fire (s : State) (d unit d2 d3 : Nat) (inj : Bool) (l : Option Nat) : (fire s d unit d2 d3 inj l).kennel = s.kennel := by
  obtain ⟨r, g, o, q, f, m, n, h⟩ := fireAt_frame s d unit d2 d3 inj l (now s)
  rw [fire, h]

theorem hostReport_unbanked (s : State) {m : Mem} (a index : Nat) (inj : Bool) (h : memBank m = 0) :
    hostReport s m a index inj = memReport s m a 9 readerHost index inj := by simp [hostReport, h]

/-- A failed word of the Kennel that the host read fires its detector once, and stays as it is. -/
theorem hostReport_kennel (s : State) (a : Nat) :
    FiredOnce s (hostReport s .kennel a 0 false) 0x00 ∧ (hostReport s .kennel a 0 false).kennel = s.kennel := by
  rw [hostReport_unbanked s a 0 false rfl, memReport]
  exact ⟨firedOnce_fire s _ _ _ _ _, kennel_fire s _ _ _ _ _ _⟩

/-- What leaves the hub does not change the count of a detector. -/
theorem firedOnce_emit {s t : State} {d : Nat} (h : FiredOnce s t d) (o : Out) : FiredOnce s (emit t o) d := h

end Sys2Proof.Machine

namespace Sys2Proof.Proofs
open Sys2Proof.Machine

/-- Settles O31: a DWORD by the part of BAR2 it lies in, a write by badAccess, an offset past the end by the fault. -/
theorem bar2Access : Obligations.Bar2Access := by
  unfold Obligations.Bar2Access
  intro s hok
  dsimp only
  refine ⟨fun a hi ha hg => ?_, fun a hi ha hg => ?_, fun k hk => ?_, fun off len hin hp => ?_, fun off len hout => ?_⟩
  · rw [exec_bar2Read, execBar2Read_dword hok (by unfold bar2Size; omega), bar2Word_kennel s ha, hostWords_one_good _ hi hg]
    rfl
  · obtain ⟨hfired, hkennel⟩ := hostReport_kennel s a
    have hrun := execBar2Read_dword hok (show 4 * a + 4 ≤ bar2Size by unfold bar2Size; omega)
    rw [bar2Word_kennel s ha, hostWords_one_failed _ hi hg] at hrun
    dsimp only [List.headD_cons] at hrun
    exact ⟨_, (exec_bar2Read _ _ s).trans hrun, firedOnce_emit hfired _, by rw [emit_out, List.getLast?_concat], (emit_kennel _ _).trans hkennel⟩
  · have hoff : 0x240000 + 4 * k = 4 * (0x90000 + k) := by omega
    have hrun := execBar2Read_dword hok (show 4 * (0x90000 + k) + 4 ≤ bar2Size by unfold bar2Size; omega)
    rw [← hoff, bar2Word_statistics s hk] at hrun
    exact ⟨_, (exec_bar2Read _ _ s).trans hrun, rfl, rfl⟩
  · have hin' : ¬bar2Size < off + len := by unfold bar2Size; omega
    rw [exec_bar2Write, execBar2Write, if_neg hin', bar0Writes_of hok hp]
    rfl
  · have hout' : bar2Size < off + len := by unfold bar2Size; exact hout
    rw [exec_bar2Read, exec_bar2Write, execBar2Read, execBar2Write, if_pos hout', if_pos hout']
    exact ⟨rfl, rfl⟩

end Sys2Proof.Proofs
end

section
/-! # Commands that read host memory (R60, R62)

What a change of a command, a read that starts, reads that wait and a fault leave unchanged. -/

namespace Sys2Proof.Machine

/-- A memory word of a state whose memories are those of another. -/
theorem memGet_of_memOf {s t : State} (h : memOf t = memOf s) (m : Mem) (a : Nat) : memGet t m a = memGet s m a := by
  rw [memGet, memGet, h]

theorem memWord_of_memOf {s t : State} (h : memOf t = memOf s) (m : Mem) (a : Nat) : memWord t m a = memWord s m a := by
  rw [memWord, memWord, memGet_of_memOf h]

@[simp] theorem reg_setCmd (s : State) (k : Nat) (f : HostCmd → HostCmd) (off : Nat) : reg (setCmd s k f) off = reg s off := rfl
@[simp] theorem hostMem_setCmd (s : State) (k : Nat) (f : HostCmd → HostCmd) : hostMem (setCmd s k f) = hostMem s := rfl

/-! ## Commands -/

/-- The command in a slot after a change that keeps slots. -/
theorem cmdAt_setCmd (s : State) (k : Nat) {f : HostCmd → HostCmd} (hf : ∀ c, (f c).slot = c.slot) :
    cmdAt (setCmd s k f) k = (cmdAt s k).map f := by
  have hkeep : ((fun c : HostCmd => c.slot == k) ∘ fun c => if c.slot == k then f c else c) = fun c => c.slot == k := by
    funext c
    by_cases hc : c.slot = k <;> simp [hc, hf]
  rw [cmdAt, setCmd_host, List.find?_map, hkeep]
  cases h : cmdAt s k with
  | none => rw [show s.host.cmds.find? _ = none from h]; rfl
  | some c =>
    rw [show s.host.cmds.find? _ = some c from h, Option.map_some, Option.map_some, if_pos]
    simpa using slot_of_cmdAt h

/-- The slots that hold a command. -/
def usedSlots (s : State) : List Nat := s.host.cmds.map (·.slot)

theorem usedSlots_setCmd (s : State) (k : Nat) {f : HostCmd → HostCmd} (hf : ∀ c, (f c).slot = c.slot) :
    usedSlots (setCmd s k f) = usedSlots s := by
  simp only [usedSlots, setCmd_host, List.map_map]
  refine List.map_congr_left fun c _ => ?_
  by_cases hc : c.slot = k <;> simp [hc, hf]

theorem cmdAt_eq_none_iff (s : State) (k : Nat) : cmdAt s k = none ↔ k ∉ usedSlots s := by
  simp [cmdAt, usedSlots]

/-! ## Reads that wait -/

/-- From s to t no register, total or memory changes, and the slots that hold commands stay. -/
structure FetchKept (s t : State) : Prop where
  regs : t.regs = s.regs
  totals : t.totals = s.totals
  mems : memOf t = memOf s
  slots : usedSlots t = usedSlots s

theorem FetchKept.refl (s : State) : FetchKept s s := ⟨rfl, rfl, rfl, rfl⟩

theorem FetchKept.trans {s t u : State} (h : FetchKept s t) (k : FetchKept t u) : FetchKept s u :=
  ⟨k.regs.trans h.regs, k.totals.trans h.totals, k.mems.trans h.mems, k.slots.trans h.slots⟩

theorem FetchKept.foldl {α : Type} {f : State → α → State} (hf : ∀ s a, FetchKept s (f s a)) (l : List α) (s : State) :
    FetchKept s (l.foldl f s) :=
  List.foldlRecOn l f (.refl s) fun t ht a _ => ht.trans (hf t a)

theorem fetchKept_setCmd (s : State) (k : Nat) {f : HostCmd → HostCmd} (hf : ∀ c, (f c).slot = c.slot) : FetchKept s (setCmd s k f) :=
  ⟨rfl, rfl, memOf_setCmd s k f, usedSlots_setCmd s k hf⟩

theorem fetchKept_emit (s : State) (o : Out) : FetchKept s (emit s o) := ⟨rfl, rfl, memOf_emit s o, rfl⟩

theorem fetchKept_sendFetch (s : State) (k addr rest : Nat) : FetchKept s (sendFetch s k addr rest) := by
  unfold sendFetch
  extract_lets t
  have ht : FetchKept s t := fetchKept_setCmd s k fun _ => rfl
  have hnext : ∀ g, FetchKept t (setCmd t k fun c => { c with fetch := g }) := fun _ => fetchKept_setCmd t k fun _ => rfl
  split
  · exact (ht.trans (hnext _)).trans (fetchKept_emit _ _)
  · exact ht

theorem fetchKept_pumpFetch (s : State) (c : HostCmd) : FetchKept s (pumpFetch s c) := by
  unfold pumpFetch
  split
  · split
    · exact fetchKept_sendFetch _ _ _ _
    · exact .refl s
  · exact .refl s

theorem fetchKept_pumpRefetch (s : State) (f : Refetch) : FetchKept s (pumpRefetch s f) := by
  refine ⟨?_, ?_, memOf_pumpRefetch s f, ?_⟩ <;> unfold pumpRefetch <;> split <;> rfl

theorem fetchKept_pumpFar (s : State) : FetchKept s (pumpFar s) := by
  refine ⟨?_, ?_, memOf_pumpFar s, ?_⟩ <;> unfold pumpFar <;> split <;> (try split) <;> rfl

/-- Reads that go out after they waited. -/
theorem fetchKept_readPump (s : State) : FetchKept s (readPump s) :=
  ((FetchKept.foldl fetchKept_pumpFetch _ s).trans (.foldl fetchKept_pumpRefetch _ _)).trans (fetchKept_pumpFar _)

theorem FetchKept.reg {s t : State} (h : FetchKept s t) (off : Nat) : reg t off = reg s off := reg_of_regs h.regs off

theorem FetchKept.total {s t : State} (h : FetchKept s t) (off lo : Nat) : total t off lo = total s off lo := by
  rw [Machine.total, Machine.total, h.totals]

theorem FetchKept.cmdAt_none {s t : State} (h : FetchKept s t) {k : Nat} (hk : cmdAt s k = none) : cmdAt t k = none := by
  rw [cmdAt_eq_none_iff, h.slots, ← cmdAt_eq_none_iff]
  exact hk

/-! ## A DMA fault (R62) -/

/-- The total of an unchanged register file. -/
theorem total_finish (s : State) (k st r0 r1 off lo : Nat) : total (finish s k st r0 r1) off lo = total s off lo := by
  obtain ⟨r, g, o, fr, hd, h⟩ := finish_frame s k st r0 r1
  rw [h]
  rfl

/-- The hub after the first fault is noted. -/
def faultNoted (s : State) : State := { s with host := { s.host with faultSeen := true } }

theorem reg_faultNoted (s : State) (off : Nat) : reg (faultNoted s) off = reg s off := rfl

theorem total_setReg (s : State) (o : Nat) (v : Word) (off lo : Nat) : total (setReg s o v) off lo = total s off lo := rfl

theorem total_faultNoted (s : State) (off lo : Nat) : total (faultNoted s) off lo = total s off lo := rfl

theorem count_host (s : State) (o hi lo n : Nat) : (count s o hi lo n).host = s.host := rfl

theorem dmaFault_again {s : State} (h : s.host.faultSeen = true) (addr : Nat) : dmaFault s addr = count s Reg.hostErrors 31 16 1 := by
  have hseen : (count s Reg.hostErrors 31 16 1).host.faultSeen = true := by rw [count_host, h]
  unfold dmaFault
  generalize count s Reg.hostErrors 31 16 1 = t at hseen ⊢
  exact if_pos hseen

theorem dmaFault_first {s : State} (h : s.host.faultSeen = false) (addr : Nat) :
    dmaFault s addr =
      setReg (setReg (faultNoted (count s Reg.hostErrors 31 16 1)) Reg.dmaFaultAddrLo (BitVec.ofNat 32 addr)) Reg.dmaFaultAddrHi
        (BitVec.ofNat 32 (addr / 2 ^ 32)) := by
  have hseen : (count s Reg.hostErrors 31 16 1).host.faultSeen = false := by rw [count_host, h]
  unfold dmaFault
  generalize count s Reg.hostErrors 31 16 1 = t at hseen ⊢
  exact if_neg (by simp [hseen])

theorem total_dmaFault (s : State) (addr : Nat) :
    total (dmaFault s addr) Reg.hostErrors 16 = (total s Reg.hostErrors 16 + 1) % 2 ^ 32 := by
  have hcount := total_count s Reg.hostErrors 31 16 1
  cases h : s.host.faultSeen with
  | true => rw [dmaFault_again h, hcount]
  | false =>
    rw [dmaFault_first h, total_setReg, total_setReg, total_faultNoted, hcount]

/-- The address of the first fault is kept. -/
theorem reg_dmaFault_addr {s : State} (h : s.host.faultSeen = false) (addr : Nat) :
    reg (dmaFault s addr) Reg.dmaFaultAddrLo = BitVec.ofNat 32 addr
      ∧ reg (dmaFault s addr) Reg.dmaFaultAddrHi = BitVec.ofNat 32 (addr / 2 ^ 32) := by
  rw [dmaFault_first h]
  constructor
  · rw [reg_setReg, if_neg (by decide), reg_setReg, if_pos rfl]
  · rw [reg_setReg, if_pos rfl]

theorem sameRegs_dmaFault (s : State) (addr : Nat) :
    SameRegs s (dmaFault s addr) [Reg.hostErrors, Reg.dmaFaultAddrLo, Reg.dmaFaultAddrHi] := by
  intro off hoff
  simp only [List.mem_cons, List.not_mem_nil, or_false, not_or] at hoff
  obtain ⟨herr, hlo, hhi⟩ := hoff
  cases h : s.host.faultSeen with
  | true => rw [dmaFault_again h, reg_count_other herr]
  | false => rw [dmaFault_first h, reg_setReg, if_neg hhi, reg_setReg, if_neg hlo, reg_faultNoted, reg_count_other herr]

end Sys2Proof.Machine
end

section
/-! # Tables and quotas (R48, R62, R166, R229) -/

namespace Sys2Proof.Machine

/-! ## The dispatch -/

theorem exec_quotaSet (k : Fin 256) (s : State) : exec (.quotaSet k) s = execQuotaSet k s := rfl

theorem exec_dmaReadCompletion (k : Fin 256) (d : Option (List Byte)) (s : State) :
    exec (.dmaReadCompletion k d) s = execDmaReadCompletion k d s := rfl

/-! ## Words in memory -/

/-- A memory after words are written to one. -/
theorem memGet_memPuts (s : State) (m n : Mem) (a b : Nat) (ws : List Word) :
    memGet (memPuts s m a ws) n b = if n = m ∧ a ≤ b ∧ b < a + ws.length then memFresh (ws.getD (b - a) 0) else memGet s n b := by
  induction ws generalizing s a with
  | nil => simp [memPuts, show ¬(a ≤ b ∧ b < a) by omega]
  | cons w ws ih =>
    rw [memPuts, ih, memGet_memPut]
    by_cases hn : n = m
    · by_cases hfirst : b = a
      · simp [hn, hfirst]
      · by_cases hin : a + 1 ≤ b ∧ b < a + 1 + ws.length
        · have hidx : b - a = b - (a + 1) + 1 := by omega
          rw [if_pos ⟨hn, hin⟩, if_pos ⟨hn, by omega, by simp only [List.length_cons]; omega⟩, hidx, List.getD_cons_succ]
        · rw [if_neg (fun h => hin h.2), if_neg (fun h => hfirst h.2),
            if_neg (fun h => by simp only [List.length_cons] at h; omega)]
    · simp [hn]

/-- Word j that bytes spell. -/
theorem bytesWords_getD (n : Nat) (bs : List Byte) {j : Nat} (hj : j < n) :
    (bytesWords n bs).getD j 0 = bytesWord ((bs.drop (4 * j)).take 4) := by
  induction n generalizing bs j with
  | zero => omega
  | succ n ih =>
    cases j with
    | zero => rfl
    | succ j => rw [bytesWords, List.getD_cons_succ, ih _ (by omega), List.drop_drop, Nat.mul_add, Nat.add_comm]

@[simp] theorem length_bytesWords (n : Nat) (bs : List Byte) : (bytesWords n bs).length = n := by
  induction n generalizing bs with
  | zero => rfl
  | succ n ih => rw [bytesWords, List.length_cons, ih]

/-! ## Entries of the slot store -/

theorem tableEntry_slots (s : State) (bank i : Nat) (ws : List Word) :
    tableEntry s 4 bank i ws = count (memPuts s .slots (16 * i) ws) Reg.slotCounts 15 0 1 := by simp [tableEntry]

/-- An entry of the slot store is written as its 16 words. -/
theorem memGet_slotEntry (s : State) (bank i : Nat) (bs : List Byte) (x : Nat) :
    memGet (tableEntry s 4 bank i (bytesWords 16 bs)) .slots x =
      if 16 * i ≤ x ∧ x < 16 * i + 16 then memFresh (bytesWord ((bs.drop (4 * (x - 16 * i))).take 4)) else memGet s .slots x := by
  rw [tableEntry_slots, memGet_of_memOf (memOf_count _ _ _ _ _), memGet_memPuts, length_bytesWords]
  by_cases hx : 16 * i ≤ x ∧ x < 16 * i + 16
  · rw [if_pos ⟨rfl, hx⟩, if_pos hx, bytesWords_getD _ _ (by omega)]
  · rw [if_neg (fun h => hx h.2), if_neg hx]

/-- Entries of the slot store are written in ascending order. -/
theorem memGet_slotEntries (s : State) (bank i n : Nat) (bs : List Byte) (x : Nat) :
    memGet (tableEntries s 4 bank i n bs) .slots x =
      if 16 * i ≤ x ∧ x < 16 * (i + n) then memFresh (bytesWord ((bs.drop (4 * (x - 16 * i))).take 4)) else memGet s .slots x := by
  induction n generalizing s i bs with
  | zero => rw [tableEntries, if_neg (by omega)]
  | succ n ih =>
    have hstep : tableEntries s 4 bank i (n + 1) bs =
        tableEntries (tableEntry s 4 bank i (bytesWords 16 bs)) 4 bank (i + 1) n (bs.drop 64) := by simp [tableEntries, tableSize]
    rw [hstep, ih, memGet_slotEntry]
    by_cases hnext : 16 * (i + 1) ≤ x ∧ x < 16 * (i + 1 + n)
    · have hidx : 64 + 4 * (x - 16 * (i + 1)) = 4 * (x - 16 * i) := by omega
      rw [if_pos hnext, if_pos (by omega), List.drop_drop, hidx]
    · rw [if_neg hnext]
      by_cases hfirst : 16 * i ≤ x ∧ x < 16 * i + 16
      · rw [if_pos hfirst, if_pos (by omega)]
      · rw [if_neg hfirst, if_neg (by omega)]

/-! ## TABLE_WRITE -/

theorem tableRange_eq_true {id first n : Nat} (h : (tableSize id).1 < first + n) : tableRange id first n = true := by
  simpa [tableRange] using h

theorem tableRange_eq_false {id first n : Nat} (h : first + n ≤ (tableSize id).1) : tableRange id first n = false := by
  simpa [tableRange] using h

section TableWrite
variable {s : State} {k : Fin 256} {c : HostCmd} (hready : cmdReady s k 0x12 = some c)
include hready

theorem execTableWrite_range (h : (tableSize (fld (cmdW c 1) 7 0)).1 < (cmdW c 2).toNat + (cmdW c 3).toNat) :
    execTableWrite k s = .next (finish s k stBadParam 0 0) := by
  simp [execTableWrite, hready, tableRange_eq_true h]

theorem execTableWrite_starts (h : (cmdW c 2).toNat + (cmdW c 3).toNat ≤ (tableSize (fld (cmdW c 1) 7 0)).1)
    (hn : (cmdW c 3).toNat ≠ 0) (hfree : dmaFree s = true) :
    execTableWrite k s =
      .next (startFetch s k (addr64 (cmdW c 4) (cmdW c 5)) ((cmdW c 3).toNat * (tableSize (fld (cmdW c 1) 7 0)).2)) := by
  simp only [execTableWrite, hready, tableRange_eq_false h, hfree, Bool.false_eq_true, if_false, if_true]
  rw [if_neg (by simpa using hn)]

end TableWrite

/-- The bytes of the last read of a TABLE_WRITE of the slot store: its entries are written, and it finishes. -/
theorem tableData_slots {s : State} {k : Nat} {c : HostCmd} {f : Fetch} {m : Nat} (hat : cmdAt s k = some c)
    (hid : fld (cmdW c 1) 7 0 = 4) (hgot : c.got.length = 64 * m) (hrest : f.rest = 0) :
    cmdAt (tableData s k f) k = none
      ∧ memOf (tableData s k f) = memOf (tableEntries s 4 (idleBank s) ((cmdW c 2).toNat + c.done) m c.got) := by
  have hsize : (tableSize 4).2 = 64 := rfl
  have hm : c.got.length / 64 = m := by rw [hgot, Nat.mul_div_cancel_left _ (by decide)]
  unfold tableData
  simp only [hat, hid, hsize, hm, hrest, beq_self_eq_true, if_true]
  exact ⟨cmdAt_finish _ _ _ _ _, by simp⟩

/-! ## The end of a DMA read -/

section Fetched
variable {s : State} {k : Fin 256} {c : HostCmd} {f : Fetch} (halive : alive s = true) (hat : cmdAt s k = some c) (hfetch : c.fetch = some f)
  (hflash : c.flash = false) (hlen : f.len ≠ 0)
include halive hat hfetch hflash hlen

/-- The read that a command has outstanding returns its data. -/
theorem execDmaReadCompletion_data {data : List Byte} (hdata : data.length = f.len) :
    execDmaReadCompletion k (some data) s = .next (readPump (fetchData s c f data)) := by
  simp [execDmaReadCompletion, hat, hfetch, halive, hflash, hlen, hdata]

/-- The read that a command has outstanding faults. -/
theorem execDmaReadCompletion_fault : execDmaReadCompletion k none s = .next (readPump (fetchFault s c f)) := by
  simp [execDmaReadCompletion, hat, hfetch, halive, hflash, hlen]

end Fetched

/-- A fault finishes every command but a LOAD_PROGRAM alike. -/
theorem fetchFault_finishes {s : State} {c : HostCmd} {f : Fetch} (hop : cmdOp c ≠ 0x10) :
    ∃ st r, fetchFault s c f = finish (dmaFault s f.addr) c.slot st r 0 := by
  unfold fetchFault
  generalize dmaFault s f.addr = t
  rw [if_neg (by simpa using hop)]
  split
  · exact ⟨_, _, rfl⟩
  · exact ⟨_, _, rfl⟩

/-- The data of a TABLE_WRITE goes to its table. -/
theorem fetchData_table {s : State} {c : HostCmd} {f : Fetch} {data : List Byte} (hop : cmdOp c = 0x12) :
    fetchData s c f data = tableData (gotBytes s c.slot data) c.slot f := by
  simp [fetchData, flashGone, hop]

/-- The command that holds its bytes. -/
theorem cmdAt_gotBytes {s : State} {k : Nat} {c : HostCmd} (h : cmdAt s k = some c) (bs : List Byte) :
    cmdAt (gotBytes s k bs) k = some { c with got := c.got ++ bs } := by
  rw [gotBytes, cmdAt_setCmd, h]
  · rfl
  · exact fun _ => rfl

/-! ## TABLE_READ -/

/-- Good words that the host reads, with no injection armed, are answered as stored, and their read changes nothing. -/
theorem hostWords_good {s : State} {m : Mem} (index : Nat → Nat) (hi : s.integ.arms = []) {a n : Nat}
    (hg : ∀ j, j < n → memGood (memGet s m (a + j)) = true) :
    hostWords s m index a n = (s, (List.range n).map fun j => memWord s m (a + j)) := by
  induction n generalizing a with
  | zero => rfl
  | succ n ih =>
    have hrest : hostWords s m index (a + 1) n = (s, (List.range n).map fun j => memWord s m (a + 1 + j)) :=
      ih fun j hj => by rw [Nat.add_assoc, Nat.add_comm 1]; exact hg (j + 1) (by omega)
    have hfirst : memGood (memGet s m a) = true := hg 0 (by omega)
    rw [hostWords, memRead_good hi hfirst]
    simp [hrest, List.range_succ_eq_map, Nat.add_assoc, Nat.add_comm 1]

section TableRead
variable {s : State} {k : Fin 256} {c : HostCmd} (hready : cmdReady s k 0x13 = some c)
include hready

theorem execTableRead_range (h : (tableSize (fld (cmdW c 1) 7 0)).1 < (cmdW c 2).toNat + (cmdW c 3).toNat) :
    execTableRead k s = .next (finish s k stBadParam 0 0) := by
  simp [execTableRead, hready, tableRange_eq_true h]

theorem execTableRead_good (h : (cmdW c 2).toNat + (cmdW c 3).toNat ≤ (tableSize (fld (cmdW c 1) 7 0)).1) (hmem : hostMem s = true)
    (hi : s.integ.arms = []) {m : Mem} (hm : tableMem (fld (cmdW c 1) 7 0) = m) {words base : Nat}
    (hwords : (tableSize (fld (cmdW c 1) 7 0)).2 / 4 = words)
    (hbase : memBank m * tableBank s (cmdW c 1) + words * (cmdW c 2).toNat = base)
    (hg : ∀ j, j < words * (cmdW c 3).toNat → memGood (memGet s m (base + j)) = true) :
    execTableRead k s = .next (finish (dmaWrite s (addr64 (cmdW c 4) (cmdW c 5))
      (wordsBytes ((List.range (words * (cmdW c 3).toNat)).map fun j => memWord s m (base + j)))) k stDone (cmdW c 3).toNat 0) := by
  simp only [execTableRead, hready, tableRange_eq_false h, hmem, hm, hwords, hbase, Bool.false_eq_true, if_false, Bool.not_true,
    hostWords_good _ hi hg]

end TableRead

/-! ## QUOTA_SET -/

/-- A talker word after a word of an entry is written. -/
theorem talkW_setTalkW (s : State) (i j w x : Nat) (v : Word) :
    talkW (setTalkW s i w v) j x = if 16 * j + x = 16 * i + w then v else talkW s j x := by
  simp [talkW, setTalkW]

/-- A memory after a word of a talker entry is written. -/
theorem memGet_setTalkW (s : State) {i w x : Nat} (v : Word) (h : x ≠ 16 * i + w) :
    memGet (setTalkW s i w v) .talkers x = memGet s .talkers x := by
  simp [setTalkW, h]

/-- The sentence tokens of an entry, clipped. -/
def sentencesClipped (s : State) (i : Nat) : State :=
  setTalkW s i 9 (BitVec.ofNat 32 (min (fld (talkW s i 9) 23 0) (fld (talkW s i 4) 15 0 * 256)))

theorem talkW_sentencesClipped (s : State) (i x : Nat) :
    talkW (sentencesClipped s i) i x =
      if x = 9 then BitVec.ofNat 32 (min (fld (talkW s i 9) 23 0) (fld (talkW s i 4) 15 0 * 256)) else talkW s i x := by
  simp [sentencesClipped, talkW_setTalkW]

/-- Then the ply tokens are. -/
theorem clipBuckets_eq (s : State) (i : Nat) :
    clipBuckets s i =
      if fld (talkW s i 5) 15 0 * 16 = 0 ∨ ((fld (talkW s i 5) 15 0 * 16 : Nat) : Int) < (talkW s i 10).toInt then
        setTalkW (sentencesClipped s i) i 10 (BitVec.ofNat 32 (fld (talkW s i 5) 15 0 * 16))
      else sentencesClipped s i := by
  have h5 : talkW (sentencesClipped s i) i 5 = talkW s i 5 := by simp [talkW_sentencesClipped]
  have h10 : talkW (sentencesClipped s i) i 10 = talkW s i 10 := by simp [talkW_sentencesClipped]
  rw [← h5, ← h10]
  simp only [clipBuckets, Bool.or_eq_true, beq_iff_eq, decide_eq_true_eq, sentencesClipped]
  congr 1

/-- Sentence tokens are at most their depth (R164, R166). -/
theorem talkW_clipBuckets_sentences (s : State) (i : Nat) :
    (talkW (clipBuckets s i) i 9).toNat = min (fld (talkW s i 9) 23 0) (fld (talkW s i 4) 15 0 * 256) := by
  have hlt := fld_lt (talkW s i 9) 23 0
  have hclip : (talkW (sentencesClipped s i) i 9).toNat = min (fld (talkW s i 9) 23 0) (fld (talkW s i 4) 15 0 * 256) := by
    rw [talkW_sentencesClipped, if_pos rfl, BitVec.toNat_ofNat]
    omega
  rw [clipBuckets_eq]
  split
  · rw [talkW_setTalkW, if_neg (by omega), hclip]
  · exact hclip

/-- Ply tokens are at most their depth, and 0 at a depth of 0 (R164, R166). -/
theorem talkW_clipBuckets_plies (s : State) (i : Nat) :
    (talkW (clipBuckets s i) i 10).toInt = if fld (talkW s i 5) 15 0 = 0 then 0
      else min (talkW s i 10).toInt (fld (talkW s i 5) 15 0 * 16 : Nat) := by
  have hlt := fld_lt (talkW s i 5) 15 0
  generalize hd : fld (talkW s i 5) 15 0 = d at hlt
  have hfull : (BitVec.ofNat 32 (d * 16)).toInt = (d * 16 : Nat) := by
    rw [BitVec.toInt_eq_toNat_of_lt] <;> rw [BitVec.toNat_ofNat] <;> omega
  rw [clipBuckets_eq, hd]
  split
  · rename_i h
    rw [talkW_setTalkW, if_pos rfl, hfull]
    split <;> omega
  · rename_i h
    rw [talkW_sentencesClipped, if_neg (by decide)]
    split <;> omega

/-- Only the tokens change. -/
theorem memGet_clipBuckets {s : State} {i x : Nat} (h9 : x ≠ 16 * i + 9) (h10 : x ≠ 16 * i + 10) :
    memGet (clipBuckets s i) .talkers x = memGet s .talkers x := by
  rw [clipBuckets_eq]
  split
  · rw [memGet_setTalkW _ _ h10, sentencesClipped, memGet_setTalkW _ _ h9]
  · rw [sentencesClipped, memGet_setTalkW _ _ h9]

section QuotaSet
variable {s : State} {k : Fin 256} {c : HostCmd} (hready : cmdReady s k 0x25 = some c)
include hready

theorem execQuotaSet_eq : execQuotaSet k s = .next (quotaSet s k (cmdW c 1) (cmdW c 2) (cmdW c 3)) := by
  simp [execQuotaSet, hready]

end QuotaSet

/-- A quota outside its table, or too large, is refused. -/
theorem quotaSet_refused {s : State} {k : Nat} {w1 w2 w3 : Word}
    (h : (fld w1 1 0 = 3 ∧ (1023 < w2.toNat ∨ 24576 < fld w3 14 0)) ∨ fld w1 1 0 ≠ 3 ∧ 4095 < w2.toNat) :
    quotaSet s k w1 w2 w3 = finish s k stBadParam 0 0 := by
  rcases h with ⟨hkind, h⟩ | ⟨hkind, h⟩
  · have hcond : (decide (1023 < w2.toNat) || decide (24576 < fld w3 14 0)) = true := by simpa using h
    simp only [quotaSet, hkind, beq_self_eq_true, if_true, hcond]
  · simp only [quotaSet, beq_eq_false_iff_ne.2 hkind, h, Bool.false_eq_true, if_false, if_true]

/-- The quota of a listener (R229). -/
theorem quotaSet_listener {s : State} {k : Nat} {w1 w2 w3 : Word} (hkind : fld w1 1 0 = 3) (hi : w2.toNat ≤ 1023) (hq : fld w3 14 0 ≤ 24576) :
    quotaSet s k w1 w2 w3 = finish (setReg s (Reg.lqQuota w2.toNat) (BitVec.ofNat 32 (fld w3 14 0))) k stDone 0 0 := by
  have hcond : (decide (1023 < w2.toNat) || decide (24576 < fld w3 14 0)) = false := by simp [hi, hq]
  simp only [quotaSet, hkind, beq_self_eq_true, if_true, hcond, Bool.false_eq_true, if_false]

/-- A quiet read of a good word of a talker entry changes nothing. -/
theorem talkerCheck_good {s : State} {i w : Nat} (hi : s.integ.arms = []) (hg : memGood (memGet s .talkers (16 * i + w)) = true)
    (reader : Nat) (readers : List Nat) : talkerCheck s i reader readers [w] = s := by
  simp [talkerCheck, talkerRead, memRead_good hi hg]

/-- The sentence quota of a valid talker (R166). -/
theorem quotaSet_sentences {s : State} {k : Nat} {w1 w2 w3 : Word} (hkind : fld w1 1 0 = 0) (hle : w2.toNat ≤ 4095)
    (hi : s.integ.arms = []) (hv : talkerValid s w2.toNat = true) (hg : memGood (memGet s .talkers (16 * w2.toNat + 3)) = true) :
    quotaSet s k w1 w2 w3 = finish (clipBuckets (setTalkW s w2.toNat 4 w3) w2.toNat) k stDone 0 0 := by
  simp only [quotaSet, hkind, talkerCheck_good hi hg, hv, Nat.not_lt.2 hle, if_false, talkerQuota]
  rfl

end Sys2Proof.Machine

namespace Sys2Proof.Proofs
open Sys2Proof.Machine

/-- Settles O35: the three commands and the two ends of a DMA read, each by what it does to tables, memory and completions. -/
theorem tablesAndQuotas : Obligations.TablesAndQuotas := by
  unfold Obligations.TablesAndQuotas
  intro s k c
  dsimp only
  refine ⟨fun hr h => execTableWrite_range hr h, fun hr h hn hfree => ?_, ?_, ?_, fun hr h => execTableRead_range hr h,
    fun hr h hmem hi hg => execTableRead_good hr h hmem hi rfl rfl rfl hg, ?_, ?_, ?_⟩
  · exact ⟨_, execTableWrite_starts hr h hn hfree, rfl, rfl⟩
  · intro f data m halive hat hop hid hfetch hflash hgot hrest hlen hm hdata
    have hrun := execDmaReadCompletion_data halive hat hfetch hflash (by omega) hdata
    rw [fetchData_table hop, slot_of_cmdAt hat] at hrun
    obtain ⟨hgone, hmems⟩ := tableData_slots (cmdAt_gotBytes hat data) hid (by rw [hgot, List.nil_append, hdata, hlen]) hrest
    have hkept := fetchKept_readPump (tableData (gotBytes s k data) k f)
    refine ⟨_, (exec_dmaReadCompletion _ _ s).trans hrun, hkept.cmdAt_none hgone, fun x => ?_⟩
    rw [memGet_of_memOf (hkept.mems.trans hmems), memGet_slotEntries, memGet_of_memOf (memOf_gotBytes s k data), hgot, List.nil_append]
    rfl
  · intro f halive hat hop hfetch hflash hlen
    obtain ⟨st, r, hfault⟩ := fetchFault_finishes (s := s) (f := f) hop
    have hrun := execDmaReadCompletion_fault halive hat hfetch hflash hlen
    rw [hfault, slot_of_cmdAt hat] at hrun
    have hkept := fetchKept_readPump (finish (dmaFault s f.addr) k st r 0)
    have hreg : ∀ off, ¬ringReg off → reg (readPump (finish (dmaFault s f.addr) k st r 0)) off = reg (dmaFault s f.addr) off :=
      fun off h => (hkept.reg off).trans (reg_finish _ _ _ _ _ h)
    refine ⟨_, (exec_dmaReadCompletion _ _ s).trans hrun, hkept.cmdAt_none (cmdAt_finish _ _ _ _ _), ?_, fun hs => ?_, fun off hoff hmem => ?_⟩
    · rw [hkept.total, total_finish, total_dmaFault]
    · rw [hreg _ (by unfold ringReg; decide), hreg _ (by unfold ringReg; decide)]
      exact reg_dmaFault_addr hs f.addr
    · rw [hreg off hoff]
      exact sameRegs_dmaFault s f.addr off hmem
  · intro hr hkind hle hq
    rw [exec_quotaSet, execQuotaSet_eq hr, quotaSet_listener hkind hle hq]
  · intro hr hkind hle hi hv hg
    have hmems := memOf_finish (clipBuckets (setTalkW s (cmdW c 2).toNat 4 (cmdW c 3)) (cmdW c 2).toNat) k stDone 0 0
    have hw := fun x => memWord_of_memOf hmems .talkers (16 * (cmdW c 2).toNat + x)
    have hset := fun x => talkW_setTalkW s (cmdW c 2).toNat (cmdW c 2).toNat 4 x (cmdW c 3)
    refine ⟨_, (exec_quotaSet k s).trans ((execQuotaSet_eq hr).trans (congrArg _ (quotaSet_sentences hkind hle hi hv hg))),
      cmdAt_finish _ _ _ _ _, (hw 4).trans ?_, ?_, ?_, fun x h4 h9 h10 => ?_⟩
    · rw [memWord, memGet_clipBuckets (by omega) (by omega)]
      exact (hset 4).trans (if_pos rfl)
    · rw [show talkW _ _ 9 = _ from hw 9]
      refine (talkW_clipBuckets_sentences _ _).trans ?_
      simp [hset]
    · rw [show talkW _ _ 10 = _ from hw 10]
      refine (talkW_clipBuckets_plies _ _).trans ?_
      simp [hset]
    · rw [memGet_of_memOf hmems, memGet_clipBuckets h9 h10, memGet_setTalkW _ _ h4]
  · intro hr h
    rw [exec_quotaSet, execQuotaSet_eq hr, quotaSet_refused h]

end Sys2Proof.Proofs
end

section
/-! # The flash commands (R46, R47, R344) -/

namespace Sys2Proof.Machine

/-! ## The dispatch -/

theorem exec_flashRead (k : Fin 256) (s : State) : exec (.flashRead k) s = execFlashRead k s := rfl

theorem exec_flashWrite (k : Fin 256) (s : State) : exec (.flashWrite k) s = execFlashWrite k s := rfl

theorem exec_flashErase (k : Fin 256) (s : State) : exec (.flashErase k) s = execFlashErase k s := rfl

theorem exec_flashOperationEnd (k : Fin 256) (ok : Bool) (data : List Byte) (s : State) :
    exec (.flashOperationEnd k ok data) s = execFlashOperationEnd k ok data s := rfl

/-! ## What the shared operations leave -/

/-- One thing left the hub, and beside it only the host interface changed. -/
def Moved (s t : State) (o : Out) : Prop := t.out = s.out ++ [o] ∧ t = { s with host := t.host, out := t.out }

theorem moved_emit_setCmd (s : State) (k : Nat) (f : HostCmd → HostCmd) (o : Out) : Moved s (emit (setCmd s k f) o) o := ⟨rfl, rfl⟩

/-- A change of a command before does not show. -/
theorem Moved.of_setCmd {s t : State} {k : Nat} {f : HostCmd → HostCmd} {o : Out} (h : Moved (setCmd s k f) t o) : Moved s t o := by
  obtain ⟨hout, hframe⟩ := h
  exact ⟨hout, hframe⟩

theorem moved_flashOut (s : State) (k op off : Nat) (bs : List Byte) (len rest : Nat) :
    Moved s (flashOut s k op off bs len rest) (.flash op off bs len) := moved_emit_setCmd s k _ _

/-- The command of a flash operation that starts. -/
theorem cmdAt_flashOut {s : State} {k : Nat} {c : HostCmd} (h : cmdAt s k = some c) (op off : Nat) (bs : List Byte) (len rest : Nat) :
    cmdAt (flashOut s k op off bs len rest) k = some { c with phase := .running, flash := true, fetch := some ⟨off, len, rest⟩ } := by
  have hset := cmdAt_setCmd s k (f := fun c => { c with phase := .running, flash := true, fetch := some ⟨off, len, rest⟩ }) fun _ => rfl
  rw [h] at hset
  exact hset

/-- A flash command on a wedged flash, and one that runs (R344). -/
theorem flashCmd_wedged {s : State} {k op : Nat} {c : HostCmd} (hr : cmdReady s k op = some c) (hw : isWedged s unitFlash = true)
    (run : HostCmd → State) : flashCmd s k op run = finish s k stWedged 0 0 := by
  simp [flashCmd, hr, hw]

theorem flashCmd_runs {s : State} {k op : Nat} {c : HostCmd} (hr : cmdReady s k op = some c) (hw : isWedged s unitFlash = false)
    (run : HostCmd → State) : flashCmd s k op run = run c := by
  simp [flashCmd, hr, hw]

/-! ## A read of host memory that goes on -/

/-- A command that waits for no bytes of host memory is not counted among the reads outstanding. -/
theorem readsOut_setCmd_le (s : State) (k : Nat) {f : HostCmd → HostCmd}
    (hf : ∀ c, (f c).flash = true ∨ (f c).fetch = none ∨ ∃ g, (f c).fetch = some g ∧ g.len = 0) :
    readsOut (setCmd s k f) ≤ readsOut s := by
  have hidle : ∀ c, (!(f c).flash && ((f c).fetch.map (fun f => decide (0 < f.len))).getD false) = false := by
    intro c
    rcases hf c with h | h | ⟨g, h, hg⟩
    · simp [h]
    · simp [h]
    · simp [h, hg]
  unfold readsOut
  refine Nat.add_le_add_right (Nat.add_le_add_right ?_ _) _
  rw [setCmd_host, List.filter_map, List.length_map]
  refine List.Sublist.length_le (List.monotone_filter_right _ fun c hc => ?_)
  by_cases hk : c.slot = k
  · simp [hk, hidle] at hc
  · simpa [hk] using hc

theorem dmaFree_setCmd {s : State} (h : dmaFree s = true) (k : Nat) {f : HostCmd → HostCmd}
    (hf : ∀ c, (f c).flash = true ∨ (f c).fetch = none ∨ ∃ g, (f c).fetch = some g ∧ g.len = 0) : dmaFree (setCmd s k f) = true := by
  simp only [dmaFree, Bool.and_eq_true, decide_eq_true_eq, hostMem_setCmd] at h ⊢
  exact ⟨h.1, (readsOut_setCmd_le s k hf).trans_lt h.2⟩

/-- Two changes of one command are one. -/
theorem setCmd_setCmd (s : State) (k : Nat) {f : HostCmd → HostCmd} (g : HostCmd → HostCmd) (hf : ∀ c, (f c).slot = c.slot) :
    setCmd (setCmd s k f) k g = setCmd s k (fun c => g (f c)) := by
  simp only [setCmd, List.map_map]
  congr 3
  funext c
  by_cases hk : c.slot = k <;> simp [hk, hf]

/-- The next request of a read leaves the hub where it may. -/
theorem moved_sendFetch {s : State} {k addr rest : Nat}
    (h : dmaFree (setCmd s k fun c => { c with fetch := some ⟨addr, 0, rest⟩ }) = true) :
    Moved s (sendFetch s k addr rest) (.dmaRead k addr (readChunk addr rest)) := by
  unfold sendFetch
  rw [if_pos h]
  exact (moved_emit_setCmd _ k _ _).of_setCmd

/-! ## The commands -/

/-- A word that is not 0. -/
theorem word_beq_zero {w : Word} (h : w.toNat ≠ 0) : (w == 0) = false := by
  rw [beq_eq_false_iff_ne]
  rintro rfl
  exact h rfl

/-- A FLASH_READ reads its first page. -/
theorem execFlashRead_starts {s : State} {k : Fin 256} {c : HostCmd} (hr : cmdReady s k 0x80 = some c) (hw : isWedged s unitFlash = false)
    (hlen : (cmdW c 4).toNat ≠ 0) :
    execFlashRead k s = .next (flashStart s k (cmdW c 3).toNat (cmdW c 4).toNat) := by
  rw [execFlashRead, flashCmd_runs hr hw, word_beq_zero hlen]
  rfl

/-- A FLASH_WRITE reads the bytes of its first page from host memory. -/
theorem flashWriteNext_starts {s : State} {k : Nat} {c : HostCmd} (hat : cmdAt s k = some c) (hlen : c.done < (cmdW c 4).toNat)
    (hfree : dmaFree s = true) :
    Moved s (flashWriteNext s k)
      (.dmaRead k (addr64 (cmdW c 1) (cmdW c 2) + c.done) (readChunk (addr64 (cmdW c 1) (cmdW c 2) + c.done) (flashPage c))) := by
  unfold flashWriteNext
  simp only [hat, Nat.not_le.2 hlen, if_false]
  refine (moved_sendFetch ?_).of_setCmd
  rw [setCmd_setCmd]
  · exact dmaFree_setCmd hfree k fun _ => .inr (.inr ⟨_, rfl, rfl⟩)
  · exact fun _ => rfl

theorem execFlashErase_past {s : State} {k : Fin 256} {c : HostCmd} {size : Nat} (hr : cmdReady s k 0x82 = some c)
    (hw : isWedged s unitFlash = false) (hsize : s.host.flashSize = some size) (h : size < (cmdW c 3).toNat + (cmdW c 4).toNat) :
    execFlashErase k s = .next (finish s k stBadParam 0 0) := by
  have hpast : flashPast s c = true := by simp [flashPast, hsize, h]
  rw [execFlashErase, flashCmd_runs hr hw, hpast]
  rfl

/-- A FLASH_ERASE within its device erases its first page. -/
theorem execFlashErase_starts {s : State} {k : Fin 256} {c : HostCmd} (hr : cmdReady s k 0x82 = some c) (hw : isWedged s unitFlash = false)
    (hlen : (cmdW c 4).toNat ≠ 0) (hin : ∀ size, s.host.flashSize = some size → (cmdW c 3).toNat + (cmdW c 4).toNat ≤ size) :
    execFlashErase k s = .next (flashOut s k 2 (cmdW c 3).toNat [] 4096 ((cmdW c 4).toNat - 4096)) := by
  have hpast : flashPast s c = false := by
    unfold flashPast
    cases hsize : s.host.flashSize with
    | none => rfl
    | some size => simpa using hin size hsize
  rw [execFlashErase, flashCmd_runs hr hw, hpast, word_beq_zero hlen]
  rfl

/-! ## The ends of operations -/

section Ended
variable {s : State} {k : Fin 256} {c : HostCmd} {f : Fetch} {data : List Byte} (halive : alive s = true) (hat : cmdAt s k = some c)
  (hflash : c.flash = true) (hfetch : c.fetch = some f)
include halive hat hflash hfetch

/-- An operation that ends with an error. -/
theorem execFlashOperationEnd_error : execFlashOperationEnd k false data s = .next (flashFault s c) := by
  simp [execFlashOperationEnd, hat, hfetch, halive, hflash]

/-- An operation that ends. -/
theorem execFlashOperationEnd_done (hfits : flashFits c f data = true) : execFlashOperationEnd k true data s = .next (flashEnd s c f data) := by
  simp [execFlashOperationEnd, hat, hfetch, halive, hflash, hfits]

end Ended

theorem flashFault_other {s : State} {c : HostCmd} (hop : cmdOp c ≠ 0x10) : flashFault s c = finish s c.slot stFlashFault c.aux 0 := by
  simp [flashFault, hop]

theorem flashEnd_read {s : State} {c : HostCmd} {f : Fetch} {data : List Byte} (hop : cmdOp c = 0x80) (hmem : hostMem s = true) :
    flashEnd s c f data = flashReadEnd s c f data := by
  simp [flashEnd, hop, hmem]

theorem flashEnd_write {s : State} {c : HostCmd} {f : Fetch} {data : List Byte} (hop : cmdOp c = 0x81) :
    flashEnd s c f data = flashWriteEnd s c f data := by
  simp [flashEnd, hop]

theorem flashEnd_erase {s : State} {c : HostCmd} {f : Fetch} {data : List Byte} (hop : cmdOp c = 0x82) :
    flashEnd s c f data = flashEraseEnd s c f := by
  simp [flashEnd, hop]

/-- The last page of a FLASH_READ. -/
theorem flashReadEnd_last {s : State} {c : HostCmd} {f : Fetch} (hrest : f.rest = 0) (data : List Byte) :
    flashReadEnd s c f data = finish (dmaWrite s (addr64 (cmdW c 1) (cmdW c 2) + c.done) data) c.slot stDone (c.aux + 1) 0 := by
  simp [flashReadEnd, hrest]

/-- A page that has been programmed is read back. -/
theorem flashWriteEnd_programmed {s : State} {c : HostCmd} {f : Fetch} (hrest : f.rest = 0) (data : List Byte) :
    flashWriteEnd s c f data = flashOut s c.slot 0 f.addr [] f.len 1 := by
  simp [flashWriteEnd, hrest]

/-- A page that reads back differently. -/
theorem flashWriteEnd_differs {s : State} {c : HostCmd} {f : Fetch} {data : List Byte} (hrest : f.rest ≠ 0) (hdata : data ≠ c.got) :
    flashWriteEnd s c f data = finish s c.slot stFlashFault c.aux 0 := by
  simp [flashWriteEnd, hrest, hdata]

/-- The last page of a FLASH_ERASE. -/
theorem flashEraseEnd_last {s : State} {c : HostCmd} {f : Fetch} (hrest : f.rest = 0) :
    flashEraseEnd s c f = finish s c.slot stDone (c.aux + 1) 0 := by
  simp [flashEraseEnd, hrest]

/-- Another page of a FLASH_ERASE: the next one is erased. -/
theorem moved_flashEraseEnd_more {s : State} {c : HostCmd} {f : Fetch} (hrest : f.rest ≠ 0) :
    Moved s (flashEraseEnd s c f) (.flash 2 (f.addr + 4096) [] 4096) := by
  rw [flashEraseEnd, if_neg (by simpa using hrest)]
  exact (moved_flashOut _ _ _ _ _ _ _).of_setCmd

end Sys2Proof.Machine

namespace Sys2Proof.Proofs
open Sys2Proof.Machine

/-- Settles O36: how each command starts, and how its operations end, each by its lemma. -/
theorem flashCommands : Obligations.FlashCommands := by
  unfold Obligations.FlashCommands
  intro s k c f data
  dsimp only
  refine ⟨fun hw => ⟨fun hr => ?_, fun hr => ?_, fun hr => ?_⟩, fun hw hlen => ⟨fun hr => ?_, fun hr hdone hfree => ?_,
    fun size hr hsize h => ?_, fun hr hin => ?_⟩, fun halive hat hflash hfetch => ?_⟩
  · rw [exec_flashRead, execFlashRead, flashCmd_wedged hr hw]
  · rw [exec_flashWrite, execFlashWrite, flashCmd_wedged hr hw]
  · rw [exec_flashErase, execFlashErase, flashCmd_wedged hr hw]
  · exact ⟨_, (exec_flashRead k s).trans (execFlashRead_starts hr hw hlen), moved_flashOut _ _ _ _ _ _ _,
      cmdAt_flashOut (cmdAt_of_ready hr) _ _ _ _ _⟩
  · have hmoved := flashWriteNext_starts (cmdAt_of_ready hr) (by omega) hfree
    simp only [hdone, flashPage, Nat.add_zero, Nat.sub_zero] at hmoved
    refine ⟨_, (exec_flashWrite k s).trans ?_, hmoved⟩
    rw [execFlashWrite, flashCmd_runs hr hw, if_pos hfree]
  · rw [exec_flashErase, execFlashErase_past hr hw hsize h]
  · exact ⟨_, (exec_flashErase k s).trans (execFlashErase_starts hr hw hlen hin), moved_flashOut _ _ _ _ _ _ _,
      cmdAt_flashOut (cmdAt_of_ready hr) _ _ _ _ _⟩
  · have hslot := slot_of_cmdAt hat
    have hdone := fun hfits => (exec_flashOperationEnd k true data s).trans (execFlashOperationEnd_done halive hat hflash hfetch hfits)
    refine ⟨fun hop => ?_, fun hop hdata hmem hrest => ?_, fun hop hrest => ?_, fun hop hrest hdata hne => ?_, fun hop hrest => ?_,
      fun hop hrest => ?_⟩
    · rw [exec_flashOperationEnd, execFlashOperationEnd_error halive hat hflash hfetch, flashFault_other hop, hslot]
    · rw [hdone (by simp [flashFits, hdata]), flashEnd_read hop hmem, flashReadEnd_last hrest, hslot]
      rfl
    · refine ⟨_, hdone (by simp [flashFits, hop, hrest]), ?_⟩
      rw [flashEnd_write hop, flashWriteEnd_programmed hrest]
      exact moved_flashOut _ _ _ _ _ _ _
    · rw [hdone (by simp [flashFits, hdata]), flashEnd_write hop, flashWriteEnd_differs hrest hne, hslot]
    · rw [hdone (by simp [flashFits, hop]), flashEnd_erase hop, flashEraseEnd_last hrest, hslot]
    · refine ⟨_, hdone (by simp [flashFits, hop]), ?_⟩
      rw [flashEnd_erase hop]
      exact moved_flashEraseEnd_more hrest

end Sys2Proof.Proofs
end

section
/-! # Injection, snapshots and forced accumulations (R36, R84, R85, R339) -/

namespace Sys2Proof.Machine

/-! ## The dispatch -/

theorem exec_injectArm (k : Fin 256) (s : State) : exec (.injectArm k) s = execInjectArm k s := rfl

theorem exec_calRun (k : Fin 256) (s : State) : exec (.calRun k) s = execCalRun k s := rfl

/-! ## Arms (R339) -/

/-- The place of an arm in the injection unit. -/
def armAt (s : State) (a : Nat) : Option Arm := sget none s.integ.arms a

theorem armAt_setArm (s : State) (a b : Nat) (v : Option Arm) : armAt (setArm s a v) b = if b = a then v else armAt s b := by
  simp [armAt, setArm]

@[simp] theorem reg_setArm (s : State) (a : Nat) (v : Option Arm) (off : Nat) : reg (setArm s a v) off = reg s off := rfl

/-- The arm of a detector is gone, and the others stay. -/
theorem armAt_armClear (s : State) (d b : Nat) :
    armAt (armClear s d) b = armAt s b ∨ (armAt (armClear s d) b = none ∧ (armOf s d).map (·.1) = some b) := by
  unfold armClear
  split
  · rename_i a x h
    by_cases hb : b = a
    · exact .inr ⟨by rw [armAt_setArm, if_pos hb], by rw [h, hb]; rfl⟩
    · exact .inl (by rw [armAt_setArm, if_neg hb])
  · exact .inl rfl

/-- Clearing an arm changes the arms alone. -/
theorem armClear_frame (s : State) (d : Nat) : ∃ m, armClear s d = { s with integ := { s.integ with arms := m } } := by
  unfold armClear
  split
  · exact ⟨_, rfl⟩
  · exact ⟨s.integ.arms, rfl⟩

/-- An arm of mode 0 is none. -/
theorem armSet_off (s : State) (d n unit : Nat) (isolate : Bool) : armSet s d 0 n unit isolate = armClear s d := by
  simp [armSet]

/-- An arm that does not isolate takes its place. -/
theorem armSet_on (s : State) {d mode : Nat} (n unit : Nat) (hmode : mode ≠ 0) :
    armSet s d mode n unit false =
      setArm (armClear s d) (armPlace (armClear s d) d) (some ⟨d, mode, n, n, unit, false, (armClear s d).time.tb⟩) := by
  simp [armSet, hmode]

section InjectArm
variable {s : State} {k : Fin 256} {c : HostCmd} (hready : cmdReady s k 0x03 = some c)
include hready

theorem execInjectArm_bad
    (h : armBad s (fld (cmdW c 1) 6 0) (fld (cmdW c 1) 9 8) (cmdW c 2).toNat (fld (cmdW c 3) 15 0) (bit (cmdW c 1) 12) = true) :
    execInjectArm k s = .next (finish s k stBadParam 0 0) := by
  simp [execInjectArm, hready, h]

theorem execInjectArm_good
    (h : armBad s (fld (cmdW c 1) 6 0) (fld (cmdW c 1) 9 8) (cmdW c 2).toNat (fld (cmdW c 3) 15 0) (bit (cmdW c 1) 12) = false) :
    execInjectArm k s = .next (finish
      (armSet s (fld (cmdW c 1) 6 0) (fld (cmdW c 1) 9 8) (cmdW c 2).toNat (fld (cmdW c 3) 15 0) (bit (cmdW c 1) 12)) k stDone 0 0) := by
  simp [execInjectArm, hready, h]

end InjectArm

/-- A finished command leaves the injection unit. -/
theorem armAt_finish (s : State) (k st r0 r1 a : Nat) : armAt (finish s k st r0 r1) a = armAt s a := by
  obtain ⟨r, g, o, fr, hd, h⟩ := finish_frame s k st r0 r1
  rw [h]
  rfl

theorem armAt_finish_setArm (s : State) (k : Nat) (v : Option Arm) (st r0 r1 : Nat) {a b : Nat} (h : b ≠ a) :
    armAt (finish (setArm s a v) k st r0 r1) b = armAt s b := by
  rw [armAt_finish, armAt_setArm, if_neg h]

/-- The duration of an arm of mode 3 runs out. -/
theorem execInjectionDurationEnd_due {s : State} {e : BitVec 7} {a : Nat} {x : Arm} (harm : armOf s e.toNat = some (a, x))
    (ht : ticking s = true) (hmode : x.mode = 3) (hdue : x.n * 250 ≤ s.time.tb - x.startTb) :
    execInjectionDurationEnd e s = .next (setArm s a none) := by
  simp [execInjectionDurationEnd, harm, ht, hmode, Config.tickUs, sinceTb, hdue]

/-! ## Snapshots (R36, R85) -/

theorem execStatsSnapshot_runs {s : State} {k : Fin 256} {c : HostCmd} (hr : cmdReady s k 0x02 = some c) (hmem : hostMem s = true) :
    execStatsSnapshot k s = .next (finish (dmaWrite s (addr64 (cmdW c 1) (cmdW c 2))
      (wordsBytes ((List.range ((cmdW c 3).toNat / 4)).map fun i => statWord s (4 * i)))) k stDone ((cmdW c 3).toNat / 64) 0) := by
  simp [execStatsSnapshot, hr, hmem]

/-- A snapshot of a calibration table has 33 blocks (R85). -/
theorem execCalSnapshot_runs {s : State} {k : Fin 256} {c : HostCmd} (hr : cmdReady s k 0x34 = some c) (hmem : hostMem s = true) :
    execCalSnapshot k s = .next (finish (dmaWrite s (addr64 (cmdW c 2) (cmdW c 3))
      ((calSnapBytes s (fld (cmdW c 1) 2 0)).take (64 * min 33 ((cmdW c 4).toNat / 64)))) k stDone (min 33 ((cmdW c 4).toNat / 64))
        (bufEpoch (region s (fld (cmdW c 1) 2 0)) (region s (fld (cmdW c 1) 2 0)).newest)) := by
  simp [execCalSnapshot, hr, hmem, wholeBlocks]

/-! ## CAL_RUN (R84) -/

/-- A region in a forced accumulation that begins now. -/
def forcedRegion (s : State) (k : Nat) (r : Region) : Region :=
  { r with
    mode := .forced, run := some k, waiting := none, hist := [], hits := 0, live := 0, startTb := s.time.tb, ctl := reg s Reg.calCtrl,
    target := reg s Reg.calHits }

theorem calForce_eq (s : State) (k g : Nat) : calForce s k g = setRegion s g (forcedRegion s k (region s g)) := by
  simp [calForce, newInterval, forcedRegion, setRegion, region]

/-- Regions forced one after another change the regions alone, and each of them as if it were alone. -/
theorem foldl_calForce (k : Nat) (gs : List Nat) (s : State) :
    (∃ m, gs.foldl (fun s g => calForce s k g) s = { s with regions := m })
      ∧ ∀ g, region (gs.foldl (fun s g => calForce s k g) s) g = if g ∈ gs then forcedRegion s k (region s g) else region s g := by
  induction gs generalizing s with
  | nil => exact ⟨⟨s.regions, rfl⟩, fun g => rfl⟩
  | cons h gs ih =>
    obtain ⟨⟨m, hm⟩, hregion⟩ := ih (calForce s k h)
    have hsettings : ∀ r, forcedRegion (calForce s k h) k r = forcedRegion s k r := fun r => by rw [calForce_eq]; rfl
    have htwice : ∀ r, forcedRegion s k (forcedRegion s k r) = forcedRegion s k r := fun r => rfl
    refine ⟨⟨m, ?_⟩, fun g => ?_⟩
    · rw [List.foldl_cons, hm, calForce_eq]
      rfl
    · rw [List.foldl_cons, hregion, hsettings, calForce_eq, region_setRegion]
      by_cases hg : g = h
      · simp [hg, htwice]
      · simp [hg]

/-- The regions of a mask. -/
theorem mem_maskRegions {w : Word} {g : Nat} : g ∈ (List.range 8).filter (fun g => bit w g) ↔ g < 8 ∧ bit w g = true := by simp

/-- The mask names no region exactly when its byte is 0. -/
theorem maskRegions_eq_nil_iff (w : Word) : (List.range 8).filter (fun g => bit w g) = [] ↔ fld w 7 0 = 0 := by
  have hbit : ∀ g, g < 8 → (bit w g = true ↔ (fld w 7 0).testBit g = true) := by
    intro g hg
    simp [bit_eq, testBit_fld, hg, BitVec.getLsbD]
  rw [List.filter_eq_nil_iff]
  constructor
  · intro h
    refine Nat.eq_of_testBit_eq fun i => ?_
    rw [Nat.zero_testBit]
    by_cases hi : i < 8
    · rw [← Bool.not_eq_true, ← hbit i hi]
      exact h i (List.mem_range.2 hi)
    · rw [testBit_fld]
      simp [hi]
  · intro h g hg
    rw [hbit g (List.mem_range.1 hg), h]
    simp

/-- A CAL_RUN of no region is done at once. -/
theorem execCalRun_none {s : State} {k : Fin 256} {c : HostCmd} (hr : cmdReady s k 0x33 = some c) (h : fld (cmdW c 1) 7 0 = 0) :
    execCalRun k s = .next (finish s k stDone (epochs4 s 0) (epochs4 s 4)) := by
  simp only [execCalRun, hr, (maskRegions_eq_nil_iff _).2 h]
  rfl

/-- A CAL_RUN of some region runs, and forces its regions. -/
theorem execCalRun_some {s : State} {k : Fin 256} {c : HostCmd} (hr : cmdReady s k 0x33 = some c) (h : fld (cmdW c 1) 7 0 ≠ 0) :
    execCalRun k s = .next (((List.range 8).filter fun g => bit (cmdW c 1) g).foldl (fun s g => calForce s k g)
      (setCmd s k fun c => { c with phase := .running })) := by
  have hne : ((List.range 8).filter fun g => bit (cmdW c 1) g).isEmpty = false := by
    rw [← Bool.not_eq_true, List.isEmpty_iff, maskRegions_eq_nil_iff]
    exact h
  simp only [execCalRun, hr, hne, Bool.false_eq_true, if_false]

end Sys2Proof.Machine

namespace Sys2Proof.Proofs
open Sys2Proof.Machine

/-- Settles O37: arms by their places, snapshots by what goes to host memory, CAL_RUN by induction over the regions of its mask. -/
theorem armsAndSnapshots : Obligations.ArmsAndSnapshots := by
  unfold Obligations.ArmsAndSnapshots
  intro s k c
  dsimp only
  refine ⟨fun hr hbad => execInjectArm_bad hr hbad, fun hr hgood hmode hiso => ?_, fun a x hr hgood hmode harm => ?_,
    fun e a x harm ht hmode hdue => execInjectionDurationEnd_due harm ht hmode hdue, fun hr hmem => execStatsSnapshot_runs hr hmem,
    fun hr hmem => execCalSnapshot_runs hr hmem, fun hr h => execCalRun_none hr h, fun hr h => ?_⟩
  · have hrun := (exec_injectArm k s).trans (execInjectArm_good hr hgood)
    rw [hiso, armSet_on s _ _ hmode] at hrun
    obtain ⟨m, hclear⟩ := armClear_frame s (fld (cmdW c 1) 6 0)
    have hreg : ∀ off, reg (armClear s (fld (cmdW c 1) 6 0)) off = reg s off := fun off => by rw [hclear]; rfl
    have htb : (armClear s (fld (cmdW c 1) 6 0)).time.tb = s.time.tb := by rw [hclear]
    rw [htb] at hrun
    refine ⟨_, armPlace (armClear s (fld (cmdW c 1) 6 0)) (fld (cmdW c 1) 6 0), hrun, cmdAt_finish _ _ _ _ _, ?_, fun b hb => ?_,
      fun off hoff _ => ?_⟩
    · refine (armAt_finish _ _ _ _ _ _).trans ?_
      rw [armAt_setArm, if_pos rfl]
    · rw [show sget none _ b = _ from armAt_finish_setArm _ k.val _ stDone 0 0 hb]
      exact armAt_armClear s _ b
    · rw [reg_finish _ _ _ _ _ hoff, reg_setArm, hreg]
  · have hrun := (exec_injectArm k s).trans (execInjectArm_good hr hgood)
    rw [hmode, armSet_off, armClear, harm] at hrun
    exact hrun
  · have hrun := (exec_calRun k s).trans (execCalRun_some hr h)
    obtain ⟨⟨m, hframe⟩, hregion⟩ := foldl_calForce k ((List.range 8).filter fun g => bit (cmdW c 1) g)
      (setCmd s k fun c => { c with phase := .running })
    refine ⟨_, hrun, fun g hg => ?_, ?_, ?_⟩
    · rw [hregion]
      simp only [mem_maskRegions, hg, true_and]
      rfl
    · have hcmd := cmdAt_setCmd s k (f := fun c => { c with phase := .running }) fun _ => rfl
      rw [cmdAt_of_ready hr] at hcmd
      rw [hframe]
      exact hcmd
    · rw [hframe]
      rfl

end Sys2Proof.Proofs
end

section
/-! # Port commands (R45, R47, R115, R120, R140, R142, R266, R284, R325, R344) -/

namespace Sys2Proof.Machine

/-! ## The dispatch -/

theorem exec_portSet (k : Fin 256) (s : State) : exec (.portSet k) s = execPortSet k s := rfl

theorem exec_portEnable (k : Fin 256) (s : State) : exec (.portEnable k) s = execPortEnable k s := rfl

theorem exec_portDisable (k : Fin 256) (s : State) : exec (.portDisable k) s = execPortDisable k s := rfl

theorem exec_portSet_ready {s : State} {k : Fin 256} {c : HostCmd} (h : cmdReady s k 0x20 = some c) :
    exec (.portSet k) s = .next (portSet s (fld (cmdW c 1) 15 12) (fld (cmdW c 1) 6 0) k c.words) := by
  rw [exec_portSet, execPortSet, h]
  rfl

theorem exec_portEnable_ready {s : State} {k : Fin 256} {c : HostCmd} (h : cmdReady s k 0x21 = some c) :
    exec (.portEnable k) s = .next (portEnable s (fld (cmdW c 1) 15 12) (fld (cmdW c 1) 6 0) k) := by
  rw [exec_portEnable, execPortEnable, h]
  rfl

theorem exec_portDisable_ready {s : State} {k : Fin 256} {c : HostCmd} (h : cmdReady s k 0x22 = some c) :
    exec (.portDisable k) s = .next (portDisable s (fld (cmdW c 1) 15 12) (fld (cmdW c 1) 6 0) k) := by
  rw [exec_portDisable, execPortDisable, h]
  rfl

/-- The classes that have ports. -/
theorem portClass_cases {cls n : Nat} (h : n < portCount cls) : cls = 0 ∨ cls = 1 ∨ cls = 2 ∨ cls = 3 ∨ cls = 4 ∨ cls = 5 := by
  by_contra hcls
  simp only [not_or] at hcls
  simp [portCount, hcls] at h

section Wedged
variable {s : State} {cls n : Nat} (h : isWedged s (unitOf cls n) = true) (slot : Nat)
include h

theorem portSet_wedged (ws : List Word) : portSet s cls n slot ws = finish s slot stWedged 0 0 := by simp [portSet, h]

theorem portEnable_wedged : portEnable s cls n slot = finish s slot stWedged 0 0 := by simp [portEnable, h]

theorem portDisable_wedged : portDisable s cls n slot = finish s slot stWedged 0 0 := by simp [portDisable, h]

end Wedged

/-! ## The settings of ports, and what leaves them -/

/-- The offsets among which every port's control register lies, with the further settings of serial ports, event inputs and event
outputs, and no counter, stamp or status of a port. -/
def SettingWord (off : Nat) : Prop :=
  (0x8000 ≤ off ∧ off < 0x8400 ∧ off % 0x20 < 0xC) ∨ (0x8800 ≤ off ∧ off < 0x8A00 ∧ (off % 0x40 < 8 ∨ off % 0x40 = 0x14))
    ∨ (0x10000 ≤ off ∧ off < 0x70000 ∧ off % 0x400 < 0xC)

theorem settingWord_portCtrl {cls n : Nat} (h : n < portCount cls) : SettingWord (portCtrl cls n) := by
  unfold SettingWord
  rcases portClass_cases h with rfl | rfl | rfl | rfl | rfl | rfl <;>
    simp [portCtrl, portCount, Reg.spCtrl, Reg.cnCtrl, Reg.ethCtrl, Reg.eiCtrl, Reg.eoCtrl, Reg.pnCtrl] at h ⊢ <;> omega

theorem SettingWord.not_ringReg {off : Nat} (h : SettingWord off) : ¬ringReg off := by
  unfold SettingWord at h
  unfold Machine.ringReg
  omega

/-- From s to t no setting of a port changes. -/
def SettingsKept (s t : State) : Prop := ∀ off, SettingWord off → reg t off = reg s off

theorem SettingsKept.refl (s : State) : SettingsKept s s := fun _ _ => rfl

theorem SettingsKept.trans {s t u : State} (h : SettingsKept s t) (k : SettingsKept t u) : SettingsKept s u :=
  fun off hoff => (k off hoff).trans (h off hoff)

theorem SettingsKept.of_regs {s t : State} (h : t.regs = s.regs) : SettingsKept s t := fun off _ => reg_of_regs h off

theorem SettingsKept.foldl {α : Type} {f : State → α → State} (hf : ∀ s a, SettingsKept s (f s a)) (l : List α) (s : State) :
    SettingsKept s (l.foldl f s) :=
  List.foldlRecOn l f (.refl s) fun t ht a _ => ht.trans (hf t a)

theorem SettingsKept.portEn {s t : State} (h : SettingsKept s t) {cls n : Nat} (hn : n < portCount cls) :
    portEn t cls n = portEn s cls n :=
  regB_of_reg (h _ (settingWord_portCtrl hn)) 31

theorem settingsKept_setReg (s : State) {off : Nat} (h : ¬SettingWord off) (v : Word) : SettingsKept s (setReg s off v) :=
  fun o ho => (reg_setReg s off o v).trans (if_neg fun e : o = off => h (e ▸ ho))

theorem settingsKept_setF (s : State) {off : Nat} (h : ¬SettingWord off) (hi lo v : Nat) : SettingsKept s (setF s off hi lo v) :=
  settingsKept_setReg s h _

theorem settingsKept_count (s : State) {off : Nat} (h : ¬SettingWord off) (hi lo m : Nat) : SettingsKept s (count s off hi lo m) :=
  settingsKept_setF s h hi lo _

theorem settingsKept_finish (s : State) (k st r0 r1 : Nat) : SettingsKept s (finish s k st r0 r1) :=
  fun _ ho => reg_finish s k st r0 r1 ho.not_ringReg

theorem settingsKept_event (s : State) (kind det unit d2 d3 : Nat) (inj : Bool) (t : Stamp) :
    SettingsKept s (event s kind det unit d2 d3 inj t) :=
  fun _ ho => reg_event s kind det unit d2 d3 inj t ho.not_ringReg

/-- The port that a field of its control register enables, or disables. -/
theorem portEn_setF (s : State) (cls n v : Nat) : portEn (setF s (portCtrl cls n) 31 31 v) cls n = v.testBit 0 :=
  (regB_setF (le_refl 31) (by decide) 31).trans (if_pos ⟨le_refl 31, le_refl 31⟩)

/-! ## Copies that are discarded, and endpoints that are released (R230, R367) -/

theorem settingsKept_flushCopies (s : State) (p : Copy → Bool) : SettingsKept s (flushCopies s p).1 := by
  refine .foldl (fun t c => settingsKept_count t ?_ 31 16 1) (s.lq.copies.filter p) _
  unfold SettingWord Reg.lqFlushed
  omega

theorem settingsKept_flushEndpoint (s : State) (kind num : Nat) : SettingsKept s (flushEndpoint s kind num).1 :=
  settingsKept_flushCopies s fun c => boundTo c.w0 kind num none

theorem settingsKept_releaseDone (s : State) (e : Nat) : SettingsKept s (releaseDone s e) := by
  unfold releaseDone releaseNow flushOwner
  split
  · obtain ⟨k, n⟩ := endpointKind e
    dsimp only
    split
    · exact .refl s
    · exact settingsKept_flushEndpoint (disown s e) k n
  · exact .refl s

/-! ## A port that stops -/

theorem not_settingWord_ethTxErr (n : Nat) : ¬SettingWord (Reg.ethTxErr n) := by
  unfold SettingWord Reg.ethTxErr
  omega

theorem settingsKept_ethDropLaunches (s : State) (n status : Nat) : SettingsKept s (ethDropLaunches s n status) := by
  refine .foldl (fun t f => .trans ?_ (settingsKept_finish _ f.slot status 0 0)) (eth s n).launches (setEth s n { eth s n with launches := [] })
  split
  · exact settingsKept_count t (not_settingWord_ethTxErr n) 23 16 1
  · exact .refl t

theorem settingsKept_ethAbandon (s : State) (n : Nat) : SettingsKept s (ethAbandon s n) := by
  have herr : SettingsKept s (count (setEth s n { eth s n with tx := none }) (Reg.ethTxErr n) 23 16 1) :=
    settingsKept_count _ (not_settingWord_ethTxErr n) 23 16 1
  unfold ethAbandon
  extract_lets v t
  split
  · exact .refl s
  · exact herr.trans (settingsKept_finish _ _ _ _ _)
  · exact herr.trans (settingsKept_releaseDone _ _)
  · exact .refl s

theorem settingsKept_ethLinkDown (s : State) (n : Nat) : SettingsKept s (ethLinkDown s n) := by
  unfold ethLinkDown
  split
  · exact .refl s
  · extract_lets v q x y
    have habandon : SettingsKept s (ethAbandon x n) := settingsKept_ethAbandon x n
    exact (habandon.trans (settingsKept_ethDropLaunches _ n stLinkFailed)).trans (settingsKept_event y 2 0 (unitEth n) 0 0 false (now y))

/-! ## The Leash and the framer of a serial port (R141, R142) -/

theorem not_settingWord_spStatus (p : Nat) : ¬SettingWord (Reg.spStatus p) := by
  unfold SettingWord Reg.spStatus
  omega

theorem settingsKept_setSerial (s : State) (p : Nat) (v : SerialPort) : SettingsKept s (setSerial s p v) :=
  .of_regs (setSerial_regs s p v)

theorem settingsKept_leashDepart (s : State) (p : Nat) (xoff : Bool) (at_ : Int) : SettingsKept s (leashDepart s p xoff at_) := by
  unfold leashDepart
  extract_lets t behind v
  have ht : SettingsKept s t := settingsKept_setF s (not_settingWord_spStatus p) 12 12 (b2n xoff)
  clear_value t
  have hset : ∀ x, SettingsKept s (setSerial t p x) := fun x => ht.trans (settingsKept_setSerial t p x)
  split
  · split
    · exact hset _
    · split
      · exact hset _
      · exact hset _
  · exact hset _

theorem settingsKept_leashRun (s : State) (p : Nat) (l : List Bool) : SettingsKept s (leashRun s p l) := by
  induction l generalizing s with
  | nil => exact settingsKept_setSerial s p _
  | cons x xs ih =>
    unfold leashRun
    split
    · exact settingsKept_setSerial s p _
    · split
      · exact settingsKept_setSerial s p _
      · exact (settingsKept_leashDepart s p x _).trans (ih _)

theorem settingsKept_leashUpdate (s : State) (p : Nat) : SettingsKept s (leashUpdate s p) := by
  have hsend : ∀ xoff, SettingsKept s (leashSend s p xoff) := fun xoff =>
    (settingsKept_setSerial s p _).trans (settingsKept_leashRun _ p _)
  unfold leashUpdate
  split
  · exact .refl s
  · extract_lets sent hi lo
    split
    · exact hsend true
    · split
      · exact hsend false
      · exact .refl s

theorem settingsKept_leashResume (s : State) (p : Nat) : SettingsKept s (leashResume s p) :=
  (settingsKept_setF s (not_settingWord_spStatus p) 13 13 0).trans (settingsKept_setSerial _ p _)

theorem settingsKept_framerDiscard (s : State) (p : Nat) : SettingsKept s (framerDiscard s p) := by
  unfold framerDiscard
  extract_lets v
  split
  · exact .refl s
  · refine (settingsKept_setSerial s p _).trans (settingsKept_count _ ?_ 31 16 1)
    unfold SettingWord Reg.spRxDiscard
    omega

/-! ## Detectors and records of an event input (R111, R113) -/

theorem settingsKept_fire (s : State) (d unit d2 d3 : Nat) (inj : Bool) (limit : Option Nat) :
    SettingsKept s (fire s d unit d2 d3 inj limit) := by
  have hdet : ¬SettingWord (Reg.detCount d) := by unfold SettingWord Reg.detCount; omega
  unfold fire fireAt
  extract_lets x y z
  have hy : SettingsKept s y := settingsKept_setReg s hdet _
  have hz : SettingsKept s z := hy.trans (settingsKept_event y 0 d unit d2 d3 inj _)
  split
  · exact hy
  · split
    · exact hz
    · split
      · exact hz
      · split
        · exact hy
        · split
          · exact hz
          · exact hz

theorem settingsKept_eiPush (s : State) (i kind : Nat) (first last : Edge) (nostamp : Bool) (lost : Nat) (inj : Bool) :
    SettingsKept s (eiPush s i kind first last nostamp lost inj) := by
  unfold eiPush
  extract_lets route v w0 words r
  split
  · exact .refl s
  · exact .of_regs (setEvIn_regs s i _)

theorem settingsKept_burstClose (s : State) {i : Nat} (hi : i < 32) : SettingsKept s (burstClose s i) := by
  have hcounts : ¬SettingWord (Reg.eiCounts i) := by unfold SettingWord Reg.eiCounts; omega
  have hlost : ¬SettingWord (Reg.eiLost i) := by unfold SettingWord Reg.eiLost; omega
  unfold burstClose
  split
  · exact .refl s
  · rename_i b _
    extract_lets v x y u z t
    have hx : SettingsKept s x := .of_regs (setEvIn_regs s i _)
    have hy : SettingsKept x y := (settingsKept_count x hcounts 15 0 1).trans (settingsKept_count _ hlost 31 0 b.lost)
    have hz : SettingsKept s z := (hx.trans hy).trans (settingsKept_fire y 0x39 u 0 0 false _)
    split
    · exact hz.trans (settingsKept_eiPush z i _ _ _ _ _ _)
    · exact hz.trans (settingsKept_eiPush z i _ _ _ _ _ _)

end Sys2Proof.Machine
end

section
/-! # PORT_SET, PORT_ENABLE and PORT_DISABLE of each class (R45, R47) -/

namespace Sys2Proof.Machine

/-! ## PORT_SET -/

section PortSet
variable {s : State} {cls n : Nat} (h : isWedged s (unitOf cls n) = false) (slot : Nat) (ws : List Word)
include h

theorem portSet_serial (hcls : cls = 0) : portSet s cls n slot ws = serialPortSet s n slot fun k => ws.getD k 0 := by
  subst hcls
  simp [portSet, h]

theorem portSet_eventIn (hcls : cls = 3) : portSet s cls n slot ws = eiPortSet s n slot fun k => ws.getD k 0 := by
  subst hcls
  simp [portSet, h]

theorem portSet_eventOut (hcls : cls = 4) : portSet s cls n slot ws = eoPortSet s n slot fun k => ws.getD k 0 := by
  subst hcls
  simp [portSet, h]

theorem portSet_panel (hcls : cls = 5) : portSet s cls n slot ws = panelPortSet s n slot ws := by
  subst hcls
  simp [portSet, h]

end PortSet

theorem serialPortSet_bad {s : State} {p slot : Nat} {w : Nat → Word} (h : serialBad w = true) :
    serialPortSet s p slot w = finish s slot stBadParam 0 0 := by
  simp [serialPortSet, h]

/-- The settings of a serial port that its words replace (R140). -/
theorem reg_serialSettings (s : State) (p : Nat) (w : Nat → Word) :
    reg (serialSettings s p w) (Reg.spCtrl p) = (w 2 &&& 0x7000FF00#32) ||| (reg s (Reg.spCtrl p) &&& 0x80000000#32)
      ∧ reg (serialSettings s p w) (Reg.spFormat p) = w 3 &&& 0x3F#32
      ∧ reg (serialSettings s p w) (Reg.spDiv p) = w 4 &&& 0x7FFFF#32 := by
  simp [serialSettings, Reg.spCtrl, Reg.spFormat, Reg.spDiv, Reg.spFramer, Reg.spHold, Reg.spDe, Reg.spLeash, Reg.spLeashTimeout,
    Reg.spWatchPatLo, Reg.spWatchPatHi, Reg.spWatchCfg]

theorem serial_setSerial_same (s : State) (p : Nat) (v : SerialPort) : serial (setSerial s p v) p = v := by simp [serial]

theorem settingsDone_idle {s : State} {p slot : Nat} (htx : (serial s p).setTx = none) (hrx : (serial s p).setRx = none) :
    settingsDone s p slot = finish (leashUpdate s p) slot stDone 0 0 := by
  simp [settingsDone, htx, hrx]

/-- With no character in either shifter, a PORT_SET of a serial port is done at once (R141). -/
theorem serialPortSet_idle {s : State} {p : Nat} {w : Nat → Word} (slot : Nat) (hw : isWedged s (unitSerial p) = false)
    (hbad : serialBad w = false) (hrun : (serial s p).run = none) (hidle : (serial s p).idleTb ≤ s.time.tb) :
    ∃ t, serialPortSet s p slot w = finish t slot stDone 0 0 ∧ SettingsKept (serialSettings s p w) t := by
  unfold serialPortSet
  rw [hbad, hw, hrun, if_neg Bool.false_ne_true, if_neg Bool.false_ne_true]
  extract_lets bound v rx old a b c q d
  have hrx : rx = none := by
    unfold rx
    rw [decide_eq_false (Nat.not_lt.2 hidle), Bool.and_false, if_neg Bool.false_ne_true]
  have hb : SettingsKept a b := by
    unfold b
    split
    · exact .refl a
    · exact settingsKept_framerDiscard a p
  have hc : SettingsKept b c := by
    unfold c
    split
    · exact .refl b
    · split
      · exact settingsKept_leashResume b p
      · exact .refl b
  have hd : SettingsKept c d := settingsKept_setSerial c p _
  have hserial : serial d p = { serial c p with setTx := bound, setRx := rx } := serial_setSerial_same c p _
  clear_value d
  have hrunning : SettingsKept d (setCmd d slot fun c => { c with phase := .running }) := .of_regs (setCmd_regs _ _ _)
  refine ⟨_, settingsDone_idle (congrArg SerialPort.setTx hserial) ((congrArg SerialPort.setRx hserial).trans hrx), ?_⟩
  exact (((hb.trans hc).trans hd).trans hrunning).trans (settingsKept_leashUpdate _ p)

/-- The settings of a serial port that its words replace, with its shifters empty (R140, R141). -/
theorem serialPortSet_settings {s : State} {p : Nat} {w : Nat → Word} (slot : Nat) (hp : p < 128) (hw : isWedged s (unitSerial p) = false)
    (hbad : serialBad w = false) (hrun : (serial s p).run = none) (hidle : (serial s p).idleTb ≤ s.time.tb) :
    cmdAt (serialPortSet s p slot w) slot = none
      ∧ reg (serialPortSet s p slot w) (Reg.spCtrl p) = (w 2 &&& 0x7000FF00#32) ||| (reg s (Reg.spCtrl p) &&& 0x80000000#32)
      ∧ reg (serialPortSet s p slot w) (Reg.spFormat p) = w 3 &&& 0x3F#32
      ∧ reg (serialPortSet s p slot w) (Reg.spDiv p) = w 4 &&& 0x7FFFF#32 := by
  have hctrl : SettingWord (Reg.spCtrl p) := by unfold SettingWord Reg.spCtrl; omega
  have hformat : SettingWord (Reg.spFormat p) := by unfold SettingWord Reg.spFormat; omega
  have hdiv : SettingWord (Reg.spDiv p) := by unfold SettingWord Reg.spDiv; omega
  obtain ⟨t, hdone, hkeep⟩ := serialPortSet_idle slot hw hbad hrun hidle
  obtain ⟨hc, hf, hd⟩ := reg_serialSettings s p w
  have hall := hkeep.trans (settingsKept_finish t slot stDone 0 0)
  rw [hdone]
  exact ⟨cmdAt_finish _ _ _ _ _, (hall _ hctrl).trans hc, (hall _ hformat).trans hf, (hall _ hdiv).trans hd⟩

/-- The settings of an event input that its words replace (R115). -/
theorem eiPortSet_settings {s : State} {i : Nat} (slot : Nat) (w : Nat → Word) (hi : i < 32) (hw : isWedged s (unitEvIn i) = false) :
    cmdAt (eiPortSet s i slot w) slot = none
      ∧ reg (eiPortSet s i slot w) (Reg.eiCtrl i) = (w 2 &&& 0x6C0F0000#32) ||| (reg s (Reg.eiCtrl i) &&& 0x80000000#32)
      ∧ reg (eiPortSet s i slot w) (Reg.eiFilt i) = w 3 &&& 0x8000FFFF#32
      ∧ reg (eiPortSet s i slot w) (Reg.eiHold i) = w 4 &&& 0xFFFF#32 := by
  have hctrl : SettingWord (Reg.eiCtrl i) := by unfold SettingWord Reg.eiCtrl; omega
  have hfilt : SettingWord (Reg.eiFilt i) := by unfold SettingWord Reg.eiFilt; omega
  have hhold : SettingWord (Reg.eiHold i) := by unfold SettingWord Reg.eiHold; omega
  unfold eiPortSet
  rw [hw, if_neg Bool.false_ne_true]
  extract_lets en a b
  have hkeep := (settingsKept_burstClose b hi).trans (settingsKept_finish _ slot stDone 0 0)
  refine ⟨cmdAt_finish _ _ _ _ _, (hkeep _ hctrl).trans ?_, (hkeep _ hfilt).trans ?_, (hkeep _ hhold).trans ?_⟩ <;>
    simp [a, b, en, Reg.eiCtrl, Reg.eiFilt, Reg.eiHold]

theorem settingsKept_setGen (s : State) {m : Nat} (hm : m < 8) (g : Option EoTarget) : SettingsKept s (setGen s m g) := by
  have hsec : ¬SettingWord (Reg.eoNextSec m) := by unfold SettingWord Reg.eoNextSec; omega
  have hns : ¬SettingWord (Reg.eoNextNs m) := by unfold SettingWord Reg.eoNextNs; omega
  have hfrac : ¬SettingWord (Reg.eoNextFrac m) := by unfold SettingWord Reg.eoNextFrac; omega
  have hset : SettingsKept s (setEvOut s m { evOut s m with gen := g }) := .of_regs (setEvOut_regs s m _)
  cases g with
  | none => exact hset
  | some t =>
    exact ((hset.trans (settingsKept_setReg _ hsec _)).trans (settingsKept_setReg _ hns _)).trans (settingsKept_setReg _ hfrac _)

theorem settingsKept_eoSkip (s : State) {m : Nat} (hm : m < 8) (t : EoTarget) : SettingsKept s (eoSkip s m t) := by
  have hcounts : ¬SettingWord (Reg.eoCounts m) := by unfold SettingWord Reg.eoCounts; omega
  unfold eoSkip
  extract_lets d k
  split
  · exact settingsKept_setGen s hm _
  · split
    · exact (settingsKept_setGen s hm _).trans (settingsKept_count _ hcounts 31 24 1)
    · exact (settingsKept_setGen s hm _).trans (settingsKept_count _ hcounts 31 24 k)

/-- The settings of an event output that its words replace (R120). -/
theorem eoPortSet_settings (s : State) {m : Nat} (slot : Nat) (w : Nat → Word) (hm : m < 8) (hmode : fld (w 2) 29 28 ≠ 3) :
    cmdAt (eoPortSet s m slot w) slot = none
      ∧ reg (eoPortSet s m slot w) (Reg.eoCtrl m) = (w 2 &&& 0x73000000#32) ||| (reg s (Reg.eoCtrl m) &&& 0x80000000#32)
      ∧ reg (eoPortSet s m slot w) (Reg.eoWidth m) = w 3 &&& 0x3FFFFFFF#32
      ∧ reg (eoPortSet s m slot w) (Reg.eoPeriod m) = w 7 := by
  have hctrl : SettingWord (Reg.eoCtrl m) := by unfold SettingWord Reg.eoCtrl; omega
  have hwidth : SettingWord (Reg.eoWidth m) := by unfold SettingWord Reg.eoWidth; omega
  have hperiod : SettingWord (Reg.eoPeriod m) := by unfold SettingWord Reg.eoPeriod; omega
  unfold eoPortSet
  rw [if_neg (by simpa using hmode)]
  extract_lets en a b c v d e
  have hset : SettingsKept c d := .of_regs (setEvOut_regs c m _)
  have hkeep : SettingsKept d e := by
    unfold e
    split
    · exact settingsKept_eoSkip d hm _
    · exact settingsKept_setGen d hm none
  have hall := (hset.trans hkeep).trans (settingsKept_finish e slot stDone 0 0)
  refine ⟨cmdAt_finish _ _ _ _ _, (hall _ hctrl).trans ?_, (hall _ hwidth).trans ?_, (hall _ hperiod).trans ?_⟩ <;>
    simp [a, b, c, en, Reg.eoCtrl, Reg.eoWidth, Reg.eoPeriod]

/-! ## PORT_ENABLE -/

/-- What PORT_ENABLE of a CAN port makes of it (R256, R266). -/
def canStarted (v : CanPort) : CanPort :=
  { v with mode := .integrating, tec := 0, recv := 0, recovering := false, recov := 0, claims := [] }

theorem portEnable_can {s : State} {cls n : Nat} (slot : Nat) (hw : isWedged s (unitOf cls n) = false) (hcls : cls = 1) :
    portEnable s cls n slot = finish (setF (setCan s n (canStarted (can s n))) (portCtrl cls n) 31 31 1) slot stDone 0 0 := by
  subst hcls
  have hcan : isWedged s (unitCan n) = false := hw
  simp [portEnable, canPortEnable, hw, hcan, canStarted, portCtrl]

theorem serialPortEnable_enables {s : State} {p : Nat} (slot : Nat) (hp : p < 128) (hw : isWedged s (unitSerial p) = false) :
    ∃ t, serialPortEnable s p slot = finish t slot stDone 0 0 ∧ portEn t 0 p = true := by
  unfold serialPortEnable
  rw [hw, if_neg Bool.false_ne_true]
  split
  · exact ⟨s, rfl, by assumption⟩
  · extract_lets v a b
    exact ⟨_, rfl, ((settingsKept_leashUpdate b p).portEn (cls := 0) hp).trans (portEn_setF a 0 p 1)⟩

theorem eiPortEnable_enables {s : State} {i : Nat} (slot : Nat) (hi : i < 32) (hw : isWedged s (unitEvIn i) = false) :
    ∃ t, eiPortEnable s i slot = finish t slot stDone 0 0 ∧ portEn t 3 i = true := by
  unfold eiPortEnable
  rw [hw, if_neg Bool.false_ne_true]
  split
  · exact ⟨s, rfl, by assumption⟩
  · extract_lets a v v' b
    have hb : SettingsKept a b := .of_regs (setEvIn_regs a i _)
    exact ⟨b, rfl, (hb.portEn (cls := 3) hi).trans (portEn_setF s 3 i 1)⟩

/-- PORT_ENABLE completes in a state in which the port is enabled (R142, R266, R284, R113, R120, R325). -/
theorem portEnable_enables {s : State} {cls n : Nat} (slot : Nat) (hn : n < portCount cls) (hw : isWedged s (unitOf cls n) = false) :
    ∃ t, portEnable s cls n slot = finish t slot stDone 0 0 ∧ portEn t cls n = true := by
  rcases portClass_cases hn with rfl | rfl | rfl | rfl | rfl | rfl
  · obtain ⟨t, hrun, hen⟩ := serialPortEnable_enables slot hn hw
    exact ⟨t, by simp [portEnable, hw, hrun], hen⟩
  · exact ⟨_, portEnable_can slot hw rfl, portEn_setF _ 1 n 1⟩
  · exact ⟨_, by simp [portEnable, ethPortEnable, hw]; rfl, portEn_setF s 2 n 1⟩
  · obtain ⟨t, hrun, hen⟩ := eiPortEnable_enables slot hn hw
    exact ⟨t, by simp [portEnable, hw, hrun], hen⟩
  · exact ⟨_, by simp [portEnable, hw], portEn_setF s 4 n 1⟩
  · exact ⟨_, by simp [portEnable, hw], portEn_setF s 5 n 1⟩

/-! ## PORT_DISABLE -/

/-- The copies and the ownership of a port that stops leave the settings. -/
theorem settingsKept_flushed {s t : State} {kind num m : Nat} (h : flushEndpoint s kind num = (t, m)) (e : Nat) :
    SettingsKept s (releaseDone t e) := by
  have hflush := settingsKept_flushEndpoint s kind num
  rw [h] at hflush
  exact hflush.trans (settingsKept_releaseDone t e)

/-- PORT_DISABLE of a serial port completes in a state in which it is disabled (R142). -/
theorem serialPortDisable_disables (s : State) {p : Nat} (slot : Nat) (hp : p < 128) :
    ∃ t r0 r1, serialPortDisable s p slot = finish t slot stDone r0 r1 ∧ portEn t 0 p = false := by
  unfold serialPortDisable
  extract_lets partials a
  obtain ⟨b, held⟩ := serialTxStop a p
  dsimp only
  generalize setF (setSerial b p _) (Reg.spStatus p) 15 12 0 = c
  obtain ⟨t, m, hflush⟩ : ∃ t m, flushEndpoint (setF c (Reg.spCtrl p) 31 31 0) 1 p = (t, m) := ⟨_, _, rfl⟩
  rw [hflush]
  exact ⟨_, _, _, rfl, ((settingsKept_flushed hflush (epSerial p)).portEn (cls := 0) hp).trans (portEn_setF c 0 p 0)⟩

/-- A CAN port stops: its PORT_DISABLE completes in a state in which it is disabled (R266). -/
theorem canStop_disables (s : State) {n : Nat} (slot : Nat) (hn : n < 8) :
    ∃ t r0 r1, canStop s n slot = finish t slot stDone r0 r1 ∧ portEn t 1 n = false := by
  unfold canStop
  extract_lets v outs ins v' a b
  have hoff : portEn a 1 n = false := portEn_setF _ 1 n 0
  have hb : SettingsKept a b := .foldl (fun t x => settingsKept_finish t x.slot stDiscarded x.attempts 0) v.sends a
  clear_value a b
  obtain ⟨t, m, hflush⟩ : ∃ t m, flushEndpoint b 2 n = (t, m) := ⟨_, _, rfl⟩
  rw [hflush]
  exact ⟨_, _, _, rfl, ((hb.trans (settingsKept_flushed hflush (epCan n))).portEn (cls := 1) hn).trans hoff⟩

/-- An Ethernet port stops: its PORT_DISABLE completes in a state in which it is disabled (R285). -/
theorem ethStop_disables (s : State) {n : Nat} (slot : Nat) (hn : n < 4) :
    ∃ t r0 r1, ethStop s n slot = finish t slot stDone r0 r1 ∧ portEn t 2 n = false := by
  have hset : SettingsKept (setF s (Reg.ethCtrl n) 31 31 0) (setEth (setF s (Reg.ethCtrl n) 31 31 0) n
      { eth s n with buffer := [], closing := none, speedFault := false }) := .of_regs (setEth_regs _ n _)
  unfold ethStop
  extract_lets v a b
  have hoff : portEn a 2 n = false := (hset.portEn (cls := 2) hn).trans (portEn_setF s 2 n 0)
  have hb : SettingsKept a b := settingsKept_ethDropLaunches a n stDiscarded
  clear_value a b
  obtain ⟨t, m, hflush⟩ : ∃ t m, flushEndpoint b 3 n = (t, m) := ⟨_, _, rfl⟩
  rw [hflush]
  exact ⟨_, _, _, rfl, (((hb.trans (settingsKept_flushed hflush (epEth n))).trans
    (settingsKept_ethLinkDown _ n)).portEn (cls := 2) hn).trans hoff⟩

/-- What PORT_DISABLE of a port waits for: the frame of a CAN or an Ethernet port, the pulse of an output. A panel port waits for its
frame boundary (R325) and is not among them. -/
def DisablesAtOnce (s : State) (cls n : Nat) : Prop :=
  cls = 0 ∨ (cls = 1 ∧ (can s n).attempt = .none) ∨ (cls = 2 ∧ (eth s n).tx = none) ∨ cls = 3 ∨ (cls = 4 ∧ (evOut s n).active = [])

/-- PORT_DISABLE of a port that waits for nothing completes in a state in which the port is disabled. -/
theorem portDisable_disables {s : State} {cls n : Nat} (slot : Nat) (hn : n < portCount cls) (hw : isWedged s (unitOf cls n) = false)
    (h : DisablesAtOnce s cls n) : ∃ t r0 r1, portDisable s cls n slot = finish t slot stDone r0 r1 ∧ portEn t cls n = false := by
  rcases h with rfl | ⟨rfl, hattempt⟩ | ⟨rfl, htx⟩ | rfl | ⟨rfl, hactive⟩
  · obtain ⟨t, r0, r1, hrun, hoff⟩ := serialPortDisable_disables s slot hn
    exact ⟨t, r0, r1, by simp [portDisable, hw, hrun], hoff⟩
  · obtain ⟨t, r0, r1, hrun, hoff⟩ := canStop_disables s slot hn
    exact ⟨t, r0, r1, by simp [portDisable, canPortDisable, hw, hattempt, hrun], hoff⟩
  · obtain ⟨t, r0, r1, hrun, hoff⟩ := ethStop_disables s slot hn
    exact ⟨t, r0, r1, by simp [portDisable, ethPortDisable, hw, htx, hrun], hoff⟩
  · exact ⟨_, _, _, by simp [portDisable, eiPortDisable, hw]; rfl, portEn_setF _ 3 n 0⟩
  · exact ⟨_, _, _, by simp [portDisable, eoPortDisable, hw, hactive]; rfl, portEn_setF _ 4 n 0⟩

/-- PORT_DISABLE of an enabled panel port waits for the frame boundary (R325). -/
theorem portDisable_panel {s : State} {n : Nat} (slot : Nat) (hw : isWedged s (unitOf 5 n) = false) (hen : portEn s 5 n = true) :
    portDisable s 5 n slot =
      setCmd (setPanel s n { panel s n with closing := some (some slot) }) slot fun c => { c with phase := .running } := by
  simp [portDisable, panelPortDisable, hw, hen]

theorem panel_setPanel_same (s : State) (n : Nat) (v : PanelPort) : panel (setPanel s n v) n = v := by simp [panel]

/-- A command that waits for the frame boundary of a panel port runs. -/
theorem cmdAt_panel_running {s : State} {k n : Nat} {c : HostCmd} (h : cmdAt s k = some c) (v : PanelPort) :
    cmdAt (setCmd (setPanel s n v) k fun c => { c with phase := .running }) k = some { c with phase := .running } := by
  have hkeep : cmdAt (setPanel s n v) k = some c := h
  rw [cmdAt_setCmd, hkeep]
  · rfl
  · exact fun _ => rfl

end Sys2Proof.Machine
end

section
/-! # The port commands as the host sees them (R45, R47) -/

namespace Sys2Proof.Machine

/-- A port is enabled, or not, after a completion. -/
theorem portEn_finish (s : State) (slot st r0 r1 : Nat) {cls n : Nat} (hn : n < portCount cls) :
    portEn (finish s slot st r0 r1) cls n = portEn s cls n :=
  (settingsKept_finish s slot st r0 r1).portEn hn

/-- The CAN ports after a completion. -/
theorem can_finish (s : State) (slot st r0 r1 n : Nat) : can (finish s slot st r0 r1) n = can s n := by
  obtain ⟨r, g, o, fr, hd, h⟩ := finish_frame s slot st r0 r1
  rw [h]
  rfl

/-- The CAN ports after a field of a register is written. -/
theorem can_setF (s : State) (off hi lo v n : Nat) : can (setF s off hi lo v) n = can s n := rfl

theorem can_setCan_same (s : State) (n : Nat) (v : CanPort) : can (setCan s n v) n = v := by simp [can]

/-- PORT_ENABLE of a CAN port starts it. -/
theorem can_portEnable {s : State} {cls n : Nat} (slot : Nat) (hw : isWedged s (unitOf cls n) = false) (hcls : cls = 1) :
    can (portEnable s cls n slot) n = canStarted (can s n) := by
  rw [portEnable_can slot hw hcls, can_finish, can_setF, can_setCan_same]

end Sys2Proof.Machine

namespace Sys2Proof.Proofs
open Sys2Proof.Machine

/-- Settles O38, by class: what a command changes after the settings leaves them, and a panel port's command waits. -/
theorem portCommands : Obligations.PortCommands := by
  unfold Obligations.PortCommands
  intro s k c
  dsimp only
  intro hn
  refine ⟨fun hr hw => ?_, fun hr hw => ⟨fun hcls hbad => ?_, fun hcls hbad hrun hidle => ⟨_, exec_portSet_ready hr, ?_⟩,
    fun hcls => ⟨_, exec_portSet_ready hr, ?_⟩, fun hcls hmode => ⟨_, exec_portSet_ready hr, ?_⟩,
    fun hcls hen => ⟨_, exec_portSet_ready hr, ?_⟩⟩, fun hr hw => ?_, fun hr hw => ⟨_, exec_portEnable_ready hr, ?_⟩, fun hr hw => ?_,
    fun hr hw hfree => ⟨_, exec_portDisable_ready hr, ?_⟩, fun hr hw hcls hen => ⟨_, exec_portDisable_ready hr, ?_⟩⟩
  · rw [exec_portSet_ready hr, portSet_wedged hw]
  · rw [exec_portSet_ready hr, portSet_serial hw _ _ hcls, serialPortSet_bad hbad]
  · rw [portSet_serial hw _ _ hcls]
    rw [hcls] at hn hw
    exact serialPortSet_settings k hn hw hbad hrun hidle
  · rw [portSet_eventIn hw _ _ hcls]
    rw [hcls] at hn hw
    exact eiPortSet_settings k _ hn hw
  · rw [portSet_eventOut hw _ _ hcls]
    rw [hcls] at hn hw
    exact eoPortSet_settings s k _ hn hmode
  · rw [portSet_panel hw _ _ hcls, panelPortSet, if_pos hen]
    refine ⟨?_, cmdAt_panel_running (cmdAt_of_ready hr) _, rfl⟩
    exact congrArg PanelPort.pendSet (panel_setPanel_same s _ _)
  · rw [exec_portEnable_ready hr, portEnable_wedged hw]
  · refine ⟨?_, ?_, fun hcls => ?_⟩
    · obtain ⟨t, hdone, hen⟩ := portEnable_enables k hn hw
      rw [hdone, portEn_finish _ _ _ _ _ hn, hen]
    · obtain ⟨t, hdone, -⟩ := portEnable_enables k hn hw
      rw [hdone, cmdAt_finish]
    · rw [can_portEnable k hw hcls]
      exact ⟨rfl, rfl, rfl, rfl⟩
  · rw [exec_portDisable_ready hr, portDisable_wedged hw]
  · obtain ⟨t, r0, r1, hdone, hoff⟩ := portDisable_disables k hn hw hfree
    rw [hdone, portEn_finish _ _ _ _ _ hn, hoff, cmdAt_finish]
    exact ⟨rfl, rfl⟩
  · rw [hcls] at hw ⊢
    rw [portDisable_panel k hw hen]
    refine ⟨?_, cmdAt_panel_running (cmdAt_of_ready hr) _, rfl⟩
    exact congrArg PanelPort.closing (panel_setPanel_same s _ _)

end Sys2Proof.Proofs
end

section
/-! # The tick of TB (R63, R64, R345)

What a step on an empty queue does: the clock and RATE by tick, and what a hub that works does besides by a relation that every part of the
tick keeps. -/

namespace Sys2Proof.Machine

/-! ## The clock -/

/-- The clock gains 4 ns and RATE, and wraps at 2^48 s (R63). -/
theorem tick_clk (s : State) :
    ((tick s).time.clk : Int) = ((s.time.clk : Int) + 2 ^ 40 + (tickRate s).toInt) % (2 ^ 48 * 1000000000 * 2 ^ 38) :=
  Int.toNat_of_nonneg (Int.emod_nonneg _ (by decide))

/-- A tick changes the clock, the count of ticks, RATE and the occupancy counts. -/
theorem tick_eq (s : State) :
    tick s = { s with
      time := { s.time with clk := (tick s).time.clk, tb := s.time.tb + 1, rateNext := tickRate s }
      regs := (tick s).regs
      vid := (tick s).vid } := rfl

/-- RATE is the only register that a tick changes. -/
theorem reg_tick (s : State) (off : Nat) : reg (tick s) off = if off = Reg.rate then tickRate s else reg s off := reg_setReg _ _ _ _

theorem ticking_tick (s : State) : ticking (tick s) = ticking s := rfl

/-! ## What a hub that works does at a tick -/

/-- From s to t outputs took tables and Leash characters left: neither the clock nor RATE changed. -/
structure TickServed (s t : State) : Prop where
  frame : ∃ r e x os, t = { s with regs := r, evOut := e, serial := x, out := s.out ++ os }
  rate : reg t Reg.rate = reg s Reg.rate

theorem TickServed.refl (s : State) : TickServed s s := ⟨⟨s.regs, s.evOut, s.serial, [], by simp⟩, rfl⟩

theorem TickServed.trans {s t u : State} (h : TickServed s t) (k : TickServed t u) : TickServed s u := by
  obtain ⟨⟨r, e, x, os, rfl⟩, hrate⟩ := h
  obtain ⟨⟨r', e', x', os', rfl⟩, hrate'⟩ := k
  exact ⟨⟨r', e', x', os ++ os', by simp⟩, hrate'.trans hrate⟩

/-- What every operation of a sequence keeps, the sequence keeps. -/
theorem TickServed.foldl {α : Type} {f : State → α → State} (hf : ∀ s a, TickServed s (f s a)) (l : List α) (s : State) :
    TickServed s (l.foldl f s) :=
  List.foldlRecOn l f (.refl s) fun t ht a _ => ht.trans (hf t a)

/-- Ports that change beside their registers. -/
theorem TickServed.of_ports (s : State) (e : SMap EvOut) (x : SMap SerialPort) : TickServed s { s with evOut := e, serial := x } :=
  ⟨⟨s.regs, e, x, [], by simp⟩, rfl⟩

theorem tickServed_setF (s : State) {off : Nat} (h : Reg.rate ≠ off) (hi lo v : Nat) : TickServed s (setF s off hi lo v) :=
  ⟨⟨(setF s off hi lo v).regs, s.evOut, s.serial, [], by rw [List.append_nil]; rfl⟩, reg_setF_other h⟩

theorem tickServed_emit (s : State) (o : Out) : TickServed s (emit s o) := ⟨⟨s.regs, s.evOut, s.serial, [o], rfl⟩, rfl⟩

theorem tickServed_setSerial (s : State) (p : Nat) (v : SerialPort) : TickServed s (setSerial s p v) := .of_ports s s.evOut _

theorem tickServed_eoTable (s : State) (m : Nat) : TickServed s (eoTable s m) := by
  unfold eoTable
  extract_lets b
  split
  · exact .refl s
  · exact .of_ports s _ s.serial

theorem tickServed_leashDepart (s : State) (p : Nat) (xoff : Bool) (at_ : Int) : TickServed s (leashDepart s p xoff at_) := by
  have hrate : Reg.rate ≠ Reg.spStatus p := by
    unfold Reg.rate Reg.spStatus
    omega
  unfold leashDepart
  extract_lets t behind v
  have ht : TickServed s t := (tickServed_setF s hrate 12 12 _).trans (tickServed_emit _ _)
  clear_value t
  have hset : ∀ x, TickServed s (setSerial t p x) := fun x => ht.trans (tickServed_setSerial t p x)
  split
  · split
    · exact hset _
    · split
      · exact hset _
      · exact hset _
  · exact hset _

theorem tickServed_leashRun (s : State) (p : Nat) (l : List Bool) : TickServed s (leashRun s p l) := by
  induction l generalizing s with
  | nil => exact tickServed_setSerial s p _
  | cons x xs ih =>
    unfold leashRun
    split
    · exact tickServed_setSerial s p _
    · split
      · exact tickServed_setSerial s p _
      · exact (tickServed_leashDepart s p x _).trans (ih _)

theorem tickServed_leashTick (s : State) : TickServed s (leashTick s) :=
  .foldl (fun t p => by
    split
    · exact .refl t
    · exact tickServed_leashRun t p _) _ s

/-- Outputs take tables, then Leash characters leave. -/
theorem tickServed_portsTick (s : State) : TickServed s (leashTick ((List.range 8).foldl eoTable s)) :=
  (TickServed.foldl tickServed_eoTable _ s).trans (tickServed_leashTick _)

/-- A sequence of operations of which none changes the state. -/
theorem foldl_eq_self {α β : Type} {f : β → α → β} {b : β} {l : List α} (h : ∀ a ∈ l, f b a = b) : l.foldl f b = b :=
  List.foldlRecOn l f (motive := (· = b)) rfl fun _ hc a ha => hc ▸ h a ha

/-! ## Far writes (R302) -/

/-- A far write that is issued changes the reverse queue and what leaves the hub. -/
theorem reverseTick_issues {s : State} {w : Nat × List Byte} {ws : List (Nat × List Byte)} (hm : hostMem s = true)
    (hw : s.bridge.reverse = w :: ws) :
    reverseTick s = dmaWrite (setBridge s { s.bridge with reverse := ws }) w.1 w.2 := by
  simp [reverseTick, hw, hm]

/-- The reverse queue at a tick leaves the time core and the registers. -/
theorem reverseTick_frame (s : State) : ∃ b o, reverseTick s = { s with bridge := b, out := o } := by
  unfold reverseTick
  split
  · exact ⟨s.bridge, s.out, rfl⟩
  · split
    · exact ⟨_, _, rfl⟩
    · exact ⟨s.bridge, s.out, rfl⟩

/-! ## The checks of a tick, with no injection armed (R339, R340) -/

theorem houndCheck_unarmed {s : State} (h : s.integ.arms = []) (e : Nat) : houndCheck s e = s := by
  unfold houndCheck
  split
  · rfl
  · simp [injected_none h]

theorem deadlineCheck_unarmed {s : State} (h : s.integ.arms = []) (kind num : Nat) : deadlineCheck s kind num = s := by
  unfold deadlineCheck
  split
  · rfl
  · simp [injected_none h]

/-- With no injection armed a tick of a hub that works issues a far write, takes tables and lets Leash characters leave. -/
theorem hubTick_unarmed {s : State} (ht : ticking s = true) (h : s.integ.arms = []) :
    hubTick s = leashTick ((List.range 8).foldl eoTable (reverseTick (tick s))) := by
  obtain ⟨b, o, hrev⟩ := reverseTick_frame (tick s)
  obtain ⟨⟨r, e, x, os, hframe⟩, -⟩ := tickServed_portsTick (reverseTick (tick s))
  have harms : (leashTick ((List.range 8).foldl eoTable (reverseTick (tick s)))).integ.arms = [] := by
    rw [hframe, hrev]
    exact h
  unfold hubTick
  simp only [ticking_tick, ht, Bool.not_true, Bool.false_eq_true, if_false]
  generalize leashTick ((List.range 8).foldl eoTable (reverseTick (tick s))) = t at harms ⊢
  rw [foldl_eq_self fun e _ => houndCheck_unarmed harms e, foldl_eq_self fun e _ => deadlineCheck_unarmed harms e.1 e.2]

/-- What a tick does behind the clock and the reverse queue, with no injection armed. -/
theorem tickServed_hubTick {s : State} (ht : ticking s = true) (h : s.integ.arms = []) : TickServed (reverseTick (tick s)) (hubTick s) := by
  rw [hubTick_unarmed ht h]
  exact tickServed_portsTick _

/-- Where nothing waits for a tick, it does nothing besides moving the clock. -/
theorem hubTick_nothingWaits {s : State} (ht : ticking s = true) (h : s.integ.arms = []) (hrev : s.bridge.reverse = [])
    (hleash : ∀ p, p < 128 → (serial s p).leash = []) (htab : ∀ m, m < 8 → (evOut s m).table = (region s m).newest) :
    hubTick s = tick s := by
  have hreverse : reverseTick (tick s) = tick s := by
    have : (tick s).bridge.reverse = [] := hrev
    simp [reverseTick, this]
  have htable : ∀ m ∈ List.range 8, eoTable (tick s) m = tick s := fun m hm => by
    have : (evOut (tick s) m).table = (region (tick s) m).newest := htab m (List.mem_range.1 hm)
    simp [eoTable, this]
  have hquiet : leashTick (tick s) = tick s := foldl_eq_self fun p hp => by
    have : (serial (tick s) p).leash = [] := hleash p (List.mem_range.1 hp)
    simp [this]
  rw [hubTick_unarmed ht h, hreverse, foldl_eq_self htable, hquiet]

/-- The time core and RATE after a tick, in a hub that has stopped, or in which no injection is armed. -/
theorem hubTick_clock {s : State} (h : ticking s = false ∨ s.integ.arms = []) :
    (hubTick s).time = (tick s).time ∧ reg (hubTick s) Reg.rate = tickRate s := by
  have hrate : reg (tick s) Reg.rate = tickRate s := (reg_tick s _).trans (if_pos rfl)
  cases ht : ticking s with
  | false =>
    rw [hubTick_idle ht]
    exact ⟨rfl, hrate⟩
  | true =>
    obtain ⟨b, o, hrev⟩ := reverseTick_frame (tick s)
    obtain ⟨⟨r, e, x, os, hframe⟩, hserved⟩ := tickServed_hubTick ht (h.resolve_left (by simp [ht]))
    refine ⟨?_, hserved.trans ?_⟩
    · rw [hframe, hrev]
    · rw [hrev]
      exact hrate

/-- A tick issues the oldest far write (log 27). -/
theorem hubTick_reverse {s : State} {w : Nat × List Byte} {ws : List (Nat × List Byte)} (ht : ticking s = true)
    (h : s.integ.arms = []) (hm : hostMem s = true) (hw : s.bridge.reverse = w :: ws) :
    (hubTick s).bridge.reverse = ws ∧ ∃ os, (hubTick s).out = (dmaWrite s w.1 w.2).out ++ os := by
  obtain ⟨⟨r, e, x, os, hframe⟩, -⟩ := tickServed_hubTick ht h
  rw [hframe, reverseTick_issues (s := tick s) hm hw]
  exact ⟨rfl, os, rfl⟩

end Sys2Proof.Machine

namespace Sys2Proof.Proofs
open Sys2Proof.Machine

/-- Settles O17: the clock and RATE by the tick, and what else may change by what waits for it. -/
theorem clockTick : Obligations.ClockTick := by
  unfold Obligations.ClockTick
  intro s hqueue
  dsimp only
  refine ⟨fun htb hphase => ?_, fun htb hcase => ⟨hubTick s, ?_, ?_, ?_, ?_, fun hidle => ?_, fun w ws ht hm hw => ?_⟩⟩
  · simp [step_empty hqueue, htb, hphase]
  · rw [step_empty hqueue, if_pos htb]
  · rw [(hubTick_clock hcase).1]
    exact tick_clk s
  · rw [(hubTick_clock hcase).1]
    rfl
  · exact (hubTick_clock hcase).2
  · have htick : hubTick s = tick s := by
      cases ht : ticking s with
      | false => exact hubTick_idle ht
      | true =>
        obtain ⟨hrev, hleash, htab⟩ := hidle.resolve_left (by simp [ht])
        exact hubTick_nothingWaits ht (hcase.resolve_left (by simp [ht])) hrev hleash htab
    rw [htick]
    exact ⟨tick_eq s, fun off hoff => (reg_tick s off).trans (if_neg hoff)⟩
  · exact hubTick_reverse ht (hcase.resolve_left (by simp [ht])) hm hw

end Sys2Proof.Proofs
end

section
/-! # Snapshots of the clock and compare units (R67, R71) -/

namespace Sys2Proof.Machine

/-- From s to t only registers changed. -/
def RegsOnly (s t : State) : Prop := ∃ r, t = { s with regs := r }

theorem RegsOnly.refl (s : State) : RegsOnly s s := ⟨s.regs, rfl⟩

theorem RegsOnly.setReg {s t : State} (h : RegsOnly s t) (off : Nat) (v : Word) : RegsOnly s (Machine.setReg t off v) := by
  obtain ⟨r, rfl⟩ := h
  exact ⟨_, rfl⟩

theorem RegsOnly.eq {s t : State} (h : RegsOnly s t) : t = { s with regs := t.regs } := by
  obtain ⟨r, rfl⟩ := h
  rfl

/-- A compare unit written behind registers. -/
theorem RegsOnly.setCmp_eq {s t : State} (h : RegsOnly s t) (n : Nat) (u : CmpUnit) :
    setCmp t n u = { s with regs := (setCmp t n u).regs, time := { s.time with cmp := (setCmp t n u).time.cmp } } := by
  obtain ⟨r, rfl⟩ := h
  rfl

/-! ## The snapshot -/

/-- The registers after a capture: the four snapshot registers, with the number of captures in the last (R67). -/
theorem reg_timeCapture (s : State) (off : Nat) :
    reg (timeCapture s) off =
      if off = Reg.timeSnapFrac then BitVec.ofNat 32 (stFrac (now s) + (regF s Reg.timeSnapFrac 31 24 + 1) % 256 * 2 ^ 24)
      else if off = Reg.timeSnapNs then BitVec.ofNat 32 (stNs (now s))
      else if off = Reg.timeSnapSecLo then BitVec.ofNat 32 (stSec (now s))
      else if off = Reg.timeSnapSecHi then BitVec.ofNat 32 (stSec (now s) / 2 ^ 32) else reg s off := by
  have hseq : ∀ v w, regF (setReg (setReg s Reg.timeSnapSecHi v) Reg.timeSnapSecLo w) Reg.timeSnapFrac 31 24
      = regF s Reg.timeSnapFrac 31 24 := fun v w => regF_of_reg (by
    rw [reg_setReg, if_neg (by decide), reg_setReg, if_neg (by decide)]) 31 24
  simp only [timeCapture, reg_setReg, hseq]

theorem regsOnly_timeCapture (s : State) : RegsOnly s (timeCapture s) := ((((RegsOnly.refl s).setReg _ _).setReg _ _).setReg _ _).setReg _ _

/-! ## Compare units -/

/-- A compare unit after a unit is written. -/
theorem cmpUnit_setCmp (s : State) (n m : Nat) (u : CmpUnit) : cmpUnit (setCmp s n u) m = if m = n then u else cmpUnit s m := by
  simp [cmpUnit, setCmp]

/-- The registers of a compare unit and the status of the units lie apart. -/
theorem cmpRegs_apart (n : Fin 4) :
    Reg.cmpSec n ≠ Reg.cmpNs n ∧ Reg.cmpCtrl n ≠ Reg.cmpSec n ∧ Reg.cmpCtrl n ≠ Reg.cmpNs n ∧ Reg.cmpStatus ≠ Reg.cmpSec n
      ∧ Reg.cmpStatus ≠ Reg.cmpNs n ∧ Reg.cmpStatus ≠ Reg.cmpCtrl n ∧ Reg.cmpPeriod n ≠ Reg.cmpStatus := by
  unfold Reg.cmpSec Reg.cmpNs Reg.cmpCtrl Reg.cmpStatus Reg.cmpPeriod
  omega

/-- The registers after a target is loaded. -/
theorem reg_cmpLoad (s : State) (n : Nat) (ns : Word) (off : Nat) :
    reg (cmpLoad s n ns) off =
      if off = Reg.cmpNs n then ns &&& 0x3FFFFFFF#32 else if off = Reg.cmpSec n then (cmpUnit s n).heldSec else reg s off :=
  (reg_setReg _ _ _ _).trans (by rw [reg_setReg])

/-- EN that rises arms the unit (R71). -/
theorem cmpCtrl_rises {s : State} {n : Nat} (h : regB s (Reg.cmpCtrl n) 0 = false) :
    cmpCtrl s n true = setCmp (setF s (Reg.cmpCtrl n) 0 0 1) n { cmpUnit s n with setTb := s.time.tb } := by
  simp only [cmpCtrl, h, Bool.not_false, Bool.and_self, if_true]
  rfl

/-! ## The hit (R71) -/

theorem exec_compareHit (n : Fin 4) (s : State) : exec (.compareHit n) s = execCompareHit n s := rfl

/-- A hit changes the event outputs that it triggers. -/
theorem eoCompare_frame (s : State) (n : Nat) (sec ns : Word) (k : Nat) : ∃ e, eoCompare s n sec ns k = { s with evOut := e } := by
  induction k with
  | zero => exact ⟨s.evOut, rfl⟩
  | succ k ih =>
    obtain ⟨e, h⟩ := ih
    simp only [eoCompare, h]
    split
    · split <;> exact ⟨_, rfl⟩
    · exact ⟨e, rfl⟩

/-- The hub after HIT is set and the outputs are triggered. -/
def cmpHit (s : State) (n : Nat) : State :=
  eoCompare (setF s Reg.cmpStatus n n 1) n (reg s (Reg.cmpSec n)) (reg s (Reg.cmpNs n)) 8

/-- A hit changes CMP_STATUS and the event outputs. -/
theorem cmpHit_frame (s : State) (n : Nat) : ∃ e, cmpHit s n = { setF s Reg.cmpStatus n n 1 with evOut := e } := eoCompare_frame _ _ _ _ _

theorem cmpHit_regs (s : State) (n : Nat) : (cmpHit s n).regs = (setF s Reg.cmpStatus n n 1).regs := by
  obtain ⟨e, he⟩ := cmpHit_frame s n
  rw [he]

theorem reg_cmpHit (s : State) {n off : Nat} (h : off ≠ Reg.cmpStatus) : reg (cmpHit s n) off = reg s off :=
  (reg_of_regs (cmpHit_regs s n) off).trans (reg_setF_other h)

theorem dNow_cmpHit (s : State) (n : Nat) (sec ns : Word) : dNow (cmpHit s n) sec ns = dNow s sec ns := by
  obtain ⟨e, he⟩ := cmpHit_frame s n
  rw [he]
  rfl

/-- HIT of the unit is set. -/
theorem regB_cmpHit (s : State) (n : Fin 4) : regB (cmpHit s n) Reg.cmpStatus n = true := by
  rw [regB_of_reg (reg_of_regs (cmpHit_regs s n) _), regB_setF (le_refl _) (by omega), if_pos ⟨le_refl _, le_refl _⟩, Nat.sub_self]
  decide

/-- A compare unit goes on to a target, judged at later ticks. -/
def cmpMoved (s : State) (n : Nat) (t : Word × Word) : State :=
  let s := setReg (setReg s (Reg.cmpSec n) t.1) (Reg.cmpNs n) t.2
  setCmp s n { cmpUnit s n with setTb := s.time.tb }

theorem reg_cmpMoved (s : State) (n : Nat) (t : Word × Word) (off : Nat) :
    reg (cmpMoved s n t) off = if off = Reg.cmpNs n then t.2 else if off = Reg.cmpSec n then t.1 else reg s off :=
  (reg_setReg _ _ _ _).trans (by rw [reg_setReg])

/-- The periods that a unit skips are counted, with MISS. -/
def cmpSkipped (s : State) (n k : Nat) : State := count (setF s Reg.cmpStatus (4 + n) (4 + n) 1) (Reg.cmpCtrl n) 31 16 k

/-- The period in effect: PERIOD, and 1 000 where it is less. -/
def cmpStep (s : State) (n : Nat) : Nat := max 1000 (reg s (Reg.cmpPeriod n)).toNat

/-- The target one period behind the one that was hit. -/
def cmpNext (s : State) (n : Nat) : Word × Word := shortAdd (reg s (Reg.cmpSec n)) (reg s (Reg.cmpNs n)) (cmpStep s n)

/-- The target that a periodic unit goes on to, with the hub as the hit leaves it: behind the periods that are past already. -/
def cmpAhead (s : State) (n : Nat) : (Word × Word) × State :=
  let d := dNow s (cmpNext s n).1 (cmpNext s n).2
  if d < 0 then (cmpNext s n, cmpHit s n)
  else
    let k := skipPeriods d (cmpStep s n)
    (shortAdd (cmpNext s n).1 (cmpNext s n).2 (k * cmpStep s n), cmpSkipped (cmpHit s n) n k)

/-- What a hit gives: EN cleared, or the target ahead (R71). -/
theorem execCompareHit_due {s : State} {n : Fin 4} (ht : ticking s = true) (hen : regB s (Reg.cmpCtrl n) 0 = true)
    (hr : reached s (reg s (Reg.cmpSec n)) (reg s (Reg.cmpNs n)) (cmpUnit s n).setTb = true) :
    execCompareHit n s = .next (
      if (reg s (Reg.cmpPeriod n)).toNat = 0 then setF (cmpHit s n) (Reg.cmpCtrl n) 0 0 0
      else cmpMoved (cmpAhead s n).2 n (cmpAhead s n).1) := by
  have hperiod : reg (cmpHit s n) (Reg.cmpPeriod n) = reg s (Reg.cmpPeriod n) := reg_cmpHit s (cmpRegs_apart n).2.2.2.2.2.2
  have hhit : eoCompare (setF s Reg.cmpStatus n n 1) n (reg s (Reg.cmpSec n)) (reg s (Reg.cmpNs n)) 8 = cmpHit s n := rfl
  simp only [execCompareHit, ht, hen, hr, Bool.and_self, Bool.not_true, Bool.false_eq_true, if_false, hhit, hperiod, dNow_cmpHit,
    beq_iff_eq]
  split
  · rfl
  · rfl

/-- From s to t a unit hit: HIT is set, and of what is not a register only totals, event outputs and compare units changed. -/
structure CmpHitGiven (s t : State) (n : Nat) : Prop where
  hit : regB t Reg.cmpStatus n = true
  clk : t.time.clk = s.time.clk
  frame : t = { s with regs := t.regs, totals := t.totals, evOut := t.evOut, time := t.time }

theorem cmpHitGiven_cmpHit (s : State) (n : Fin 4) : CmpHitGiven s (cmpHit s n) n := by
  have hhit := regB_cmpHit s n
  obtain ⟨e, he⟩ := cmpHit_frame s n
  rw [he] at hhit ⊢
  exact ⟨hhit, rfl, rfl⟩

/-- What leaves HIT as it is may follow. -/
theorem CmpHitGiven.mono {s t u : State} {n : Nat} (h : CmpHitGiven s t n) (hhit : regB u Reg.cmpStatus n = regB t Reg.cmpStatus n)
    (hclk : u.time.clk = t.time.clk) (hframe : u = { t with regs := u.regs, totals := u.totals, time := u.time }) :
    CmpHitGiven s u n := by
  obtain ⟨hhit', hclk', hframe'⟩ := h
  refine ⟨hhit.trans hhit', hclk.trans hclk', ?_⟩
  rw [hframe, hframe']

theorem CmpHitGiven.setReg {s t : State} {n : Nat} (h : CmpHitGiven s t n) {off : Nat} (hoff : Reg.cmpStatus ≠ off) (v : Word) :
    CmpHitGiven s (Machine.setReg t off v) n :=
  h.mono (regB_of_reg ((reg_setReg t off _ v).trans (if_neg hoff)) n) rfl rfl

theorem CmpHitGiven.setF {s t : State} {n : Nat} (h : CmpHitGiven s t n) {off : Nat} (hoff : Reg.cmpStatus ≠ off) (hi lo v : Nat) :
    CmpHitGiven s (Machine.setF t off hi lo v) n := h.setReg hoff _

theorem CmpHitGiven.count {s t : State} {n : Nat} (h : CmpHitGiven s t n) {off : Nat} (hoff : Reg.cmpStatus ≠ off) (hi lo k : Nat) :
    CmpHitGiven s (Machine.count t off hi lo k) n :=
  h.mono (regB_of_reg (reg_count_other hoff) n) rfl rfl

/-- MISS of the unit is set beside HIT. -/
theorem CmpHitGiven.missed {s t : State} {n : Fin 4} (h : CmpHitGiven s t n) :
    CmpHitGiven s (Machine.setF t Reg.cmpStatus (4 + n) (4 + n) 1) n :=
  h.mono ((regB_setF (le_refl _) (by omega) _).trans (if_neg (by omega))) rfl rfl

theorem CmpHitGiven.setCmp {s t : State} {n : Nat} (h : CmpHitGiven s t n) (u : CmpUnit) : CmpHitGiven s (Machine.setCmp t n u) n :=
  h.mono rfl rfl rfl

theorem CmpHitGiven.moved {s t : State} {n : Fin 4} (h : CmpHitGiven s t n) (x : Word × Word) : CmpHitGiven s (cmpMoved t n x) n := by
  obtain ⟨-, -, -, hsec, hns, -⟩ := cmpRegs_apart n
  exact ((h.setReg hsec x.1).setReg hns x.2).setCmp _

theorem CmpHitGiven.skipped {s t : State} {n : Fin 4} (h : CmpHitGiven s t n) (k : Nat) : CmpHitGiven s (cmpSkipped t n k) n := by
  obtain ⟨-, -, -, -, -, hctrl, -⟩ := cmpRegs_apart n
  exact h.missed.count hctrl _ _ _

theorem cmpHitGiven_cmpAhead (s : State) (n : Fin 4) : CmpHitGiven s (cmpAhead s n).2 n := by
  unfold cmpAhead
  extract_lets d k
  split
  · exact cmpHitGiven_cmpHit s n
  · exact (cmpHitGiven_cmpHit s n).skipped _

/-- A period that lies ahead gives the next target. -/
theorem cmpAhead_next {s : State} {n : Nat} (h : dNow s (cmpNext s n).1 (cmpNext s n).2 < 0) :
    cmpAhead s n = (cmpNext s n, cmpHit s n) := if_pos h

/-- A single hit clears EN, and leaves the target (R71). -/
theorem cmpHit_ended (s : State) (n : Fin 4) :
    let t := setF (cmpHit s n) (Reg.cmpCtrl n) 0 0 0
    regB t (Reg.cmpCtrl n) 0 = false ∧ reg t (Reg.cmpSec n) = reg s (Reg.cmpSec n) ∧ reg t (Reg.cmpNs n) = reg s (Reg.cmpNs n) := by
  obtain ⟨-, hcs, hcn, hss, hsn, -, -⟩ := cmpRegs_apart n
  intro t
  refine ⟨?_, ?_, ?_⟩
  · rw [regB_setF (le_refl _) (by decide), if_pos ⟨le_refl _, le_refl _⟩]
    rfl
  · rw [reg_setF_other hcs.symm, reg_cmpHit s hss.symm]
  · rw [reg_setF_other hcn.symm, reg_cmpHit s hsn.symm]

/-- A unit that goes on stays enabled. -/
theorem cmpHit_moved {s : State} {n : Fin 4} (hen : regB s (Reg.cmpCtrl n) 0 = true) (x : Word × Word) :
    let t := cmpMoved (cmpHit s n) n x
    regB t (Reg.cmpCtrl n) 0 = true ∧ reg t (Reg.cmpSec n) = x.1 ∧ reg t (Reg.cmpNs n) = x.2 ∧ (cmpUnit t n).setTb = s.time.tb := by
  obtain ⟨hsn, hcs, hcn, -, -, hsc, -⟩ := cmpRegs_apart n
  intro t
  refine ⟨?_, ?_, ?_, ?_⟩
  · refine (regB_of_reg ?_ 0).trans hen
    rw [reg_cmpMoved, if_neg hcn, if_neg hcs, reg_cmpHit s hsc.symm]
  · rw [reg_cmpMoved, if_neg hsn, if_pos rfl]
  · rw [reg_cmpMoved, if_pos rfl]
  · obtain ⟨e, he⟩ := cmpHit_frame s n
    refine (congrArg CmpUnit.setTb ((cmpUnit_setCmp _ _ _ _).trans (if_pos rfl))).trans ?_
    rw [he]
    rfl

end Sys2Proof.Machine

namespace Sys2Proof.Proofs
open Sys2Proof.Machine

/-- Settles O18: the snapshot and the writes of a unit by their registers, a hit by the branch that its period takes. -/
theorem timeRegisters : Obligations.TimeRegisters := by
  unfold Obligations.TimeRegisters
  refine ⟨fun s hw => ?_, fun s n ht hen hr => ?_⟩
  · have hload : ∀ n ns, RegsOnly s (setReg (setReg s (Reg.cmpSec n) (cmpUnit s n).heldSec) (Reg.cmpNs n) ns) :=
      fun n ns => ((RegsOnly.refl s).setReg _ _).setReg _ _
    refine ⟨⟨timeCapture s, ?_, ?_, ?_, ?_, ?_, fun off hoff => ?_, (regsOnly_timeCapture s).eq⟩,
      fun n ns => ⟨cmpLoad s n ns, ?_, ?_, ?_, ?_, fun off hoff => ?_, (hload n _).setCmp_eq n _⟩,
      fun n hoff => ⟨setCmp (setF s (Reg.cmpCtrl n) 0 0 1) n { cmpUnit s n with setTb := s.time.tb }, ?_, ?_, ?_, fun off hmem => ?_,
        ((RegsOnly.refl s).setReg _ _).setCmp_eq n _⟩⟩
    · simp [exec_timeLatchCapture, execTimeLatchCapture, hw]
    · exact reg_timeCapture s _
    · exact reg_timeCapture s _
    · exact reg_timeCapture s _
    · exact reg_timeCapture s _
    · simp only [List.mem_cons, List.not_mem_nil, or_false, not_or] at hoff
      obtain ⟨hhi, hlo, hns, hfrac⟩ := hoff
      rw [reg_timeCapture, if_neg hfrac, if_neg hns, if_neg hlo, if_neg hhi]
    · simp [exec_cmpTargetLoad, execCmpTargetLoad, hw]
    · rw [reg_cmpLoad, if_neg (cmpRegs_apart n).1, if_pos rfl]
    · rw [reg_cmpLoad, if_pos rfl]
    · rw [cmpLoad, cmpUnit_setCmp, if_pos rfl]
      rfl
    · simp only [List.mem_cons, List.not_mem_nil, or_false, not_or] at hoff
      rw [reg_cmpLoad, if_neg hoff.2, if_neg hoff.1]
    · simp [exec_cmpEnable, execCmpEnable, hw, cmpCtrl_rises hoff]
    · exact (regB_setF (le_refl 0) (by decide) 0).trans (if_pos ⟨le_refl 0, le_refl 0⟩)
    · rw [cmpUnit_setCmp, if_pos rfl]
    · exact reg_setF_other (by simpa using hmem)
  · obtain ⟨-, -, -, -, -, hsc, -⟩ := cmpRegs_apart n
    have hexec := (exec_compareHit n s).trans (execCompareHit_due ht hen hr)
    by_cases hp : (reg s (Reg.cmpPeriod n)).toNat = 0
    · rw [if_pos hp] at hexec
      have hgiven := (cmpHitGiven_cmpHit s n).setF hsc 0 0 0
      exact ⟨_, hexec, hgiven.hit, fun _ => cmpHit_ended s n, fun h => absurd hp h, hgiven.clk, hgiven.frame⟩
    · rw [if_neg hp] at hexec
      have hgiven := (cmpHitGiven_cmpAhead s n).moved (cmpAhead s n).1
      refine ⟨_, hexec, hgiven.hit, fun h => absurd h hp, fun _ hd => ?_, hgiven.clk, hgiven.frame⟩
      rw [cmpAhead_next hd]
      exact cmpHit_moved hen _

end Sys2Proof.Proofs
end

section
/-! # The reference clock, silence of the time source, and the pairing window (R72, R80, R92, R95) -/

namespace Sys2Proof.Machine

/-! ## The dispatch -/

theorem exec_pllLock (s : State) : exec .pllLock s = execPllLock s := rfl

theorem exec_refclkLoss (s : State) : exec .refclkLoss s = execRefclkLoss s := rfl

theorem exec_holdTimeout (s : State) : exec .holdTimeout s = execHoldTimeout s := rfl

theorem exec_pairWindowClose (s : State) : exec .pairWindowClose s = execPairWindowClose s := rfl

/-! ## What a field, a counter and a detector leave -/

@[simp] theorem setF_time (s : State) (o hi lo v : Nat) : (setF s o hi lo v).time = s.time := rfl
@[simp] theorem total_setF (s : State) (o hi lo v off l : Nat) : total (setF s o hi lo v) off l = total s off l := rfl
@[simp] theorem count_time (s : State) (o hi lo n : Nat) : (count s o hi lo n).time = s.time := rfl

/-- The time core does not change when a detector fires. -/
@[simp] theorem fire_time (s : State) (d unit d2 d3 : Nat) (inj : Bool) (l : Option Nat) : (fire s d unit d2 d3 inj l).time = s.time := by
  obtain ⟨r, rg, o, q, f, m, n, h⟩ := fireAt_frame s d unit d2 d3 inj l (now s)
  rw [fire, h]

/-- Of the totals, a firing changes the detector's alone. -/
theorem total_fire_other (s : State) {d off lo : Nat} (unit d2 d3 : Nat) (inj : Bool) (l : Option Nat)
    (h : 32 * off + lo ≠ 32 * Reg.detCount d) : total (fire s d unit d2 d3 inj l) off lo = total s off lo := by
  obtain ⟨r, rg, o, q, f, m, n, hframe⟩ := fireAt_frame s d unit d2 d3 inj l (now s)
  rw [fire, hframe]
  exact (sget_sset _ _ _ _ _).trans (if_neg h)

/-- Another total after a counter counted. -/
theorem total_count_other (s : State) {off lo off' lo' : Nat} (hi n : Nat) (h : 32 * off' + lo' ≠ 32 * off + lo) :
    total (count s off hi lo n) off' lo' = total s off' lo' :=
  (sget_sset _ _ _ _ _).trans (if_neg h)

/-- A bit of the register outside the field of a counter that counted. -/
theorem regB_count_outside (s : State) {off hi lo i : Nat} (n : Nat) (h : lo ≤ hi) (h32 : hi < 32) (hout : i < lo ∨ hi < i) :
    regB (count s off hi lo n) off i = regB s off i := by
  have hset : regB (setF s off hi lo (satAdd (regF s off hi lo) n (2 ^ (hi + 1 - lo) - 1))) off i = regB s off i := by
    rw [regB_setF h h32, if_neg (by omega)]
  exact hset

/-! ## Intervals that begin (R79, R80) -/

/-- A region whose interval begins now, with no hits. -/
def freshRegion (s : State) (m : CalMode) (r : Region) : Region :=
  { r with
    startTb := s.time.tb, ctl := reg s Reg.calCtrl, target := reg s Reg.calHits, mode := m, hist := [], hits := 0, live := 0 }

/-- The settings of an interval and its first tick come from two registers and the count of ticks. -/
theorem freshRegion_congr {s t : State} (htb : t.time.tb = s.time.tb) (hctl : reg t Reg.calCtrl = reg s Reg.calCtrl)
    (hhits : reg t Reg.calHits = reg s Reg.calHits) (r : Region) :
    freshRegion t (freshMode t) r = freshRegion s (freshMode s) r := by
  rw [freshRegion, freshRegion, freshMode, freshMode, htb, hctl, hhits, regB_of_reg hctl]

theorem newInterval_fresh (s : State) (g : Nat) (m : CalMode) :
    newInterval s g false m = setRegion s g (freshRegion s m (region s g)) := rfl

/-- Intervals that begin one after another change the regions alone, and each of them as if it were alone. -/
theorem foldl_newInterval (gs : List Nat) (s : State) :
    (∃ m, gs.foldl (fun s g => newInterval s g false (freshMode s)) s = { s with regions := m })
      ∧ ∀ g, region (gs.foldl (fun s g => newInterval s g false (freshMode s)) s) g =
        if g ∈ gs then freshRegion s (freshMode s) (region s g) else region s g := by
  induction gs generalizing s with
  | nil => exact ⟨⟨s.regions, rfl⟩, fun g => rfl⟩
  | cons h gs ih =>
    obtain ⟨⟨m, hm⟩, hregion⟩ := ih (newInterval s h false (freshMode s))
    have hsettings : ∀ r, freshRegion (newInterval s h false (freshMode s)) (freshMode (newInterval s h false (freshMode s))) r
        = freshRegion s (freshMode s) r := fun r => rfl
    have htwice : ∀ r, freshRegion s (freshMode s) (freshRegion s (freshMode s) r) = freshRegion s (freshMode s) r := fun r => rfl
    refine ⟨⟨m, ?_⟩, fun g => ?_⟩
    · rw [List.foldl_cons, hm]
      rfl
    · rw [List.foldl_cons, hregion, hsettings, newInterval_fresh, region_setRegion]
      by_cases hg : g = h
      · simp [hg, htwice]
      · simp [hg]

/-! ## PLL lock (R63, R72) -/

/-- The hub once the PLL has locked: TIME_STATUS shows it, and the phase of the symbol grid is known. -/
def pllLocked (s : State) : State := gridMeasure (setF s Reg.timeStatus 0 0 1)

theorem pllLocked_frame (s : State) :
    ∃ p n, pllLocked s = { setF s Reg.timeStatus 0 0 1 with time := { s.time with gridPhase := p }, freeCount := n } := ⟨_, _, rfl⟩

theorem pllLocked_regs (s : State) : (pllLocked s).regs = (setF s Reg.timeStatus 0 0 1).regs := rfl

/-- PLL_LOCK is 1. -/
theorem regB_pllLocked (s : State) : regB (pllLocked s) Reg.timeStatus 0 = true :=
  (regB_of_reg (reg_of_regs (pllLocked_regs s) _) 0).trans
    ((regB_setF (le_refl 0) (by decide) 0).trans (if_pos ⟨le_refl 0, le_refl 0⟩))

theorem sameRegs_pllLocked (s : State) : SameRegs s (pllLocked s) [Reg.timeStatus] := fun off hoff =>
  (reg_of_regs (pllLocked_regs s) off).trans (sameRegs_setF s _ 0 0 1 off hoff)

/-- A later lock relocks. -/
theorem execPllLock_again {s : State} (hp : powered s = true) (hl : s.time.locked = true) :
    execPllLock s = .next (pllLocked s) := by
  have hl' : (pllLocked s).time.locked = true := hl
  simp only [execPllLock, hp, Bool.not_true, Bool.false_eq_true, if_false]
  exact if_pos hl'

/-- The hub once the PLL has locked for the first time: TB runs, and each region's first interval has begun. -/
def tbStarted (s : State) : State := firstIntervals (setTime (pllLocked s) { (pllLocked s).time with locked := true })

theorem tbStarted_spec (s : State) :
    ∃ m p n, tbStarted s = { setF s Reg.timeStatus 0 0 1 with
          time := { s.time with locked := true, gridPhase := p }, freeCount := n, regions := m }
      ∧ ∀ g, g < 8 → region (tbStarted s) g = freshRegion s (freshMode s) (region s g) := by
  obtain ⟨p, n, hlocked⟩ := pllLocked_frame s
  obtain ⟨⟨m, hm⟩, hregion⟩ := foldl_newInterval (List.range 8) (setTime (pllLocked s) { (pllLocked s).time with locked := true })
  have hsettings : ∀ off, off ≠ Reg.timeStatus →
      reg (setTime (pllLocked s) { (pllLocked s).time with locked := true }) off = reg s off :=
    fun off hoff => sameRegs_pllLocked s off (by simpa using hoff)
  refine ⟨m, p, n, ?_, fun g hg => ?_⟩
  · rw [tbStarted, firstIntervals, hm, hlocked]
    rfl
  · rw [tbStarted, firstIntervals, hregion, if_pos (List.mem_range.2 hg)]
    refine (freshRegion_congr ?_ (hsettings _ (by decide)) (hsettings _ (by decide)) _).trans ?_
    · rw [hlocked]
      rfl
    · rw [hlocked]
      rfl

/-- The first lock starts TB, and the first interval of each region. -/
theorem execPllLock_first {s : State} (hp : powered s = true) (hl : s.time.locked = false) :
    execPllLock s = .next (tbStarted s) := by
  have hl' : ¬(pllLocked s).time.locked = true := by simp [show (pllLocked s).time.locked = false from hl]
  simp only [execPllLock, hp, Bool.not_true, Bool.false_eq_true, if_false]
  exact if_neg hl'

/-! ## REFCLK loss, and silence (R72, R92, R95) -/

/-- The hub once LOCKED is cleared and the loss counted. -/
def refclkLost (s : State) : State := count (setF s Reg.timeStatus 0 0 0) Reg.timeStatus 31 16 1

theorem refclkLost_time (s : State) : (refclkLost s).time = s.time := (count_time _ _ _ _ _).trans (setF_time _ _ _ _ _)

theorem execRefclkLoss_locked {s : State} (hp : powered s = true) (hl : regB s Reg.timeStatus 0 = true) :
    execRefclkLoss s = .next (fire (refclkLost s) 0x31 unitTime 3 0 false none) := by
  simp only [execRefclkLoss, hp, hl, Bool.and_self, if_true]
  rfl

theorem regB_refclkLost (s : State) : regB (refclkLost s) Reg.timeStatus 0 = false := by
  rw [refclkLost, regB_count_outside _ 1 (by decide) (by decide) (.inl (by decide)), regB_setF (le_refl 0) (by decide),
    if_pos ⟨le_refl 0, le_refl 0⟩]
  rfl

theorem setServo_time (s : State) (v : Nat) : (setServo s v).time = s.time := setF_time _ _ _ _ _

theorem total_setServo (s : State) (v off lo : Nat) : total (setServo s v) off lo = total s off lo := total_setF _ _ _ _ _ _ _

theorem servoState_setServo (s : State) {v : Nat} (h : v < 8) : servoState (setServo s v) = v :=
  (regF_setF_same (by decide) (by decide)).trans (Nat.mod_eq_of_lt h)

/-- A detector of the time core leaves the state of the servo. -/
theorem servoState_fire (s : State) {d : Nat} (unit d2 d3 : Nat) (inj : Bool) :
    servoState (fire s d unit d2 d3 inj none) = servoState s := by
  refine regF_of_reg (reg_fire ?_ ?_) 26 24
  · unfold ringReg
    decide
  · unfold Reg.servoStatus Reg.detCount
    omega

theorem execHoldTimeout_tracking {s : State} (ht : ticking s = true) (hs : servoState s = 3)
    (hdue : holdTicks s ≤ s.time.tb - s.time.sampleTb) :
    execHoldTimeout s = .next (fire (setServo s 4) 0x31 unitTime 1 (holdSource s) false none) := by
  simp [execHoldTimeout, ht, hs, sinceTb, hdue]

theorem execPairWindowClose_closed {s : State} {w : Tod} (ht : ticking s = true) (hw : s.time.tod = some w) (hp : w.pair = none)
    (hs : w.arrival.steps = s.time.steps)
    (hdue : w.arrival.stamp + pairWindow s + eiWidth s (regF s Reg.servoStatus 20 16) * 4 * 65536 ≤ now s) :
    execPairWindowClose s = .next (todDrop s) := by
  simp [execPairWindowClose, hw, ht, hp, hs, hdue]

end Sys2Proof.Machine

namespace Sys2Proof.Proofs
open Sys2Proof.Machine

/-- Settles O19: the first lock by what begins each interval, a later one and the other three commands by what each gives. -/
theorem timeEvents : Obligations.TimeEvents := by
  unfold Obligations.TimeEvents
  intro s
  refine ⟨fun hp => ?_, fun hp hl => ?_, fun ht hs hdue => ?_, fun w ht hw hpair hs hdue => ?_⟩
  · cases hl : s.time.locked with
    | true =>
      obtain ⟨p, n, hframe⟩ := pllLocked_frame s
      refine ⟨_, (exec_pllLock s).trans (execPllLock_again hp hl), regB_pllLocked s, sameRegs_pllLocked s, ?_, ?_, ?_, ?_⟩
      · rw [hframe, ← hl]
      · rw [hframe]
        rfl
      · rw [hframe]
        exact fun _ => rfl
      · simp
    | false =>
      obtain ⟨m, p, n, hframe, hfirst⟩ := tbStarted_spec s
      have hregs : (tbStarted s).regs = (pllLocked s).regs := by rw [hframe, pllLocked_regs]
      refine ⟨_, (exec_pllLock s).trans (execPllLock_first hp hl), ?_, ?_, ?_, ?_, ?_, ?_⟩
      · rw [regB_of_reg (reg_of_regs hregs _), regB_pllLocked]
      · exact fun off hoff => (reg_of_regs hregs off).trans (sameRegs_pllLocked s off hoff)
      · rw [hframe]
      · rw [hframe]
        rfl
      · simp
      · intro _ g hg
        rw [hfirst g hg]
        exact ⟨rfl, rfl, rfl, rfl, rfl⟩
  · have hapart : Reg.timeStatus ≠ Reg.detCount 0x31 ∧ ¬ringReg Reg.timeStatus := by
      unfold ringReg
      decide
    have hfired := firedOnce_fire (refclkLost s) 0x31 unitTime 3 0 false
    refine ⟨_, (exec_refclkLoss s).trans (execRefclkLoss_locked hp hl), ?_, ?_, ?_, ?_⟩
    · rw [regB_of_reg (reg_fire hapart.2 hapart.1), regB_refclkLost]
    · have hother : 32 * Reg.timeStatus + 16 ≠ 32 * Reg.detCount 0x31 := by decide
      rw [total_fire_other _ _ _ _ _ _ hother, refclkLost, total_count, total_setF]
    · have hother : 32 * Reg.detCount 0x31 + 0 ≠ 32 * Reg.timeStatus + 16 := by decide
      refine hfired.1.trans ?_
      rw [refclkLost, total_count_other _ _ _ hother, total_setF]
    · rw [fire_time, refclkLost_time]
  · refine ⟨_, (exec_holdTimeout s).trans (execHoldTimeout_tracking ht hs hdue), ?_, ?_, ?_⟩
    · rw [servoState_fire, servoState_setServo s (by decide)]
    · rw [(firedOnce_fire _ _ _ _ _ _).1, total_setServo]
    · rw [fire_time, setServo_time]
  · exact (exec_pairWindowClose s).trans (execPairWindowClose_closed ht hw hpair hs hdue)

end Sys2Proof.Proofs
end

section
/-! # Calibration of the converters (R79 to R84) -/

namespace Sys2Proof.Machine

/-! ## The dispatch -/

theorem exec_calMidpoint (g : Fin 8) (s : State) : exec (.calMidpoint g) s = execCalMidpoint g s := rfl

theorem exec_calIntervalEnd (g : Fin 8) (d : List Nat) (s : State) : exec (.calIntervalEnd g d) s = execCalIntervalEnd g d s := rfl

theorem exec_calHitsReached (g : Fin 8) (d : List Nat) (s : State) : exec (.calHitsReached g d) s = execCalHitsReached g d s := rfl

theorem exec_calTrigger (g : Fin 8) (temp mv : BitVec 16) (s : State) : exec (.calTrigger g temp mv) s = execCalTrigger g temp mv s := rfl

theorem exec_tdcTableSwitch (x : Fin 164) (s : State) : exec (.tdcTableSwitch x) s = execTdcTableSwitch x s := rfl

/-! ## Midpoint and end of an interval (R79, R80) -/

section Interval
variable {s : State} {g : Fin 8} (ht : ticking s = true)
include ht

/-- At the midpoint a slow interval takes dither. -/
theorem execCalMidpoint_slow (hm : (region s g).mode = .collect)
    (hhalf : calInterval (region s g) ≤ 2 * (s.time.tb - (region s g).startTb))
    (hslow : 2 * (region s g).hits < calTarget (region s g)) :
    execCalMidpoint g s = .next (setRegion s g { region s g with mode := .dither }) := by
  simp [execCalMidpoint, ht, hm, sinceTb, hhalf, hslow]

/-- The end of an interval in which no dither hits have to be added: its table is judged, or it goes on with dither. -/
theorem execCalIntervalEnd_due {d : List Nat} (hm : (region s g).mode = .collect ∨ ((region s g).mode = .dither ∧ d = []))
    (hdue : calInterval (region s g) ≤ s.time.tb - (region s g).startTb) :
    execCalIntervalEnd g d s = .next (
      if calTarget (region s g) ≤ (region s g).hits then calJudge s g else setRegion s g { region s g with mode := .dither }) := by
  rcases hm with hm | ⟨hm, rfl⟩
  · simp [execCalIntervalEnd, ht, hm, sinceTb, hdue]
  · simp [execCalIntervalEnd, ht, hm, sinceTb, hdue, addDither]

/-- An interval with dither whose time is over is judged as soon as it holds its hits. -/
theorem execCalHitsReached_due (hm : (region s g).mode = .dither) (hdue : calInterval (region s g) ≤ s.time.tb - (region s g).startTb)
    (hwhole : calTarget (region s g) ≤ (region s g).hits) : execCalHitsReached g [] s = .next (calJudge s g) := by
  simp [execCalHitsReached, ht, hm, sinceTb, hdue, hwhole, addDither]

end Interval

/-! ## A commit (R81) -/

/-- A region that belongs to no CAL_RUN ends none. -/
theorem calRunEnd_none {s : State} {g : Nat} (h : (region s g).run = none) : calRunEnd s g = s := by simp [calRunEnd, h]

/-- A region with a table committed to the buffer that is not in force. -/
def commitRegion (s : State) (t : TdcTable) (r : Region) : Region :=
  let b := if r.newest == 1 then 2 else 1
  let e := if r.epoch == 15 then 1 else r.epoch + 1
  let t := { t with epoch := e }
  let r := { r with newest := b, epoch := e, waiting := none, commitTb := s.time.tb, commit := now s, trigged := false,
                     firstTb := if r.newest == 0 then s.time.tb else r.firstTb }
  if b == 1 then { r with buf0 := some t } else { r with buf1 := some t }

/-- The hub with a table committed, and the commit shown, before its next interval begins. -/
def commitWritten (s : State) (g : Nat) (t : TdcTable) : State :=
  let r := region s g
  let x := setRegion s g (commitRegion s t r)
  let x := setReg (setReg x (Reg.calCommitSec g) (shortSec (now s))) (Reg.calCommitNs g) (shortNs (now s))
  setReg x (Reg.calCond g) (BitVec.ofNat 32 (r.mv.toNat * 65536 + r.temp.toNat))

/-- Core voltage control notes a commit (R24). -/
def commitNoted (s : State) (g : Nat) : State :=
  { s with vid := { s.vid with committed := if s.vid.committed.contains g then s.vid.committed else s.vid.committed ++ [g] } }

theorem region_commitNoted (s : State) (g h : Nat) : region (commitNoted s g) h = region s h := rfl

theorem reg_commitNoted (s : State) (g off : Nat) : reg (commitNoted s g) off = reg s off := rfl

theorem commitTable_eq (s : State) (g : Nat) (t : TdcTable) (keep : Bool) :
    commitTable s g t keep = calRunEnd (commitNoted (newInterval (commitWritten s g t) g keep (freshMode (commitWritten s g t))) g) g := by
  rfl

theorem calCommitNs_ne_calCond (g : Nat) : Reg.calCommitNs g ≠ Reg.calCond g := by
  unfold Reg.calCommitNs Reg.calCond
  omega

@[simp] theorem region_setReg (s : State) (off : Nat) (v : Word) (g : Nat) : region (setReg s off v) g = region s g := rfl

theorem region_commitWritten (s : State) (g h : Nat) (t : TdcTable) :
    region (commitWritten s g t) h = if h = g then commitRegion s t (region s g) else region s h := by
  rw [commitWritten, region_setReg, region_setReg, region_setReg, region_setRegion]

theorem commitWritten_time (s : State) (g : Nat) (t : TdcTable) : (commitWritten s g t).time = s.time := by
  rw [commitWritten, setReg_time, setReg_time, setReg_time, setRegion_time]

theorem reg_commitWritten (s : State) (g : Nat) (t : TdcTable) : reg (commitWritten s g t) (Reg.calCommitNs g) = shortNs (now s) := by
  rw [commitWritten, reg_setReg, if_neg (calCommitNs_ne_calCond g), reg_setReg, if_pos rfl]

/-- A committed table lies in the buffer in force, with the epoch of the region. -/
theorem bufEpoch_commitRegion (s : State) (t : TdcTable) (r : Region) :
    bufEpoch (commitRegion s t r) (commitRegion s t r).newest = (commitRegion s t r).epoch := by
  by_cases h : r.newest = 1 <;> simp [commitRegion, bufEpoch, bufOf, h]

theorem commitRegion_fields (s : State) (t : TdcTable) (r : Region) :
    (commitRegion s t r).epoch = (if r.epoch = 15 then 1 else r.epoch + 1) ∧ (commitRegion s t r).newest = (if r.newest = 1 then 2 else 1)
      ∧ (commitRegion s t r).commit = now s ∧ (commitRegion s t r).run = r.run := by
  by_cases h : r.newest = 1 <;> simp [commitRegion, h]

/-- From s to t a table of region g was committed (R81), and no other region changed. -/
def Committed (s t : State) (g : Nat) : Prop :=
  ((region t g).epoch = (if (region s g).epoch = 15 then 1 else (region s g).epoch + 1)
    ∧ (region t g).newest = (if (region s g).newest = 1 then 2 else 1) ∧ (region t g).hits = 0 ∧ (region t g).startTb = s.time.tb
    ∧ (region t g).commit = now s ∧ bufEpoch (region t g) (region t g).newest = (region t g).epoch ∧ g ∈ t.vid.committed
    ∧ reg t (Reg.calCommitNs g) = BitVec.ofNat 32 (stNs (now s)))
  ∧ ∀ h, h ≠ g → region t h = region s h

/-- The number of free values taken does not show in a commit. -/
theorem Committed.of_freeCount {s t : State} {g n : Nat} (h : Committed { s with freeCount := n } t g) : Committed s t g := h

theorem committed_commitTable {s : State} {g : Nat} (hrun : (region s g).run = none) (t : TdcTable) :
    Committed s (commitTable s g t false) g := by
  obtain ⟨hepoch, hnewest, hcommit, hkept⟩ := commitRegion_fields s t (region s g)
  have hregion : region (newInterval (commitWritten s g t) g false (freshMode (commitWritten s g t))) g
      = freshRegion (commitWritten s g t) (freshMode (commitWritten s g t)) (commitRegion s t (region s g)) := by
    rw [newInterval_fresh, region_setRegion, if_pos rfl, region_commitWritten, if_pos rfl]
  have hend : commitTable s g t false
      = commitNoted (newInterval (commitWritten s g t) g false (freshMode (commitWritten s g t))) g := by
    rw [commitTable_eq]
    refine calRunEnd_none ?_
    rw [region_commitNoted, hregion, freshRegion]
    exact hkept.trans hrun
  rw [hend]
  generalize hx : newInterval (commitWritten s g t) g false (freshMode (commitWritten s g t)) = x at hregion ⊢
  refine ⟨⟨?_, ?_, ?_, ?_, ?_, ?_, ?_, ?_⟩, fun h hne => ?_⟩
  · rw [region_commitNoted, hregion, freshRegion]
    exact hepoch
  · rw [region_commitNoted, hregion, freshRegion]
    exact hnewest
  · rw [region_commitNoted, hregion, freshRegion]
  · rw [region_commitNoted, hregion, freshRegion, commitWritten_time]
  · rw [region_commitNoted, hregion, freshRegion]
    exact hcommit
  · rw [region_commitNoted, hregion, freshRegion]
    exact bufEpoch_commitRegion s t (region s g)
  · by_cases hmem : g ∈ x.vid.committed <;> simp [commitNoted, hmem]
  · rw [reg_commitNoted, ← hx, newInterval_fresh, reg_setRegion, reg_commitWritten]
    rfl
  · rw [region_commitNoted, ← hx, newInterval_fresh, region_setRegion, if_neg hne, region_commitWritten, if_neg hne]

/-! ## A table that is judged (R80, R82) -/

/-- From s to t a table of region g was refused and reported (R82), and no other region changed. -/
def Refused (s t : State) (g : Nat) : Prop :=
  (total t (Reg.calRefused g) 0 = (total s (Reg.calRefused g) 0 + 1) % 2 ^ 32 ∧ FiredOnce s t 0x32 ∧ (region t g).hits = 0
    ∧ (region t g).newest = (region s g).newest)
  ∧ ∀ h, h ≠ g → region t h = region s h

/-- The count of refused tables lies apart from the counts of detectors. -/
theorem calRefused_apart (g : Fin 8) (d : Nat) :
    Reg.detCount d ≠ Reg.calRefused g ∧ 32 * Reg.calRefused g + 0 ≠ 32 * Reg.detCount d
      ∧ 32 * Reg.detCount d + 0 ≠ 32 * Reg.calRefused g + 0 := by
  unfold Reg.detCount Reg.calRefused
  omega

@[simp] theorem region_count (s : State) (o hi lo n g : Nat) : region (count s o hi lo n) g = region s g := rfl

/-- The hub with a refusal counted and reported, before the region's next interval begins. -/
def refuseReported (s : State) (g detail : Nat) : State :=
  fire (count s (Reg.calRefused g) 15 0 1) 0x32 (unitOf 8 g) g detail false none

theorem refuseTable_eq {s : State} {g : Nat} (hrun : (region s g).run = none) (detail : Nat) :
    ∃ m, refuseTable s g detail false =
      setRegion (refuseReported s g detail) g (freshRegion (refuseReported s g detail) m (region s g)) := by
  have hregion : region (refuseReported s g detail) g = region s g := by rw [refuseReported, region_fire, region_count]
  refine ⟨if (region (refuseReported s g detail) g).mode == .fallback then .fallback else freshMode (refuseReported s g detail), ?_⟩
  rw [← hregion, ← newInterval_fresh]
  refine calRunEnd_none ?_
  rw [newInterval_fresh, region_setRegion, if_pos rfl]
  exact (congrArg Region.run hregion).trans hrun

/-- A count of firings starts from any state with the same count and total of that detector. -/
theorem firedOnce_from {s s' t : State} {d : Nat} (htot : total s' (Reg.detCount d) 0 = total s (Reg.detCount d) 0)
    (hreg : reg s' (Reg.detCount d) = reg s (Reg.detCount d)) (h : FiredOnce s' t d) : FiredOnce s t d := by
  rw [FiredOnce, htot, hreg] at h
  exact h

theorem refused_refuseTable {s : State} {g : Fin 8} (hrun : (region s g).run = none) (detail : Nat) :
    Refused s (refuseTable s g detail false) g := by
  obtain ⟨hdet, hown, htotal⟩ := calRefused_apart g 0x32
  have hfired : FiredOnce s (refuseReported s g detail) 0x32 :=
    firedOnce_from (total_count_other s 15 1 htotal) (reg_count_other hdet) (firedOnce_fire _ 0x32 _ _ _ _)
  have hcounted : total (refuseReported s g detail) (Reg.calRefused g) 0 = (total s (Reg.calRefused g) 0 + 1) % 2 ^ 32 := by
    rw [refuseReported, total_fire_other _ _ _ _ _ _ hown, total_count]
  have hregion : ∀ h, region (refuseReported s g detail) h = region s h := fun h => by
    rw [refuseReported, region_fire, region_count]
  obtain ⟨m, hend⟩ := refuseTable_eq hrun detail
  rw [hend]
  refine ⟨⟨hcounted, ⟨hfired.1, ?_⟩, ?_, ?_⟩, fun h hne => ?_⟩
  · rw [reg_setRegion]
    exact hfired.2
  · rw [region_setRegion, if_pos rfl]
    rfl
  · rw [region_setRegion, if_pos rfl]
    rfl
  · rw [region_setRegion, if_neg hne, hregion]

/-- A histogram of which no tap is bad, where the other buffer is free, is committed. -/
theorem calJudge_sound {s : State} {g : Nat} (harms : s.integ.arms = []) (hlast : sget 0 (region s g).hist 255 = 0)
    (hwidth : badWidth (region s g).hist (region s g).hits = none) (hfree : bufHeld s g = false) :
    ∃ n t, calJudge s g = commitTable { s with freeCount := n } g t false := by
  refine ⟨s.freeCount + 256, ⟨0, calPos s.freeCount 0 (region s g).hits (region s g).hist 0 256, (region s g).hist, (region s g).hits,
    (region s g).live⟩, ?_⟩
  have hfree' : bufHeld { s with freeCount := s.freeCount + 256 } g = false := hfree
  simp [calJudge, injected_none harms, hlast, hwidth, hfree']

/-- A histogram that holds a hit of the last tap is refused. -/
theorem calJudge_last {s : State} {g : Nat} (harms : s.integ.arms = []) (hlast : sget 0 (region s g).hist 255 ≠ 0) :
    calJudge s g = refuseTable s g 255 false := by
  simp [calJudge, injected_none harms, hlast]

/-! ## Conditions that move (R83) -/

/-- The die temperature or VCORE has moved by a threshold of the running interval since the last commit. -/
def calFar (s : State) (g : Nat) (temp mv : BitVec 16) : Bool :=
  let r := region s g
  let cond := reg s (Reg.calCond g)
  decide (2 * max 1 (fld r.ctl 23 16) ≤ (temp.toInt - sext 16 (fld cond 15 0)).natAbs)
    || decide (max 5 (fld r.ctl 30 24) ≤ ((mv.toNat : Int) - (fld cond 31 16 : Nat)).natAbs)

/-- A trigger acts on a sample: once until the next commit, and neither on a forced accumulation nor on a fallback. -/
def calActs (s : State) (g : Nat) (temp mv : BitVec 16) : Bool :=
  let r := region s g
  r.epoch != 0 && !r.trigged && calFar s g temp mv && r.mode != .forced && r.mode != .fallback

theorem calFar_iff (s : State) (g : Nat) (temp mv : BitVec 16) :
    calFar s g temp mv = true ↔
      2 * max 1 (fld (region s g).ctl 23 16) ≤ (temp.toInt - sext 16 (fld (reg s (Reg.calCond g)) 15 0)).natAbs
        ∨ max 5 (fld (region s g).ctl 30 24) ≤ ((mv.toNat : Int) - (fld (reg s (Reg.calCond g)) 31 16 : Nat)).natAbs := by
  simp only [calFar, Bool.or_eq_true, decide_eq_true_eq]

theorem calActs_of_near {s : State} {g : Nat} {temp mv : BitVec 16} (h : ¬calFar s g temp mv = true) : calActs s g temp mv = false := by
  simp [calActs, h]

theorem calActs_of_far {s : State} {g : Nat} {temp mv : BitVec 16} (h : calFar s g temp mv = true) (hepoch : (region s g).epoch ≠ 0)
    (htrig : (region s g).trigged = false) (hmode : (region s g).mode = .collect ∨ (region s g).mode = .dither) :
    calActs s g temp mv = true := by
  rcases hmode with hmode | hmode <;> simp [calActs, h, hepoch, htrig, hmode]

/-- The hub with a sample kept and shown. -/
def calKept (s : State) (g : Nat) (temp mv : BitVec 16) : State :=
  setReg (setRegion s g { region s g with temp := temp, mv := mv }) (Reg.monRegion g) (BitVec.ofNat 32 (mv.toNat * 65536 + temp.toNat))

theorem region_calKept (s : State) (g h : Nat) (temp mv : BitVec 16) :
    region (calKept s g temp mv) h = if h = g then { region s g with temp := temp, mv := mv } else region s h := by
  rw [calKept, region_setReg, region_setRegion]

theorem reg_calKept (s : State) (g : Nat) (temp mv : BitVec 16) (off : Nat) :
    reg (calKept s g temp mv) off = if off = Reg.monRegion g then BitVec.ofNat 32 (mv.toNat * 65536 + temp.toNat) else reg s off := by
  rw [calKept, reg_setReg, reg_setRegion]

/-- The hub with a sample kept on which a trigger acts. -/
def calTriggered (s : State) (g : Nat) (temp mv : BitVec 16) : State :=
  setRegion (calKept s g temp mv) g { region s g with temp := temp, mv := mv, trigged := true }

/-- The hits behind a table that waits are dropped. -/
def calDropped (s : State) (g : Nat) : State := setRegion s g { region s g with hist := [], hits := 0, live := 0 }

/-- What a sample does: it is kept, and where a trigger acts the interval restarts, or loses its hits while a table waits. -/
theorem execCalTrigger_eq {s : State} (ht : ticking s = true) (g : Fin 8) (temp mv : BitVec 16) :
    execCalTrigger g temp mv s =
      if calActs s g temp mv then
        if (region s g).mode == .commitWait then .next (calDropped (calTriggered s g temp mv) g)
        else .next (newInterval (calTriggered s g temp mv) g false (freshMode (calTriggered s g temp mv)))
      else .next (calKept s g temp mv) := by
  have hcond : reg (calKept s g temp mv) (Reg.calCond g) = reg s (Reg.calCond g) :=
    (reg_calKept s g temp mv _).trans (if_neg (by unfold Reg.calCond Reg.monRegion; omega))
  have hacts : calActs s g temp mv = ((region s g).epoch != 0 && !(region s g).trigged
      && (decide (2 * max 1 (fld (region s g).ctl 23 16)
          ≤ (temp.toInt - sext 16 (fld (reg (calKept s g temp mv) (Reg.calCond g)) 15 0)).natAbs)
        || decide (max 5 (fld (region s g).ctl 30 24)
          ≤ ((mv.toNat : Int) - (fld (reg (calKept s g temp mv) (Reg.calCond g)) 31 16 : Nat)).natAbs))
      && (region s g).mode != .forced && (region s g).mode != .fallback) := by
    rw [hcond]
    rfl
  rw [hacts]
  unfold execCalTrigger
  simp only [ht, Bool.not_true, Bool.false_eq_true, if_false]
  rfl

/-- From s to t a sample of region g was kept and shown. -/
structure CalSampled (s t : State) (g : Nat) (temp mv : BitVec 16) : Prop where
  keptTemp : (region t g).temp = temp
  keptMv : (region t g).mv = mv
  shown : reg t (Reg.monRegion g) = BitVec.ofNat 32 (mv.toNat * 65536 + temp.toNat)
  same : SameRegs s t [Reg.monRegion g]
  others : ∀ h, h ≠ g → region t h = region s h

theorem calSampled_calKept (s : State) (g : Nat) (temp mv : BitVec 16) : CalSampled s (calKept s g temp mv) g temp mv := by
  refine ⟨?_, ?_, ?_, fun off hoff => ?_, fun h hne => ?_⟩
  · rw [region_calKept, if_pos rfl]
  · rw [region_calKept, if_pos rfl]
  · rw [reg_calKept, if_pos rfl]
  · rw [reg_calKept, if_neg (by simpa using hoff)]
  · rw [region_calKept, if_neg hne]

/-- A region that keeps the sample may change further. -/
theorem CalSampled.setRegion {s t : State} {g : Nat} {temp mv : BitVec 16} (h : CalSampled s t g temp mv) {r : Region}
    (htemp : r.temp = temp) (hmv : r.mv = mv) : CalSampled s (Machine.setRegion t g r) g temp mv := by
  obtain ⟨-, -, hshown, hsame, hothers⟩ := h
  have hregion : region (Machine.setRegion t g r) g = r := (region_setRegion t g g r).trans (if_pos rfl)
  refine ⟨by rw [hregion, htemp], by rw [hregion, hmv], by rw [reg_setRegion, hshown], fun off hoff => ?_, fun k hne => ?_⟩
  · rw [reg_setRegion]
    exact hsame off hoff
  · rw [region_setRegion, if_neg hne]
    exact hothers k hne

theorem calSampled_calTriggered (s : State) (g : Nat) (temp mv : BitVec 16) : CalSampled s (calTriggered s g temp mv) g temp mv :=
  (calSampled_calKept s g temp mv).setRegion rfl rfl

/-- Whatever a sample does, it is kept and shown. -/
theorem calTrigger_sampled {s : State} (ht : ticking s = true) (g : Fin 8) (temp mv : BitVec 16) :
    ∃ t, execCalTrigger g temp mv s = .next t ∧ CalSampled s t g temp mv
      ∧ (calActs s g temp mv = false → t = calKept s g temp mv)
      ∧ (calActs s g temp mv = true → (region s g).mode ≠ .commitWait →
        t = newInterval (calTriggered s g temp mv) g false (freshMode (calTriggered s g temp mv))) := by
  have htriggered := calSampled_calTriggered s g temp mv
  have hdropped : CalSampled s (calDropped (calTriggered s g temp mv) g) g temp mv :=
    htriggered.setRegion htriggered.keptTemp htriggered.keptMv
  rw [execCalTrigger_eq ht]
  cases hacts : calActs s g temp mv with
  | false => exact ⟨_, rfl, calSampled_calKept s g temp mv, fun _ => rfl, fun h => by simp at h⟩
  | true =>
    by_cases hwait : (region s g).mode = .commitWait
    · exact ⟨_, by rw [if_pos rfl, if_pos (by simp [hwait])], hdropped, fun h => by simp at h, fun _ h => absurd hwait h⟩
    · refine ⟨_, by rw [if_pos rfl, if_neg (by simpa using hwait)], ?_, fun h => by simp at h, fun _ _ => rfl⟩
      rw [newInterval_fresh]
      exact htriggered.setRegion htriggered.keptTemp htriggered.keptMv

/-- The region behind a trigger that restarts its interval. -/
theorem region_calRestarted (s : State) (g : Nat) (temp mv : BitVec 16) (m : CalMode) :
    region (newInterval (calTriggered s g temp mv) g false m) g
      = freshRegion (calTriggered s g temp mv) m { region s g with temp := temp, mv := mv, trigged := true } := by
  have hregion : region (calTriggered s g temp mv) g = { region s g with temp := temp, mv := mv, trigged := true } :=
    (region_setRegion _ g g _).trans (if_pos rfl)
  rw [newInterval_fresh, region_setRegion, if_pos rfl, hregion]

theorem calTriggered_time (s : State) (g : Nat) (temp mv : BitVec 16) : (calTriggered s g temp mv).time = s.time := by
  rw [calTriggered, setRegion_time, calKept, setReg_time, setRegion_time]

/-! ## A converter that switches (R82) -/

/-- With no commit that waits, a switch changes the table in use alone. -/
theorem execTdcTableSwitch_idle {s : State} {x : Fin 164} (ht : ticking s = true) (hidle : tdcIdle s x = true)
    (hold : tdcUse s x ≠ (region s (tdcRegion x)).newest) (hw : (region s (tdcRegion x)).waiting = none) :
    execTdcTableSwitch x s = .next { s with tdcUse := sset 0 s.tdcUse x (region s (tdcRegion x)).newest } := by
  have hw' : ∀ m, (region { s with tdcUse := m } (tdcRegion x)).waiting = none := fun _ => hw
  simp [execTdcTableSwitch, ht, hidle, hold, tdcSwitch, hw']

end Sys2Proof.Machine

namespace Sys2Proof.Proofs
open Sys2Proof.Machine

/-- Settles O46: an interval by how its histogram is judged, a sample by whether a trigger acts on it, a switch by what it changes. -/
theorem calibration : Obligations.Calibration := by
  unfold Obligations.Calibration
  intro s g ht
  dsimp only
  have hcommits : (region s g).run = none → s.integ.arms = [] → sget 0 (region s g).hist 255 = 0 →
      badWidth (region s g).hist (region s g).hits = none → bufHeld s g = false → Committed s (calJudge s g) g := by
    intro hrun harms hlast hwidth hfree
    obtain ⟨n, t, htable⟩ := calJudge_sound harms hlast hwidth hfree
    rw [htable]
    exact (committed_commitTable (s := { s with freeCount := n }) hrun t).of_freeCount
  refine ⟨fun hm hhalf hslow => ?mid, fun d hm hdue => ⟨fun hshort => ?short, ?sound, ?last⟩,
    ?dither, fun temp mv => ?trigger, ?switch⟩
  case mid => exact (exec_calMidpoint g s).trans (execCalMidpoint_slow ht hm hhalf hslow)
  case short =>
    rw [exec_calIntervalEnd, execCalIntervalEnd_due ht (.inl hm) hdue, if_neg (by omega)]
  case sound =>
    rintro ⟨hwhole, harms, hrun⟩ ⟨hlast, hwidth, hfree⟩
    refine ⟨_, (exec_calIntervalEnd g d s).trans (execCalIntervalEnd_due ht (.inl hm) hdue), ?_⟩
    rw [if_pos hwhole]
    exact hcommits hrun harms hlast hwidth hfree
  case last =>
    rintro ⟨hwhole, harms, hrun⟩ hlast
    refine ⟨_, (exec_calIntervalEnd g d s).trans (execCalIntervalEnd_due ht (.inl hm) hdue), ?_⟩
    rw [if_pos hwhole, calJudge_last harms hlast]
    exact refused_refuseTable hrun 255
  case dither =>
    rintro hm hdue ⟨hwhole, harms, hrun⟩ ⟨hlast, hwidth, hfree⟩
    have hc := hcommits hrun harms hlast hwidth hfree
    refine ⟨⟨_, (exec_calHitsReached g [] s).trans (execCalHitsReached_due ht hm hdue hwhole), hc⟩,
      ⟨_, (exec_calIntervalEnd g [] s).trans (execCalIntervalEnd_due ht (.inr ⟨hm, rfl⟩) hdue), ?_⟩⟩
    rw [if_pos hwhole]
    exact hc
  case trigger =>
    obtain ⟨t, hexec, hkept, hrests, hacts⟩ := calTrigger_sampled ht g temp mv
    refine ⟨t, (exec_calTrigger g temp mv s).trans hexec, hkept.keptTemp, hkept.keptMv, hkept.shown,
      hkept.same, hkept.others, fun hnear => ?_, fun hfar hepoch htrig hmode => ?_⟩
    · rw [hrests (calActs_of_near fun h => hnear ((calFar_iff s g temp mv).1 h)), region_calKept, if_pos rfl]
      exact ⟨rfl, rfl⟩
    · have hwait : (region s g).mode ≠ .commitWait := by rcases hmode with h | h <;> simp [h]
      rw [hacts (calActs_of_far ((calFar_iff s g temp mv).2 hfar) hepoch htrig hmode) hwait, region_calRestarted, freshRegion,
        calTriggered_time]
      exact ⟨rfl, rfl, rfl⟩
  case switch =>
    intro x hidle hold hw
    refine ⟨_, (exec_tdcTableSwitch x s).trans (execTdcTableSwitch_idle ht hidle hold hw), ?_, fun y hy => ?_, rfl⟩
    · exact (sget_sset 0 s.tdcUse x x _).trans (if_pos rfl)
    · exact (sget_sset 0 s.tdcUse x y _).trans (if_neg hy)

end Sys2Proof.Proofs
end

section
/-! # A step of the clock, and the time commands (R64, R70, R97, R118) -/

namespace Sys2Proof.Machine

/-! ## The dispatch -/

theorem exec_timeStep (k : Fin 256) (s : State) : exec (.timeStep k) s = execTimeStep k s := rfl

theorem exec_timeRole (k : Fin 256) (s : State) : exec (.timeRole k) s = execTimeRole k s := rfl

theorem exec_timeReacquire (k : Fin 256) (s : State) : exec (.timeReacquire k) s = execTimeReacquire k s := rfl

/-! ## What leaves the clock and the servo -/

/-- A bit of a register outside the field that is written. -/
theorem regB_setF_outside {s : State} {o hi lo i : Nat} (v : Nat) (h : lo ≤ hi) (h32 : hi < 32) (hout : i < lo ∨ hi < i) :
    regB (setF s o hi lo v) o i = regB s o i :=
  (regB_setF h h32 i).trans (if_neg (by omega))

/-- From s to t the time core, SERVO_STATUS and JUMP_THR do not change. -/
structure ServoKept (s t : State) : Prop where
  time : t.time = s.time
  status : reg t Reg.servoStatus = reg s Reg.servoStatus
  jumpThr : reg t Reg.jumpThr = reg s Reg.jumpThr

theorem ServoKept.refl (s : State) : ServoKept s s := ⟨rfl, rfl, rfl⟩

theorem ServoKept.trans {s t u : State} (h : ServoKept s t) (k : ServoKept t u) : ServoKept s u :=
  ⟨k.time.trans h.time, k.status.trans h.status, k.jumpThr.trans h.jumpThr⟩

theorem ServoKept.foldl {α : Type} {f : State → α → State} (hf : ∀ s a, ServoKept s (f s a)) (l : List α) (s : State) :
    ServoKept s (l.foldl f s) :=
  List.foldlRecOn l f (.refl s) fun t ht a _ => ht.trans (hf t a)

theorem ServoKept.servoState {s t : State} (h : ServoKept s t) : servoState t = Machine.servoState s := regF_of_reg h.status 26 24

theorem ServoKept.isReference {s t : State} (h : ServoKept s t) : isReference t = Machine.isReference s := regB_of_reg h.status 0

theorem servoState_setTime (s : State) (t : TimeCore) : servoState (setTime s t) = Machine.servoState s :=
  regF_of_reg (reg_of_regs (setTime_regs s t) _) 26 24

/-- A register that lies behind SERVO_STATUS and JUMP_THR. -/
theorem servoKept_setReg (s : State) {off : Nat} (h : Reg.jumpThr < off) (v : Word) : ServoKept s (setReg s off v) := by
  refine ⟨rfl, (reg_setReg s off _ v).trans (if_neg ?_), (reg_setReg s off _ v).trans (if_neg h.ne)⟩
  unfold Reg.jumpThr at h
  unfold Reg.servoStatus
  omega

theorem servoKept_count (s : State) {off : Nat} (h : Reg.jumpThr < off) (hi lo m : Nat) : ServoKept s (count s off hi lo m) := by
  obtain ⟨-, hstatus, hthr⟩ := servoKept_setReg s h (setFld (reg s off) hi lo (satAdd (regF s off hi lo) m (2 ^ (hi + 1 - lo) - 1)))
  exact ⟨rfl, hstatus, hthr⟩

theorem servoKept_finish (s : State) (k st r0 r1 : Nat) : ServoKept s (finish s k st r0 r1) := by
  have hring : ¬ringReg Reg.servoStatus ∧ ¬ringReg Reg.jumpThr := by unfold ringReg; decide
  obtain ⟨r, g, o, fr, hd, h⟩ := finish_frame s k st r0 r1
  exact ⟨by rw [h], reg_finish s k st r0 r1 hring.1, reg_finish s k st r0 r1 hring.2⟩

theorem servoKept_endReacquire (s : State) (status : Nat) : ServoKept s (endReacquire s status) :=
  ServoKept.foldl (f := fun t (c : HostCmd) => finish t c.slot status 0 0) (fun t c => servoKept_finish t c.slot status 0 0)
    (openCmds s 0x32) s

/-! ## A step of the clock (R64, R70, R118) -/

theorem servoKept_setGen (s : State) (m : Nat) (g : Option EoTarget) : ServoKept s (setGen s m g) := by
  have hsec : Reg.jumpThr < Reg.eoNextSec m := by unfold Reg.jumpThr Reg.eoNextSec; omega
  have hns : Reg.jumpThr < Reg.eoNextNs m := by unfold Reg.jumpThr Reg.eoNextNs; omega
  have hfrac : Reg.jumpThr < Reg.eoNextFrac m := by unfold Reg.jumpThr Reg.eoNextFrac; omega
  have hset : ServoKept s (setEvOut s m { evOut s m with gen := g }) := ⟨rfl, rfl, rfl⟩
  cases g with
  | none => exact hset
  | some t =>
    exact ((hset.trans (servoKept_setReg _ hsec _)).trans (servoKept_setReg _ hns _)).trans (servoKept_setReg _ hfrac _)

theorem jumpThr_lt_eoCounts (m : Nat) : Reg.jumpThr < Reg.eoCounts m := by unfold Reg.jumpThr Reg.eoCounts; omega

theorem servoKept_eoSkip (s : State) (m : Nat) (t : EoTarget) : ServoKept s (eoSkip s m t) := by
  unfold eoSkip
  extract_lets d k
  split
  · exact servoKept_setGen s m _
  · split
    · exact (servoKept_setGen s m _).trans (servoKept_count _ (jumpThr_lt_eoCounts m) 31 24 1)
    · exact (servoKept_setGen s m _).trans (servoKept_count _ (jumpThr_lt_eoCounts m) 31 24 k)

theorem servoKept_eoStepped (before s : State) (n : Nat) : ServoKept s (eoStepped before s n) := by
  induction n with
  | zero => exact .refl s
  | succ k ih =>
    unfold eoStepped
    extract_lets x o passed y z
    have hy : ServoKept x y := ⟨rfl, rfl, rfl⟩
    have hz : ServoKept s z := (ih.trans hy).trans (servoKept_count y (jumpThr_lt_eoCounts k) 31 24 passed.length)
    split
    · exact hz
    · split
      · exact hz.trans (servoKept_eoSkip z k _)
      · exact hz

/-- The hub whose clock has moved by a signed amount in units of 2^-16 ns, before the event outputs see it. -/
def clockMoved (s : State) (d : Int) : State :=
  setTime (keepReleased s)
    { s.time with clk := (((s.time.clk : Int) + d * (2 ^ 22 : Nat)) % (clkMod : Int)).toNat, steps := s.time.steps + 1, utcOld := [] }

theorem servoKept_stepClock (s : State) (d : Int) : ServoKept (clockMoved s d) (stepClock s d) := servoKept_eoStepped _ _ 8

/-- What a step of the clock gives: the clock moved, the step counted, the pairing in progress and the servo's state as they were. -/
theorem stepClock_spec (s : State) (d : Int) :
    ((stepClock s d).time.clk : Int) = ((s.time.clk : Int) + d * 2 ^ 22) % (2 ^ 48 * 1000000000 * 2 ^ 38)
      ∧ (stepClock s d).time.steps = s.time.steps + 1 ∧ (stepClock s d).time.tod = s.time.tod
      ∧ servoState (stepClock s d) = servoState s := by
  have hkept := servoKept_stepClock s d
  rw [hkept.servoState, hkept.time]
  refine ⟨?_, rfl, rfl, rfl⟩
  exact Int.toNat_of_nonneg (Int.emod_nonneg _ (by decide))

/-! ## The commands (R97) -/

/-- The servo waits for the next sample, unless it is idle. -/
def servoWaits (s : State) : State :=
  if servoState s == 0 then s else setTime (setServo s 1) { s.time with sampleTb := s.time.tb }

theorem servoWaits_spec (s : State) :
    (servoWaits s).time.clk = s.time.clk ∧ (servoWaits s).time.steps = s.time.steps
      ∧ servoState (servoWaits s) = if servoState s = 0 then 0 else 1 := by
  unfold servoWaits
  by_cases h : servoState s = 0
  · simp [h]
  · rw [if_neg (by simpa using h), if_neg h, setTime_time]
    exact ⟨rfl, rfl, (servoState_setTime _ _).trans (servoState_setServo s (by decide))⟩

theorem execTimeStep_follower {s : State} {k : Fin 256} {c : HostCmd} (hr : cmdReady s k 0x30 = some c) (href : isReference s = false) :
    execTimeStep k s = .next (finish (servoWaits (stepClock s (((cmdW c 1).toInt * 1000000000 + (cmdW c 2).toInt) * 65536
      + (fld (cmdW c 3) 15 0 : Nat)))) k stDone 0 0) := by
  simp only [execTimeStep, hr, href, Bool.false_eq_true, if_false]
  rfl

theorem execTimeStep_reference {s : State} {k : Fin 256} {c : HostCmd} (hr : cmdReady s k 0x30 = some c) (href : isReference s = true) :
    execTimeStep k s = .next (finish s k stWrongState 0 0) := by
  simp [execTimeStep, hr, href]

theorem execTimeReacquire_reference {s : State} {k : Fin 256} {c : HostCmd} (hr : cmdReady s k 0x32 = some c)
    (href : isReference s = true) :
    execTimeReacquire k s = .next (cmdOpen (if servoState s == 2 then s else setServo s 6) k) := by
  simp [execTimeReacquire, hr, href]

theorem execTimeReacquire_follower {s : State} {k : Fin 256} {c : HostCmd} (hr : cmdReady s k 0x32 = some c)
    (href : isReference s = false) : execTimeReacquire k s = .next (finish s k stWrongState 0 0) := by
  simp [execTimeReacquire, hr, href]

theorem cmdAt_setServo (s : State) (v k : Nat) : cmdAt (setServo s v) k = cmdAt s k := by rw [cmdAt, setServo, setF_host, cmdAt]

/-- A command that stays open behind registers. -/
theorem RegsOnly.cmdOpen_eq {s t : State} (h : RegsOnly s t) (k : Nat) :
    cmdOpen t k = { s with regs := (cmdOpen t k).regs, host := (cmdOpen t k).host } := by
  obtain ⟨r, rfl⟩ := h
  rfl

/-- The hub that waits for the next pairing changes SERVO_STATUS and the command alone. -/
theorem reacquire_spec {s : State} {k : Nat} {c : HostCmd} (hat : cmdAt s k = some c) :
    let t := cmdOpen (if servoState s == 2 then s else setServo s 6) k
    servoState t = (if servoState s = 2 then 2 else 6) ∧ t = { s with regs := t.regs, host := t.host }
      ∧ cmdAt t k = some { c with phase := .opened } := by
  intro t
  have hopen : ∀ x : State, servoState (cmdOpen x k) = servoState x
      ∧ cmdAt (cmdOpen x k) k = (cmdAt x k).map fun c => { c with phase := .opened } :=
    fun x => ⟨regF_of_reg (reg_setCmd _ _ _ _) 26 24, cmdAt_setCmd x k fun _ => rfl⟩
  by_cases h : servoState s = 2
  · have ht : t = cmdOpen s k := by simp [t, h]
    rw [ht, (hopen s).1, (hopen s).2, hat, if_pos h, h]
    exact ⟨rfl, (RegsOnly.refl s).cmdOpen_eq k, rfl⟩
  · have ht : t = cmdOpen (setServo s 6) k := by simp [t, h]
    rw [ht, (hopen _).1, (hopen _).2, cmdAt_setServo, hat, if_neg h, servoState_setServo s (by decide)]
    exact ⟨rfl, ((RegsOnly.refl s).setReg _ _).cmdOpen_eq k, rfl⟩

/-- The words of TIME_ROLE name the role and the source that the hub has. -/
def sameRole (s : State) (w1 : Word) : Bool :=
  let src := fld w1 5 4
  let sameInput := regF s Reg.servoStatus 20 16 == fld w1 20 16
  if bit w1 0 then isReference s && sameInput
  else !isReference s && src == servoSource s && (src != 0 || regF s Reg.servoStatus 9 8 == fld w1 9 8) && (src != 1 || sameInput)

/-- A new role in the registers: the input, the PTP port, the role, the source of a follower, and the servo's state. -/
def roleSet (s : State) (w1 : Word) : State :=
  let s := setF (setF (setF s Reg.servoStatus 20 16 (fld w1 20 16)) Reg.servoStatus 9 8 (fld w1 9 8)) Reg.servoStatus 0 0 (b2n (bit w1 0))
  let s := if bit w1 0 then s else setF s Reg.servoStatus 5 4 (fld w1 5 4)
  setServo s (if bit w1 0 then 2 else if fld w1 5 4 == 3 then 0 else 1)

/-- The hub that has taken a new role: the pairing in progress is forgotten. -/
def roleTaken (s : State) (w1 : Word) : State :=
  setTime (roleSet s w1) { (roleSet s w1).time with
    sampleTb := (roleSet s w1).time.tb, tod := none,
    pps := if regF s Reg.servoStatus 20 16 == fld w1 20 16 then (roleSet s w1).time.pps else [] }

/-- JUMP_THR takes the third word of TIME_ROLE. -/
def thrSet (s : State) (w2 : Word) : State := setReg s Reg.jumpThr (w2 &&& 0x3FFFFFFF#32)

theorem timeRole_eq (s : State) (k : Nat) (w1 w2 : Word) :
    timeRole s k w1 w2 =
      if sameRole (thrSet s w2) w1 then finish (thrSet s w2) k stDone 0 0
      else
        finish (if bit w1 0 then roleTaken (thrSet s w2) w1 else endReacquire (roleTaken (thrSet s w2) w1) stWrongState) k stDone 0 0 :=
  rfl

theorem sameRole_eq_false {s : State} {w1 : Word} (h : isReference s ≠ bit w1 0) : sameRole s w1 = false := by
  unfold sameRole
  cases hw : bit w1 0 <;> simp_all

/-- JUMP_THR leaves the role. -/
theorem isReference_thrSet (s : State) (w2 : Word) : isReference (thrSet s w2) = isReference s := by
  have hreg : reg (thrSet s w2) Reg.servoStatus = reg s Reg.servoStatus := (reg_setReg s _ _ _).trans (if_neg (by decide))
  exact regB_of_reg hreg 0

theorem reg_thrSet (s : State) (w2 : Word) : reg (thrSet s w2) Reg.jumpThr = w2 &&& 0x3FFFFFFF#32 :=
  (reg_setReg s _ _ _).trans (if_pos rfl)

theorem thrSet_time (s : State) (w2 : Word) : (thrSet s w2).time = s.time := setReg_time _ _ _

/-- With a new role the completions are all that follows. -/
theorem servoKept_timeRole {s : State} {w1 : Word} (h : isReference s ≠ bit w1 0) (w2 : Word) (k : Nat) :
    ServoKept (roleTaken (thrSet s w2) w1) (timeRole s k w1 w2) ∧ cmdAt (timeRole s k w1 w2) k = none := by
  rw [timeRole_eq, sameRole_eq_false (by rwa [isReference_thrSet]), if_neg Bool.false_ne_true]
  refine ⟨.trans ?_ (servoKept_finish _ k stDone 0 0), cmdAt_finish _ _ _ _ _⟩
  split
  · exact .refl _
  · exact servoKept_endReacquire _ _

theorem roleSet_spec (s : State) (w1 : Word) :
    isReference (roleSet s w1) = bit w1 0 ∧ servoState (roleSet s w1) = (if bit w1 0 then 2 else if fld w1 5 4 = 3 then 0 else 1)
      ∧ reg (roleSet s w1) Reg.jumpThr = reg s Reg.jumpThr ∧ (roleSet s w1).time = s.time := by
  unfold roleSet
  extract_lets y z
  have hother : Reg.jumpThr ≠ Reg.servoStatus := by decide
  have hy : isReference y = bit w1 0 ∧ reg y Reg.jumpThr = reg s Reg.jumpThr ∧ y.time = s.time := by
    refine ⟨?_, ?_, rfl⟩
    · refine (regB_setF (le_refl 0) (by decide) 0).trans ?_
      cases bit w1 0 <;> rfl
    · unfold y
      rw [reg_setF_other hother, reg_setF_other hother, reg_setF_other hother]
  have hz : isReference z = isReference y ∧ reg z Reg.jumpThr = reg y Reg.jumpThr ∧ z.time = y.time := by
    unfold z
    split
    · exact ⟨rfl, rfl, rfl⟩
    · exact ⟨regB_setF_outside _ (by decide) (by decide) (.inl (by decide)), reg_setF_other hother, setF_time _ _ _ _ _⟩
  obtain ⟨hrole, hthr, htime⟩ := hz
  refine ⟨?_, ?_, ?_, ?_⟩
  · exact (regB_setF_outside _ (by decide) (by decide) (.inl (by decide))).trans (hrole.trans hy.1)
  · simp only [beq_iff_eq]
    refine servoState_setServo z ?_
    split
    · decide
    · split <;> decide
  · exact (reg_setF_other hother).trans (hthr.trans hy.2.1)
  · exact (setServo_time _ _).trans (htime.trans hy.2.2)

/-- The hub in its new role (R97). -/
theorem roleTaken_spec (s : State) (w1 : Word) :
    isReference (roleTaken s w1) = bit w1 0
      ∧ servoState (roleTaken s w1) = (if bit w1 0 then 2 else if fld w1 5 4 = 3 then 0 else 1)
      ∧ reg (roleTaken s w1) Reg.jumpThr = reg s Reg.jumpThr ∧ (roleTaken s w1).time.tod = none
      ∧ (roleTaken s w1).time.clk = s.time.clk := by
  obtain ⟨hrole, hservo, hthr, htime⟩ := roleSet_spec s w1
  have hregs : ∀ off, reg (roleTaken s w1) off = reg (roleSet s w1) off := reg_of_regs (setTime_regs _ _)
  refine ⟨(regB_of_reg (hregs _) 0).trans hrole, (regF_of_reg (hregs _) 26 24).trans hservo, (hregs _).trans hthr, ?_, ?_⟩ <;>
    rw [roleTaken, setTime_time]
  rw [htime]

end Sys2Proof.Machine

namespace Sys2Proof.Proofs
open Sys2Proof.Machine

/-- Settles O32: TIME_STEP by what a step of the clock gives, TIME_REACQUIRE by the state in which it waits, and TIME_ROLE by the role
that it takes, which completions leave. -/
theorem timeCommands : Obligations.TimeCommands := by
  unfold Obligations.TimeCommands
  intro s k c d ref src
  refine ⟨fun hr href => ?_, fun hr href => ?_, fun hr href => ?_, fun hr href => ?_, fun hr href => ?_⟩
  · have hkept := servoKept_finish (servoWaits (stepClock s d)) k stDone 0 0
    obtain ⟨hclk, hsteps, hservo⟩ := servoWaits_spec (stepClock s d)
    obtain ⟨hclk', hsteps', -, hservo'⟩ := stepClock_spec s d
    refine ⟨_, (exec_timeStep k s).trans (execTimeStep_follower hr href), ?_, ?_, ?_, cmdAt_finish _ _ _ _ _⟩
    · rw [hkept.time, hclk, hclk']
    · rw [hkept.time, hsteps, hsteps']
    · rw [hkept.servoState, hservo, hservo']
  · exact (exec_timeStep k s).trans (execTimeStep_reference hr href)
  · obtain ⟨hservo, hframe, hat⟩ := reacquire_spec (cmdAt_of_ready hr)
    exact ⟨_, (exec_timeReacquire k s).trans (execTimeReacquire_reference hr href), hservo, hframe, _, hat, rfl⟩
  · exact (exec_timeReacquire k s).trans (execTimeReacquire_follower hr href)
  · obtain ⟨hkept, hat⟩ := servoKept_timeRole href (cmdW c 2) k
    obtain ⟨hrole, hservo, hthr, htod, hclk⟩ := roleTaken_spec (thrSet s (cmdW c 2)) (cmdW c 1)
    refine ⟨timeRole s k (cmdW c 1) (cmdW c 2), ?_, hkept.isReference.trans hrole, hkept.servoState.trans hservo,
      hkept.jumpThr.trans (hthr.trans (reg_thrSet s _)), ?_, ?_, hat⟩
    · rw [exec_timeRole, execTimeRole, hr]
    · rw [hkept.time, htod]
    · rw [hkept.time, hclk, thrSet_time]

end Sys2Proof.Proofs
end

section
/-! # The pairing of time of day (R89, R90, R94, R95) -/

namespace Sys2Proof.Machine

theorem exec_todPairing (s : State) : exec .todPairing s = execTodPairing s := rfl

/-- The hub whose TIMESET in wait has been taken. -/
def todTaken (s : State) : State := setTime s { s.time with tod := none }

theorem reg_todTaken (s : State) (off : Nat) : reg (todTaken s) off = reg s off := reg_of_regs (setTime_regs _ _) off

/-- A TIMESET whose edge is known is paired with it. -/
theorem execTodPairing_paired {s : State} {w : Tod} {p : PpsEdge} (ht : ticking s = true) (hw : s.time.tod = some w)
    (hp : w.pair = some p) : execTodPairing s = .next (pairTod (todTaken s) w p false) := by
  simp only [execTodPairing, todPair, ht, hw, hp, if_true]
  rfl

/-! ## LAST_OFS (R90) -/

/-- LAST_OFS lies behind the servo's registers. -/
theorem servoKept_lastOfs (s : State) (e : Int) (refused : Bool) : ServoKept s (lastOfs s e refused) :=
  (servoKept_setReg s (by decide) _).trans (servoKept_setReg _ (by decide) _)

theorem lastOfs_totals (s : State) (e : Int) (refused : Bool) : (lastOfs s e refused).totals = s.totals := by
  rw [lastOfs, setReg_totals, setReg_totals]

/-! ## A pairing that steps the clock (R95) -/

/-- In the reference role, with no step of the clock since the stamps were taken, a pairing in ACQUIRE and REACQUIRE steps the clock by
−O, unless the servo is suspended; any other is judged as a sample of source 3. -/
theorem pairTod_eq {s : State} {w : Tod} {p : PpsEdge} (ha : w.arrival.steps = s.time.steps) (he : p.edge.steps = s.time.steps)
    (href : isReference s = true) (servo : Bool) :
    pairTod s w p servo =
      if servoState s = 2 ∨ servoState s = 6 then
        if regB (lastOfs s (todOffset w p) false) Reg.timeCtrl 0 then lastOfs s (todOffset w p) false
        else endReacquire (setServo (stepClock (lastOfs s (todOffset w p) false) (-todOffset w p)) 3) stDone
      else judge s 3 (todOffset w p) servo := by
  have hsteps : (w.arrival.steps != s.time.steps || p.edge.steps != s.time.steps) = false := by simp [ha, he]
  unfold pairTod
  rw [hsteps, if_neg Bool.false_ne_true, href, Bool.not_true, if_neg Bool.false_ne_true]
  simp only [Bool.or_eq_true, beq_iff_eq]

/-- What a pairing that steps the clock gives: the clock behind by O, the step counted, and the servo in TRACK. -/
theorem paired_spec (s : State) (o : Int) :
    let t := endReacquire (setServo (stepClock (lastOfs s o false) (-o)) 3) stDone
    (t.time.clk : Int) = ((s.time.clk : Int) - o * 2 ^ 22) % (2 ^ 48 * 1000000000 * 2 ^ 38)
      ∧ t.time.steps = s.time.steps + 1 ∧ t.time.tod = s.time.tod ∧ servoState t = 3 := by
  intro t
  have hend := servoKept_endReacquire (setServo (stepClock (lastOfs s o false) (-o)) 3) stDone
  obtain ⟨hclk, hsteps, htod, -⟩ := stepClock_spec (lastOfs s o false) (-o)
  have hlast := (servoKept_lastOfs s o false).time
  have htime : t.time = (stepClock (lastOfs s o false) (-o)).time := hend.time.trans (setServo_time _ _)
  rw [htime, hclk, hsteps, htod, hlast]
  refine ⟨by rw [neg_mul, ← sub_eq_add_neg], rfl, rfl, hend.servoState.trans (servoState_setServo _ (by decide))⟩

/-! ## A sample that is judged (R89, R90) -/

/-- A sample within JUMP_THR is counted as accepted; the servo enters TRACK. -/
def sampleAccepted (s : State) (e : Int) : State := setServo (lastOfs (count s Reg.timeCounts 15 0 1) e false) 3

/-- A sample beyond JUMP_THR is counted as refused; the servo enters HOLD_REFUSED. -/
def sampleRefused (s : State) (e : Int) : State := setServo (lastOfs (count s Reg.timeCounts 31 16 1) e true) 5

theorem judge_accepts {s : State} {e : Int} (harms : s.integ.arms = []) (href : isReference s = true) (src : Nat)
    (h : e.natAbs ≤ regF s Reg.jumpThr 29 0 * 65536) : judge s src e false = sampleAccepted s e := by
  simp only [judge, injected_none harms, href, Bool.false_eq_true, if_false, if_true, Bool.false_or, decide_eq_true_eq]
  rw [if_neg (by omega)]
  rfl

theorem judge_refuses {s : State} {e : Int} (harms : s.integ.arms = []) (href : isReference s = true) (src : Nat)
    (h : regF s Reg.jumpThr 29 0 * 65536 < e.natAbs) :
    judge s src e false = if servoState s == 5 then sampleRefused s e
      else fire (sampleRefused s e) 0x30 unitTime src ((ofsNs e) % 2 ^ 32).toNat false none := by
  simp only [judge, injected_none harms, href, Bool.false_eq_true, if_false, if_true, Bool.false_or, decide_eq_true_eq,
    Bool.not_false, Bool.and_true]
  rw [if_pos h]
  rfl

theorem sampleAccepted_spec (s : State) (e : Int) :
    (sampleAccepted s e).time = s.time ∧ servoState (sampleAccepted s e) = 3
      ∧ total (sampleAccepted s e) Reg.timeCounts 0 = (total s Reg.timeCounts 0 + 1) % 2 ^ 32 := by
  refine ⟨?_, servoState_setServo _ (by decide), ?_⟩
  · rw [sampleAccepted, setServo_time, (servoKept_lastOfs _ e false).time, count_time]
  · rw [sampleAccepted, total_setServo, total, lastOfs_totals]
    exact total_count s _ 15 0 1

theorem sampleRefused_spec (s : State) (e : Int) :
    (sampleRefused s e).time = s.time ∧ servoState (sampleRefused s e) = 5
      ∧ total (sampleRefused s e) Reg.timeCounts 16 = (total s Reg.timeCounts 16 + 1) % 2 ^ 32 := by
  refine ⟨?_, servoState_setServo _ (by decide), ?_⟩
  · rw [sampleRefused, setServo_time, (servoKept_lastOfs _ e true).time, count_time]
  · rw [sampleRefused, total_setServo, total, lastOfs_totals]
    exact total_count s _ 31 16 1

/-- A refused sample leaves the clock, is counted, and puts the servo into HOLD_REFUSED, whether or not it is reported (R90). -/
theorem judge_refused_spec {s : State} {e : Int} (harms : s.integ.arms = []) (href : isReference s = true) (src : Nat)
    (h : regF s Reg.jumpThr 29 0 * 65536 < e.natAbs) :
    (judge s src e false).time = s.time ∧ servoState (judge s src e false) = 5
      ∧ total (judge s src e false) Reg.timeCounts 16 = (total s Reg.timeCounts 16 + 1) % 2 ^ 32 := by
  obtain ⟨htime, hservo, htotal⟩ := sampleRefused_spec s e
  rw [judge_refuses harms href src h]
  split
  · exact ⟨htime, hservo, htotal⟩
  · rw [fire_time, servoState_fire, total_fire_other _ _ _ _ _ _ (by decide)]
    exact ⟨htime, hservo, htotal⟩

end Sys2Proof.Machine

namespace Sys2Proof.Proofs
open Sys2Proof.Machine

/-- Settles O20: a pairing either steps the clock or is judged, and the judgement accepts or refuses. -/
theorem timeOfDayPairing : Obligations.TimeOfDayPairing := by
  unfold Obligations.TimeOfDayPairing
  intro s w p ht href harms hw hp ha he o
  have href' : isReference (todTaken s) = true := (regB_of_reg (reg_todTaken s _) 0).trans href
  have hservo : servoState (todTaken s) = servoState s := regF_of_reg (reg_todTaken s _) 26 24
  have hthr : regF (todTaken s) Reg.jumpThr 29 0 = regF s Reg.jumpThr 29 0 := regF_of_reg (reg_todTaken s _) 29 0
  have harms' : (todTaken s).integ.arms = [] := harms
  have ha' : w.arrival.steps = (todTaken s).time.steps := ha
  have he' : p.edge.steps = (todTaken s).time.steps := he
  have ho : todOffset w p = o := rfl
  refine ⟨_, (exec_todPairing s).trans (execTodPairing_paired ht hw hp), ?_⟩
  by_cases hst : servoState s = 2 ∨ servoState s = 6
  · obtain ⟨hclk, hsteps, htod, htrack⟩ := paired_spec (todTaken s) o
    have hlast := servoKept_lastOfs (todTaken s) o false
    have hctrl : regB (lastOfs (todTaken s) o false) Reg.timeCtrl 0 = regB s Reg.timeCtrl 0 := by
      refine (regB_of_reg ?_ 0).trans (regB_of_reg (reg_todTaken s _) 0)
      rw [lastOfs, reg_setReg, if_neg (by decide), reg_setReg, if_neg (by decide)]
    rw [pairTod_eq ha' he' href', ho, hservo, if_pos hst, hctrl]
    refine ⟨?_, fun _ hrun => ?_, fun h => by omega, fun h => by omega⟩
    · split
      · rw [hlast.time]
        rfl
      · exact htod
    · rw [if_neg (by simp [hrun])]
      exact ⟨hclk, hsteps, htrack⟩
  · rw [pairTod_eq ha' he' href', ho, hservo, if_neg hst]
    by_cases hin : o.natAbs ≤ regF s Reg.jumpThr 29 0 * 65536
    · obtain ⟨htime, htrack, htotal⟩ := sampleAccepted_spec (todTaken s) o
      rw [judge_accepts harms' href' 3 (by rwa [hthr]), htime]
      exact ⟨rfl, fun h => absurd h hst, fun _ _ => ⟨rfl, htrack, htotal⟩, fun _ h => absurd h (by omega)⟩
    · obtain ⟨htime, hrefused, htotal⟩ := judge_refused_spec (e := o) harms' href' 3 (by rw [hthr]; omega)
      rw [htime]
      exact ⟨rfl, fun h => absurd h hst, fun _ h => absurd h hin, fun _ _ => ⟨rfl, hrefused, htotal⟩⟩

end Sys2Proof.Proofs
end

section
/-! # A message between TRANSPARENT ports (R101, R105)

A TRANSPARENT port forwards what it receives out of the other TRANSPARENT ports, so that the reception of a frame changes more ports than
the one it came in at. -/

namespace Sys2Proof.Machine

/-- A Sync over Ethernet, of the least size: the multicast address of R99, the EtherType of PTP, and a message of zeros. -/
def zeroSync : List Byte := natBe 6 0x011B19000000 ++ natBe 6 0 ++ natBe 2 0x88F7 ++ List.replicate 46 0

/-- A hub that runs, with Ethernet ports 0 and 1 enabled, their links up, and their PTP engines enabled in TRANSPARENT state. -/
def transparentPair : State :=
  let running : State := { State.reset with
    power := { State.reset.power with phase := .run }, time := { State.reset.time with locked := true } }
  [0, 1].foldl (fun s n =>
    setReg (setReg (setEth s n { eth s n with link := true }) (Reg.ethCtrl n) 0x80000000#32) (Reg.ptpCtrl n) 0xC0000000#32) running

/-- The number of PTP frames that wait at a port once a command has been executed. -/
def waitingAfter (c : Instr) (s : State) (m : Nat) : Nat :=
  match exec c s with
  | .next t => (eth t m).ptp.queue.length
  | .fault _ => 0
  | .refused _ => 0

theorem waitingAfter_next {c : Instr} {s t : State} (h : exec c s = .next t) (m : Nat) :
    waitingAfter c s m = (eth t m).ptp.queue.length := by rw [waitingAfter, h]

/-- Port 0 receives: it is enabled, its link is up, its clock runs, and nothing is injected. -/
theorem transparentPair_receives :
    ethOn transparentPair 0 = true ∧ (eth transparentPair 0).link = true ∧ transparentPair.integ.lost = []
      ∧ transparentPair.integ.arms = [] := ⟨by decide +kernel, rfl, rfl, rfl⟩

theorem transparentPair_idle : (eth transparentPair 1).ptp.queue.length = 0 := rfl

/-- A Sync that port 0 receives waits at port 1 for its departure (R105). -/
theorem zeroSync_forwarded : waitingAfter (.ethFrameReceived 0 zeroSync (crc32 zeroSync) 0) transparentPair 1 = 1 := by decide +kernel

end Sys2Proof.Machine

namespace Sys2Proof.Proofs
open Sys2Proof.Machine

/-- Refutes O50: it says of every frame that a port receives that the other ports do not change, and a PTP message between TRANSPARENT
ports does change them. A Sync that port 0 receives is put into the queue of port 1, as R105 has it. -/
theorem not_ethernetPorts : ¬Obligations.EthernetPorts := by
  unfold Obligations.EthernetPorts
  rintro ⟨hports, -⟩
  obtain ⟨-, -, -, -, hreceived, -⟩ := hports transparentPair 0
  obtain ⟨hon, hlink, hlost, harms⟩ := transparentPair_receives
  obtain ⟨t, hexec, hothers, -⟩ := hreceived zeroSync (crc32 zeroSync) 0 hon hlink (by simp [hlost]) harms
  have hsame : eth t 1 = eth transparentPair 1 := hothers 1 (by decide)
  have hwaits : (eth t 1).ptp.queue.length = 1 := (waitingAfter_next hexec 1).symm.trans zeroSync_forwarded
  rw [hsame, transparentPair_idle] at hwaits
  exact absurd hwaits (by decide)

end Sys2Proof.Proofs
end

section
/-! # What changes no event input (R160, R163 to R165, R337)

A record of an event input is admitted like any other: the talker table, the Kennel, the detectors and the Leash change, and no event
input does. -/

namespace Sys2Proof.Machine

/-! ## Counters, detectors and the checked memories -/

@[simp] theorem count_evIn (s : State) (off hi lo n : Nat) : (count s off hi lo n).evIn = s.evIn := by
  rw [count_frame]

@[simp] theorem fire_evIn (s : State) (d unit d2 d3 : Nat) (inj : Bool) (l : Option Nat) : (fire s d unit d2 d3 inj l).evIn = s.evIn := by
  obtain ⟨r, rg, o, q, f, m, n, h⟩ := fireAt_frame s d unit d2 d3 inj l (now s)
  rw [fire, h]

@[simp] theorem injected_evIn (s : State) (det : Nat) (units : List Nat) : (injected s det units).1.evIn = s.evIn := by
  unfold injected
  split
  · rfl
  · split
    · split
      · exact setArm_evIn s _ _
      · dsimp only
        split
        · rw [setArm_evIn, count_evIn]
        · split
          · rw [setArm_evIn, count_evIn]
          · exact count_evIn s _ _ _ _
    · rfl

@[simp] theorem memPut_evIn (s : State) (m : Mem) (a : Nat) (w : Word) : (memPut s m a w).evIn = s.evIn := setMem_evIn s m _

@[simp] theorem memPuts_evIn (s : State) (m : Mem) (a : Nat) (ws : List Word) : (memPuts s m a ws).evIn = s.evIn := by
  induction ws generalizing s a with
  | nil => rfl
  | cons w ws ih => rw [memPuts, ih, memPut_evIn]

@[simp] theorem memRead_evIn (s : State) (m : Mem) (a : Nat) (readers : List Nat) : (memRead s m a readers).s.evIn = s.evIn := by
  rw [memRead_frame, injected_evIn]

@[simp] theorem memReport_evIn (s : State) (m : Mem) (a outcome reader index : Nat) (inj : Bool) :
    (memReport s m a outcome reader index inj).evIn = s.evIn := fire_evIn _ _ _ _ _ _ _

/-! ## The talker table -/

@[simp] theorem setTalkW_evIn (s : State) (i w : Nat) (v : Word) : (setTalkW s i w v).evIn = s.evIn := memPut_evIn s _ _ v

@[simp] theorem hear_evIn (s : State) (i : Nat) : (hear s i).evIn = s.evIn := by
  simp only [hear, setTalkW_evIn]

@[simp] theorem talkerRepair_evIn (s : State) (i w reader : Nat) (inj : Bool) : (talkerRepair s i w reader inj).evIn = s.evIn := by
  unfold talkerRepair
  split
  · simp
  · split
    · simp
    · split <;> simp

@[simp] theorem talkerRead_evIn (s : State) (i reader : Nat) (readers ws : List Nat) :
    (talkerRead s i reader readers ws).1.evIn = s.evIn := by
  induction ws generalizing s with
  | nil => rfl
  | cons w ws ih =>
    simp only [talkerRead, ih]
    split <;> simp

@[simp] theorem talkersRead_evIn (s : State) (ws : List Nat) (reader : Nat) (is : List Nat) :
    (talkersRead s ws reader is).1.evIn = s.evIn := by
  induction is generalizing s with
  | nil => rfl
  | cons i is ih => simp only [talkersRead, ih, talkerRead_evIn]

theorem fillBuckets_evIn (s : State) (i : Nat) : (fillBuckets s i).evIn = s.evIn := by
  rw [fillBuckets, setTalkW_evIn, setTalkW_evIn]

@[simp] theorem learnInto_evIn (s : State) (i key : Nat) : (learnInto s i key).evIn = s.evIn := by
  unfold learnInto
  extract_lets c x y z w
  have hx : x.evIn = s.evIn := by simp only [x, setTalkW_evIn]
  have hy : y.evIn = x.evIn := setTalkW_evIn x i 3 _
  have hz : z.evIn = y.evIn := by simp only [z, setTalkW_evIn]
  have hw : w.evIn = z.evIn := by simp only [w, setTalkW_evIn]
  rw [hear_evIn, setTalkW_evIn, setTalkW_evIn, fillBuckets_evIn, hw, hz, hy, hx]

@[simp] theorem learnTalker_evIn (s : State) (key : Nat) : (learnTalker s key).1.evIn = s.evIn := by
  unfold learnTalker
  split
  · rfl
  · split
    · simp
    · dsimp only
      split
      · simp
      · split <;> simp

@[simp] theorem findTalker_evIn (s : State) (key : Nat) : (findTalker s key).1.evIn = s.evIn := by
  unfold findTalker
  dsimp only
  split
  · simp
  · split <;> simp

/-! ## The Leash and the admission -/

theorem tickServed_leashUpdate (s : State) (p : Nat) : TickServed s (leashUpdate s p) := by
  have hsend : ∀ xoff, TickServed s (leashSend s p xoff) := fun xoff => (tickServed_setSerial s p _).trans (tickServed_leashRun _ p _)
  unfold leashUpdate
  split
  · exact .refl s
  · extract_lets sent hi lo
    split
    · exact hsend true
    · split
      · exact hsend false
      · exact .refl s

theorem leashUpdate_evIn (s : State) (p : Nat) : (leashUpdate s p).evIn = s.evIn := by
  obtain ⟨r, e, x, os, h⟩ := (tickServed_leashUpdate s p).frame
  rw [h]

@[simp] theorem leashTalker_evIn (s : State) (i : Nat) : (leashTalker s i).evIn = s.evIn := by
  unfold leashTalker
  split
  · exact leashUpdate_evIn s _
  · rfl

@[simp] theorem countRefusal_evIn (s : State) (reason : Nat) : (countRefusal s reason).evIn = s.evIn := by
  simp only [countRefusal, apply_ite State.evIn, count_evIn, ite_self]

@[simp] theorem refuse_evIn (s : State) (src reason : Nat) (idx : Option Nat) (inj : Bool) : (refuse s src reason idx inj).evIn = s.evIn := by
  cases idx <;> simp [refuse]

@[simp] theorem stageRecord_evIn (s : State) (a : Arrived) : (stageRecord s a).evIn = s.evIn := by
  unfold stageRecord
  split
  · rfl
  · exact memPuts_evIn _ _ _ _

@[simp] theorem stageRead_evIn (s : State) (src a n : Nat) : (stageRead s src a n).1.evIn = s.evIn := by
  induction n generalizing s a with
  | zero => rfl
  | succ n ih =>
    have hrest := ih (memRead s .kennel a [src]).s (a + 1)
    unfold stageRead
    extract_lets r
    split
    · simp [r]
    · split
      · rename_i h
        rw [h] at hrest
        simpa using hrest
      · rename_i h
        rw [h] at hrest
        simpa using hrest

@[simp] theorem stageWords_evIn (s : State) (a : Arrived) : (stageWords s a).1.evIn = s.evIn := by
  unfold stageWords
  split
  · rfl
  · exact stageRead_evIn _ _ _ _

@[simp] theorem commitRec_evIn (s : State) (a : Arrived) (i g : Nat) (inj : Bool) (ws : List Word) :
    (commitRec s a i g inj ws).evIn = s.evIn := by
  simp only [commitRec, leashTalker_evIn, lowPeak, holdRun, setTalkW_evIn, apply_ite State.evIn, memPuts_evIn, ite_self]

/-- The admission of a record, or its refusal, changes no event input. -/
@[simp] theorem admitRecord_evIn (s : State) (a : Arrived) : (admitRecord s a).evIn = s.evIn := by
  have hfound : (findTalker (injected (stageRecord s a) 0x41 [a.src]).1 a.key).1.evIn = s.evIn := by simp
  unfold admitRecord
  dsimp only
  generalize findTalker (injected (stageRecord s a) 0x41 [a.src]).1 a.key = found at hfound ⊢
  split
  · rw [refuse_evIn, hfound]
  · split
    · rw [refuse_evIn, hfound]
    · split
      · rw [refuse_evIn, hfound]
      · have hwords := stageWords_evIn found.1 a
        split
        · rename_i h
          rw [h] at hwords
          exact hwords.trans hfound
        · rename_i h
          rw [h] at hwords
          rw [commitRec_evIn]
          exact hwords.trans hfound

end Sys2Proof.Machine
end

section
/-! # Event inputs (R106 to R114) -/

namespace Sys2Proof.Machine

/-! ## The dispatch -/

theorem exec_eiEdge (i : Fin 32) (level : Bool) (taps : Fin 256) (s : State) :
    exec (.eiEdge i level taps) s = execEiEdge i level taps s := rfl

theorem exec_eiLevelAccepted (i : Fin 32) (s : State) : exec (.eiLevelAccepted i) s = execEiLevelAccepted i s := rfl

theorem exec_burstClose (i : Fin 32) (s : State) : exec (.burstClose i) s = execBurstClose i s := rfl

theorem exec_eiHeld (i : Fin 32) (s : State) : exec (.eiHeld i) s = execEiHeld i s := rfl

theorem exec_eiFifoDrain (i : Fin 32) (s : State) : exec (.eiFifoDrain i) s = execEiFifoDrain i s := rfl

/-! ## One event input changes -/

/-- An event input after an event input is written. -/
@[simp] theorem evIn_setEvIn (s : State) (i j : Nat) (v : EvIn) : evIn (setEvIn s i v) j = if j = i then v else evIn s j :=
  sget_sset _ _ _ _ _

theorem evIn_setEvIn_same (s : State) (i : Nat) (v : EvIn) : evIn (setEvIn s i v) i = v := by simp

@[simp] theorem setEvIn_setEvIn (s : State) (i : Nat) (v w : EvIn) : setEvIn (setEvIn s i v) i w = setEvIn s i w := by
  simp [setEvIn]

theorem evIn_of_evIn {s t : State} (h : t.evIn = s.evIn) (j : Nat) : evIn t j = evIn s j := congrArg (sget EvIn.init · j) h

@[simp] theorem reg_setEvIn (s : State) (i : Nat) (v : EvIn) (off : Nat) : reg (setEvIn s i v) off = reg s off :=
  reg_of_regs (setEvIn_regs s i v) off

/-- From s to t no event input but i changes. -/
def OtherInputs (i : Nat) (s t : State) : Prop := ∀ j, j ≠ i → evIn t j = evIn s j

theorem OtherInputs.of_evIn {i : Nat} {s t : State} (h : t.evIn = s.evIn) : OtherInputs i s t := fun j _ => evIn_of_evIn h j

theorem OtherInputs.trans {i : Nat} {s t u : State} (h : OtherInputs i s t) (k : OtherInputs i t u) : OtherInputs i s u :=
  fun j hj => (k j hj).trans (h j hj)

theorem otherInputs_setEvIn (s : State) (i : Nat) (v : EvIn) : OtherInputs i s (setEvIn s i v) := fun j hj => by
  rw [evIn_setEvIn, if_neg hj]

/-- ROUTE comes from EI_CTRL. -/
theorem eiRoute_of_reg {s t : State} {i : Nat} (h : reg t (Reg.eiCtrl i) = reg s (Reg.eiCtrl i)) : eiRoute t i = eiRoute s i :=
  regF_of_reg h 27 26

/-- The PPS input comes from SERVO_STATUS. -/
theorem ppsInput_of_reg {s t : State} (h : reg t Reg.servoStatus = reg s Reg.servoStatus) : ppsInput t = ppsInput s := by
  rw [ppsInput, ppsInput, regB_of_reg h, regF_of_reg h, regF_of_reg h]

/-! ## Records (R109) -/

/-- The first word of a record, as a number: kind, epoch, the lack of a stamp, the level at the ball, and the input. -/
def eiHead (s : State) (i kind : Nat) (first : Edge) (nostamp : Bool) : Nat :=
  kind * 2 ^ 28 + first.epoch % 16 * 2 ^ 24 + b2n nostamp * 2 ^ 23 + b2n (eiActive s i (evIn s i).ball) * 2 ^ 22 + i

theorem eiHead_fields (s : State) (i : Fin 32) {kind : Nat} (hkind : kind < 16) (first : Edge) (nostamp : Bool) :
    let n := eiHead s i kind first nostamp
    n < 2 ^ 32 ∧ n / 2 ^ 28 = kind ∧ n % 2 ^ 16 = i.val := by
  have hbit : ∀ b : Bool, b2n b ≤ 1 := by decide
  have hstamp := hbit nostamp
  have hlevel := hbit (eiActive s i (evIn s i).ball)
  unfold eiHead
  omega

/-- The record that an event input writes. -/
def eiRecOf (s : State) (i kind : Nat) (first last : Edge) (nostamp : Bool) (lost : Nat) (inj : Bool) : EvRec :=
  { words := [BitVec.ofNat 32 (eiHead s i kind first nostamp)] ++ stampWords first.stamp ++ stampWords last.stamp
      ++ [BitVec.ofNat 32 (min lost 0xFFFFFFFF)]
    edge := first, last := last, toKennel := eiRoute s i % 2 == 1, toRing := decide (2 ≤ eiRoute s i), taken := none, inj := inj }

/-- A record is written behind the others; with ROUTE 0 it is discarded. -/
theorem eiPush_eq (s : State) (i kind : Nat) (first last : Edge) (nostamp : Bool) (lost : Nat) (inj : Bool) :
    eiPush s i kind first last nostamp lost inj =
      if eiRoute s i = 0 then s
      else setEvIn s i { evIn s i with fifo := (evIn s i).fifo ++ [eiRecOf s i kind first last nostamp lost inj] } := by
  unfold eiPush
  extract_lets route v w0 words r
  simp only [beq_iff_eq]
  rfl

/-- The fields of a record of input i: its kind, the input, the stamp of its first edge, and how many edges were lost (R109). -/
theorem eiRecOf_fields (s : State) (i : Fin 32) {kind : Nat} (hkind : kind < 16) (first last : Edge) (nostamp : Bool) (lost : Nat)
    (inj : Bool) :
    let r := eiRecOf s i kind first last nostamp lost inj
    r.edge = first ∧ (r.words.getD 0 0).toNat / 2 ^ 28 = kind ∧ (r.words.getD 0 0).toNat % 2 ^ 16 = i.val
      ∧ (r.words.drop 1).take 3 = stampWords first.stamp ∧ r.words.getD 7 0 = BitVec.ofNat 32 (min lost 0xFFFFFFFF) := by
  obtain ⟨hlt, hk, hi⟩ := eiHead_fields s i hkind first nostamp
  intro r
  have hword : (r.words.getD 0 0).toNat = eiHead s i kind first nostamp := (BitVec.toNat_ofNat _ _).trans (Nat.mod_eq_of_lt hlt)
  rw [hword]
  exact ⟨rfl, hk, hi, rfl, rfl⟩

/-- From s to t the FIFO of input i has taken a record of a kind behind the others, with its first edge and its number of lost edges,
unless ROUTE is 0. -/
def Recorded (s t : State) (i : Fin 32) (first : Edge) (kind lost : Nat) : Prop :=
  eiRoute s i ≠ 0 → ∃ r, (evIn t i).fifo = (evIn s i).fifo ++ [r] ∧ r.edge = first ∧ (r.words.getD 0 0).toNat / 2 ^ 28 = kind
    ∧ (r.words.getD 0 0).toNat % 2 ^ 16 = i.val ∧ (r.words.drop 1).take 3 = stampWords first.stamp
    ∧ r.words.getD 7 0 = BitVec.ofNat 32 lost

/-- A record written at a state whose ROUTE and FIFO of the input are those of s. -/
theorem recorded_eiPush {s x : State} {i : Fin 32} (hroute : eiRoute x i = eiRoute s i) (hfifo : (evIn x i).fifo = (evIn s i).fifo)
    {kind : Nat} (hkind : kind < 16) (first last : Edge) (nostamp : Bool) (lost : Nat) (inj : Bool) :
    Recorded s (eiPush x i kind first last nostamp lost inj) i first kind (min lost 0xFFFFFFFF) := by
  intro h
  refine ⟨eiRecOf x i kind first last nostamp lost inj, ?_, eiRecOf_fields x i hkind first last nostamp lost inj⟩
  rw [eiPush_eq, if_neg (hroute ▸ h), evIn_setEvIn_same, hfifo]

/-- A record changes the FIFO of its input alone. -/
theorem eiPush_frame (s : State) (i kind : Nat) (first last : Edge) (nostamp : Bool) (lost : Nat) (inj : Bool) :
    ∃ e, eiPush s i kind first last nostamp lost inj = { s with evIn := e } := by
  rw [eiPush_eq]
  split
  · exact ⟨s.evIn, rfl⟩
  · exact ⟨_, rfl⟩

theorem evIn_eiPush (s : State) (i kind : Nat) (first last : Edge) (nostamp : Bool) (lost : Nat) (inj : Bool) :
    ∃ q, evIn (eiPush s i kind first last nostamp lost inj) i = { evIn s i with fifo := q } := by
  rw [eiPush_eq]
  split
  · exact ⟨_, rfl⟩
  · exact ⟨_, evIn_setEvIn_same s i _⟩

theorem otherInputs_eiPush (s : State) (i kind : Nat) (first last : Edge) (nostamp : Bool) (lost : Nat) (inj : Bool) :
    OtherInputs i s (eiPush s i kind first last nostamp lost inj) := by
  rw [eiPush_eq]
  split
  · exact .of_evIn rfl
  · exact otherInputs_setEvIn s i _

theorem reg_eiPush (s : State) (i kind : Nat) (first last : Edge) (nostamp : Bool) (lost : Nat) (inj : Bool) (off : Nat) :
    reg (eiPush s i kind first last nostamp lost inj) off = reg s off := by
  obtain ⟨e, h⟩ := eiPush_frame s i kind first last nostamp lost inj
  rw [h]
  rfl

/-- Whether a detector has fired does not hang on the event inputs. -/
theorem firedOnce_eiPush {s x : State} {d : Nat} (h : FiredOnce s x d) (i kind : Nat) (first last : Edge) (nostamp : Bool) (lost : Nat)
    (inj : Bool) : FiredOnce s (eiPush x i kind first last nostamp lost inj) d := by
  obtain ⟨e, hpush⟩ := eiPush_frame x i kind first last nostamp lost inj
  rw [hpush]
  exact h

theorem total_eiPush (s : State) (i kind : Nat) (first last : Edge) (nostamp : Bool) (lost : Nat) (inj : Bool) (off lo : Nat) :
    total (eiPush s i kind first last nostamp lost inj) off lo = total s off lo := by
  obtain ⟨e, hpush⟩ := eiPush_frame s i kind first last nostamp lost inj
  rw [hpush]
  rfl

/-! ## A detector with a limit period (R330) -/

/-- A firing leaves the totals and the registers outside the rings as the count leaves them, whether or not its event is written. -/
theorem fire_totals_regs (s : State) (d unit d2 d3 : Nat) (inj : Bool) (l : Option Nat) :
    (fire s d unit d2 d3 inj l).totals = (detCounted s d).totals
      ∧ ∀ off, ¬ringReg off → reg (fire s d unit d2 d3 inj l) off = reg (detCounted s d) off := by
  have hevent : ∀ t, t = event (detCounted s d) 0 d unit d2 d3 inj (now s) →
      t.totals = (detCounted s d).totals ∧ ∀ off, ¬ringReg off → reg t off = reg (detCounted s d) off := fun t ht => by
    refine ⟨?_, fun off h => ht ▸ reg_event _ _ _ _ _ _ _ _ h⟩
    obtain ⟨r, g, o, q, f, h⟩ := event_frame (detCounted s d) 0 d unit d2 d3 inj (now s)
    rw [ht, h]
  unfold fire fireAt
  extract_lets x y t
  have hy : y.totals = (detCounted s d).totals ∧ ∀ off, ¬ringReg off → reg y off = reg (detCounted s d) off := ⟨rfl, fun _ _ => rfl⟩
  have ht := hevent t rfl
  split
  · exact hy
  · split
    · exact ht
    · split
      · exact ht
      · split
        · exact hy
        · split
          · exact ht
          · exact ht

/-- A detector that fires has fired once, within a limit period or not. -/
theorem firedOnce_fire_limited (s : State) (d unit d2 d3 : Nat) (inj : Bool) (l : Option Nat) :
    FiredOnce s (fire s d unit d2 d3 inj l) d := by
  obtain ⟨htot, hreg⟩ := fire_totals_regs s d unit d2 d3 inj l
  obtain ⟨htot', hreg'⟩ := fire_unlimited_frame s d unit d2 d3 inj
  have hfired := firedOnce_fire s d unit d2 d3 inj
  have hd := not_ringReg_detCount d
  simpa only [FiredOnce, total, htot, htot', hreg _ hd, hreg' _ hd] using hfired

/-! ## A conversion (R106, R108) -/

/-- A fallback takes the region's TDCs to the production table, begins an interval, and is reported. -/
theorem calFallback_eq (s : State) (g : Nat) :
    ∃ u m, calFallback s g = fire { s with tdcUse := u, regions := m } 0x32 (unitOf 8 g) g 0x100 false none := by
  have hfold : ∀ ts : List Nat, ∃ u, ts.foldl (fun s t => { s with tdcUse := sset 0 s.tdcUse t 0 }) s = { s with tdcUse := u } :=
    fun ts => List.foldlRecOn ts _ (motive := fun t : State => ∃ u, t = { s with tdcUse := u }) ⟨s.tdcUse, rfl⟩
      fun t ⟨_, h⟩ _ _ => h ▸ ⟨_, rfl⟩
  obtain ⟨u, hu⟩ := hfold (regionTdcs g)
  unfold calFallback
  rw [hu]
  exact ⟨u, _, rfl⟩

/-- From s to t neither an event input, nor the clock, nor a setting of a TDC changes. -/
structure TdcKept (s t : State) : Prop where
  evIn : t.evIn = s.evIn
  time : t.time = s.time
  reg : ∀ off, ¬ringReg off → off ≠ Reg.detCount 0x32 → reg t off = reg s off

theorem tdcKept_calFallback (s : State) (g : Nat) : TdcKept s (calFallback s g) := by
  obtain ⟨u, m, h⟩ := calFallback_eq s g
  rw [h]
  exact ⟨fire_evIn _ _ _ _ _ _ _, fire_time _ _ _ _ _ _ _, fun off hring hoff => reg_fire hring hoff⟩

/-- The position of an edge is read from the table in use; a failed word of it ends in a fallback of the region. -/
theorem tdcKept_tdcPos (s : State) (t k : Nat) : TdcKept s (tdcPos s t k).1 := by
  have hself : TdcKept s s := ⟨rfl, rfl, fun _ _ _ => rfl⟩
  unfold tdcPos
  extract_lets g
  split
  · exact hself
  · extract_lets w
    split
    · exact hself
    · exact tdcKept_calFallback s g

/-- The settings of a TDC lie apart from the rings and from the detector of calibration. -/
theorem tdcSettings_apart {t : Nat} (h : t < 256) :
    (¬ringReg (Reg.tdcAdj t) ∧ Reg.tdcAdj t ≠ Reg.detCount 0x32) ∧ ¬ringReg (Reg.tdcSkew t) ∧ Reg.tdcSkew t ≠ Reg.detCount 0x32 := by
  unfold ringReg Reg.tdcAdj Reg.tdcSkew Reg.detCount
  omega

/-- A conversion changes no event input, and stamps the edge with the clock, moved by ADJ, the skew and the position (R106). -/
theorem convert_spec {s : State} {t : Nat} (ht : t < 256) (hover : tdcOverdue s t = false) (k : Nat) :
    (convert s t k).1.evIn = s.evIn
      ∧ (convert s t k).2.stamp = stMove (now s) (sext 24 (regF s (Reg.tdcAdj t) 23 0) - sext 20 (regF s (Reg.tdcSkew t) 19 0)
          - ((tdcPos s t k).2.1 : Int)) := by
  have hkept := tdcKept_tdcPos s t k
  obtain ⟨⟨hadj, hadj'⟩, hskew, hskew'⟩ := tdcSettings_apart ht
  have hnow : now (tdcPos s t k).1 = now s := by rw [now, now, hkept.time]
  unfold convert
  rw [hover, if_neg Bool.false_ne_true]
  dsimp only
  rw [hnow, regF_of_reg (hkept.reg _ hadj hadj'), regF_of_reg (hkept.reg _ hskew hskew')]
  refine ⟨?_, rfl⟩
  split
  · rw [setRegion_evIn, hkept.evIn]
  · rw [hitRegion, setRegion_evIn, setRegion_evIn, hkept.evIn]

/-! ## Edges (R106 to R108) -/

/-- An edge to the level at the ball is none. -/
theorem execEiEdge_same (s : State) (i : Fin 32) (taps : Fin 256) : execEiEdge i (evIn s i).ball taps s = .next s := by
  simp [execEiEdge]

/-- An input that has converted an edge while its filter judged no level: the edge begins a candidate level where it leaves the accepted
one. -/
def edgeTaken (v : EvIn) (at_ : Int) (e : Edge) : EvIn :=
  let v := { v with ball := !v.ball, convAt := some at_ }
  if v.ball == v.level then v else { v with cand := some (at_, some e) }

theorem edgeTaken_ball (v : EvIn) (at_ : Int) (e : Edge) : (edgeTaken v at_ e).ball = !v.ball := by
  unfold edgeTaken
  dsimp only
  split <;> rfl

theorem edgeTaken_cand {v : EvIn} (h : v.level = v.ball) (at_ : Int) (e : Edge) : (edgeTaken v at_ e).cand = some (at_, some e) := by
  have hne : ((!v.ball) == v.level) = false := by rw [h]; cases v.ball <;> rfl
  simp only [edgeTaken, hne]
  rfl

/-- An edge at an input that judges no level and is not in its dead time is converted. -/
theorem execEiEdge_converted {s : State} {i : Fin 32} (hon : eiOn s i = true) (taps : Fin 256) (hcand : (evIn s i).cand = none)
    (hover : tdcOverdue s (128 + i) = false) (hconv : (evIn s i).convAt = none) :
    execEiEdge i (!(evIn s i).ball) taps s = .next (setEvIn (convert s (128 + i) taps).1 i
      (edgeTaken (evIn s i) (tbTime s - ((tdcPos s (128 + i) taps).2.1 : Int)) (convert s (128 + i) taps).2)) := by
  have hball : ((evIn s i).ball == !(evIn s i).ball) = false := by cases (evIn s i).ball <;> rfl
  have hforced : eiForced s i = s := by simp [eiForced, hover]
  have hinput : evIn (convert s (128 + i) taps).1 i = evIn s i := evIn_of_evIn (convert_spec (by omega) hover taps).1 i
  have hjudge : ∀ at_, eiJudge s i at_ = s := fun at_ => by simp [eiJudge, hcand]
  simp only [execEiEdge, hball, hon, hconv, hjudge, hforced, hinput, evIn_setEvIn_same, setEvIn_setEvIn, Bool.not_true,
    Bool.false_eq_true, if_false]
  rfl

/-! ## Accepted levels (R107, R109) -/

/-- An input whose level has been accepted as active, before the edge is recorded. -/
def levelActive (s : State) (i : Nat) (e : Edge) : State :=
  setEvIn s i { evIn s i with
    level := !(evIn s i).level, cand := none, activeTb := some s.time.tb, activeEdge := some e, activeStamp := tickStamp s }

theorem evIn_levelActive (s : State) (i : Nat) (e : Edge) :
    evIn (levelActive s i e) i = { evIn s i with
      level := !(evIn s i).level, cand := none, activeTb := some s.time.tb, activeEdge := some e, activeStamp := tickStamp s } :=
  evIn_setEvIn_same s i _

theorem eiRoute_levelActive (s : State) (i : Nat) (e : Edge) : eiRoute (levelActive s i e) i = eiRoute s i :=
  eiRoute_of_reg (reg_setEvIn s i _ _)

theorem eiRoom_levelActive (s : State) (i : Nat) (e : Edge) : eiRoom (levelActive s i e) i = eiRoom s i := by
  rw [eiRoom, eiRoom, eiRoute_levelActive, evIn_levelActive]

/-- With no burst open and room in the FIFO, an edge gets a record of its own. -/
theorem eiRecord_own {s : State} {i : Nat} (hburst : (evIn s i).burst = none) (hnext : (evIn s i).burstNext = false)
    (hroom : eiRoom s i = true) (kind : Nat) (e : Edge) (inj : Bool) :
    eiRecord s i kind true (some e) inj = (eiPush s i kind e e false 0 inj, true) := by
  simp [eiRecord, hburst, hnext, hroom]

/-- An active level that is accepted is recorded with its edge. -/
theorem eiAccept_active {s : State} {i : Nat} (harms : s.integ.arms = []) (hactive : eiActive s i (!(evIn s i).level) = true)
    (hpps : ppsInput s ≠ some i) (hburst : (evIn s i).burst = none) (hnext : (evIn s i).burstNext = false)
    (hroom : eiRoom s i = true) (e : Edge) :
    eiAccept s i (some e) = eiPush (levelActive s i e) i 0 e e false 0 false := by
  have hrecord := eiRecord_own (s := levelActive s i e) (by rw [evIn_levelActive]; exact hburst)
    (by rw [evIn_levelActive]; exact hnext) ((eiRoom_levelActive s i e).trans hroom) 0 e false
  have hinput : ppsInput (eiPush (levelActive s i e) i 0 e e false 0 false) = ppsInput s :=
    ppsInput_of_reg ((reg_eiPush _ _ _ _ _ _ _ _ _).trans (reg_setEvIn s i _ _))
  have hno : (ppsInput s == some i) = false := beq_eq_false_iff_ne.2 hpps
  unfold levelActive at hrecord hinput ⊢
  simp only [eiAccept, injected_none harms, Bool.false_eq_true, if_false, hactive, if_true, Bool.or_false, hrecord, hinput, hno,
    Bool.and_false]

/-- An active level that has held for the width is accepted (R107). -/
theorem execEiLevelAccepted_active {s : State} {i : Fin 32} (hon : eiOn s i = true) {at_ : Int} {e : Edge}
    (hcand : (evIn s i).cand = some (at_, some e)) (hwidth : eiWidthUnits s i ≤ tbTime s - at_) :
    execEiLevelAccepted i s = .next (eiAccept s i (some e)) := by
  simp [execEiLevelAccepted, hcand, hon, hwidth]

/-! ## Bursts (R111) -/

/-- An input whose open coalesced record has been counted and reported, before it is written. -/
def burstCounted (s : State) (i : Nat) (b : Burst) : State :=
  fire (count (count (setEvIn s i { evIn s i with burst := none }) (Reg.eiCounts i) 15 0 1) (Reg.eiLost i) 31 0 b.lost)
    0x39 (unitEvIn i) 0 0 false (some (limitKey 0x39 (unitEvIn i) 0))

/-- A coalesced record that holds an edge closes as a BURST from its first edge to its last. -/
theorem burstClose_stamped {s : State} {i : Nat} {b : Burst} {f : Edge} (hburst : (evIn s i).burst = some b) (hfirst : b.first = some f) :
    burstClose s i = eiPush (burstCounted s i b) i 2 f (b.last.getD f) false b.lost b.inj := by
  unfold burstClose
  simp only [hburst, hfirst]
  rfl

theorem burstClose_none {s : State} {i : Nat} (hburst : (evIn s i).burst = none) : burstClose s i = s := by
  simp only [burstClose, hburst]

theorem burstCounted_evIn (s : State) (i : Nat) (b : Burst) :
    (burstCounted s i b).evIn = (setEvIn s i { evIn s i with burst := none }).evIn := by
  rw [burstCounted, fire_evIn, count_evIn, count_evIn]

theorem evIn_burstCounted (s : State) (i : Nat) (b : Burst) : evIn (burstCounted s i b) i = { evIn s i with burst := none } :=
  (evIn_of_evIn (burstCounted_evIn s i b) i).trans (evIn_setEvIn_same s i _)

theorem otherInputs_burstCounted (s : State) (i : Nat) (b : Burst) : OtherInputs i s (burstCounted s i b) :=
  (otherInputs_setEvIn s i _).trans (.of_evIn (burstCounted_evIn s i b))

theorem eiRoute_burstCounted (s : State) (i : Fin 32) (b : Burst) : eiRoute (burstCounted s i b) i = eiRoute s i := by
  have hcounts : Reg.eiCtrl i ≠ Reg.eiCounts i := by unfold Reg.eiCtrl Reg.eiCounts; omega
  have hlost : Reg.eiCtrl i ≠ Reg.eiLost i := by unfold Reg.eiCtrl Reg.eiLost; omega
  have hsetting : SettingWord (Reg.eiCtrl i) := settingWord_portCtrl (cls := 3) i.isLt
  refine eiRoute_of_reg ?_
  rw [burstCounted, settingsKept_fire _ _ _ _ _ _ _ _ hsetting, reg_count_other hlost, reg_count_other hcounts, reg_setEvIn]

/-- A burst is counted among the bursts of its input, and its detector fires. -/
theorem burstCounted_counts (s : State) (i : Fin 32) (b : Burst) :
    total (burstCounted s i b) (Reg.eiCounts i) 0 = (total s (Reg.eiCounts i) 0 + 1) % 2 ^ 32 ∧ FiredOnce s (burstCounted s i b) 0x39 := by
  have happart : 32 * Reg.eiCounts i + 0 ≠ 32 * Reg.eiLost i + 0 ∧ 32 * Reg.eiCounts i + 0 ≠ 32 * Reg.detCount 0x39
      ∧ 32 * Reg.detCount 0x39 + 0 ≠ 32 * Reg.eiLost i + 0 ∧ 32 * Reg.detCount 0x39 + 0 ≠ 32 * Reg.eiCounts i + 0
      ∧ Reg.detCount 0x39 ≠ Reg.eiLost i ∧ Reg.detCount 0x39 ≠ Reg.eiCounts i := by
    unfold Reg.eiCounts Reg.eiLost Reg.detCount
    omega
  obtain ⟨hlost, hdet, htlost, htcounts, hrlost, hrcounts⟩ := happart
  constructor
  · rw [burstCounted, total_fire_other _ _ _ _ _ _ hdet, total_count_other _ _ _ hlost, total_count]
    rfl
  · refine firedOnce_from ?_ ?_ (firedOnce_fire_limited _ 0x39 _ _ _ _ _)
    · rw [total_count_other _ _ _ htlost, total_count_other _ _ _ htcounts]
      rfl
    · rw [reg_count_other hrlost, reg_count_other hrcounts, reg_setEvIn]

/-- A coalesced record closes 1 µs behind its last edge or 10 ms behind its first, where the FIFO has room. -/
theorem execBurstClose_due {s : State} {i : Fin 32} (hon : eiOn s i = true) {b : Burst} (hburst : (evIn s i).burst = some b)
    (hroom : eiRoom s i = true) (hdue : 250 ≤ s.time.tb - b.lastTb ∨ 2500000 ≤ s.time.tb - b.openTb) :
    execBurstClose i s = .next (burstClose s i) := by
  have hclose : (decide (Config.tickUs ≤ sinceTb s b.lastTb) || decide (10 * Config.tickMs ≤ sinceTb s b.openTb)) = true := by
    rw [Bool.or_eq_true, decide_eq_true_eq, decide_eq_true_eq]
    exact hdue
  simp only [execBurstClose, hburst, hon, hroom, hclose, Bool.and_self, if_true]

/-! ## Held levels (R112) -/

/-- An input whose active level has held. -/
def levelHeld (s : State) (i : Nat) : State := setEvIn s i { evIn s i with held := true }

theorem evIn_levelHeld (s : State) (i : Nat) : evIn (levelHeld s i) i = { evIn s i with held := true } := evIn_setEvIn_same s i _

theorem eiRoute_levelHeld (s : State) (i : Nat) : eiRoute (levelHeld s i) i = eiRoute s i := eiRoute_of_reg (reg_setEvIn s i _ _)

/-- An active level that has held for EI_HOLD is recorded from its edge to this tick, and its detector fires. -/
theorem execEiHeld_due {s : State} {i : Fin 32} (hon : eiOn s i = true) {tb : Nat} {f : Edge} (htb : (evIn s i).activeTb = some tb)
    (hheld : (evIn s i).held = false) (hburst : (evIn s i).burst = none) (hedge : (evIn s i).activeEdge = some f)
    (hhold : regF s (Reg.eiHold i) 15 0 ≠ 0) (hdue : regF s (Reg.eiHold i) 15 0 * 250000 ≤ s.time.tb - tb) :
    execEiHeld i s = .next (fire (eiPush (levelHeld s i) i 3 f ⟨tickStamp (levelHeld s i), 0, (levelHeld s i).time.steps⟩ false 0 false)
      0x38 (unitEvIn i) 0 0 false none) := by
  have hdue' : decide (regF s (Reg.eiHold i) 15 0 * Config.tickMs ≤ sinceTb s tb) = true := decide_eq_true hdue
  have hhold' : (regF s (Reg.eiHold i) 15 0 != 0) = true := bne_iff_ne.2 hhold
  simp only [execEiHeld, htb, hon, hheld, hhold', hdue', burstClose_none hburst, hedge, Bool.not_false, Bool.and_self, if_true,
    levelHeld]

/-! ## The FIFO (R110) -/

/-- The Kennel takes a record, at its commit or its refusal. -/
theorem eiToKennel_admits (s : State) (i : Nat) {r : EvRec} (h : r.toKennel = true) :
    ∃ q, eiToKennel s i r = (admitRecord s (eiArrived i r), q) ∧ q.toKennel = false ∧ q.toRing = r.toRing := by
  rw [eiToKennel, h]
  exact ⟨_, rfl, rfl, rfl⟩

/-- The host ring takes no record that does not go to it. -/
theorem eiToRing_none (s : State) (i : Nat) {r : EvRec} (h : r.toRing = false) : eiToRing s i r = (s, r) := by simp [eiToRing, h]

/-- A record that only the Kennel waits for is admitted, or refused, and leaves the FIFO. -/
theorem execEiFifoDrain_kennel {s : State} {i : Fin 32} (hon : alive s = true) {r : EvRec} {rs : List EvRec}
    (hfifo : (evIn s i).fifo = r :: rs) (hkennel : r.toKennel = true) (hring : r.toRing = false) :
    execEiFifoDrain i s = .next (setEvIn (admitRecord s (eiArrived i r)) i { evIn s i with fifo := rs }) := by
  have hinput : evIn (admitRecord s (eiArrived i r)) i = evIn s i := evIn_of_evIn (admitRecord_evIn s _) i
  obtain ⟨q, hadmit, hqkennel, hqring⟩ := eiToKennel_admits s i hkennel
  rw [hring] at hqring
  simp only [execEiFifoDrain, hfifo, hon, hadmit, eiToRing_none _ _ hqring, hinput, hqkennel, hqring, Bool.not_true,
    Bool.false_eq_true, if_false, Bool.or_self]

/-- An input stamps only in a hub that works. -/
theorem alive_of_eiOn {s : State} {i : Nat} (h : eiOn s i = true) : alive s = true := by
  simp only [eiOn, ticking, Bool.and_eq_true] at h
  obtain ⟨⟨⟨halive, -⟩, -⟩, -⟩ := h
  exact halive

end Sys2Proof.Machine

namespace Sys2Proof.Proofs
open Sys2Proof.Machine

/-- Settles O44: the six rows of an event input, each by what its meaning does where it is due. -/
theorem eventInputs : Obligations.EventInputs := by
  unfold Obligations.EventInputs
  intro s i hon v others grew
  refine ⟨?edge, fun taps => execEiEdge_same s i taps, ?accepted, ?burst, ?held, ?drain⟩
  case edge =>
    intro taps hcand hover hconv
    obtain ⟨hevIn, hstamp⟩ := convert_spec (by omega) hover taps.val
    refine ⟨_, _, execEiEdge_converted hon taps hcand hover hconv, ?_, ?_, hstamp, fun hlevel => ?_⟩
    · rw [evIn_setEvIn_same, edgeTaken_ball]
    · exact (OtherInputs.of_evIn hevIn).trans (otherInputs_setEvIn _ i _)
    · rw [evIn_setEvIn_same, edgeTaken_cand hlevel]
  case accepted =>
    intro at_ e hcand hwidth harms hpps hburst hnext hlen hactive
    have hroom : eiRoom s i = true := by simp [eiRoom, show (evIn s i).fifo.length < 64 from hlen]
    have hexec := execEiLevelAccepted_active hon hcand hwidth
    rw [eiAccept_active harms hactive hpps hburst hnext hroom] at hexec
    obtain ⟨q, hq⟩ := evIn_eiPush (levelActive s i e) i 0 e e false 0 false
    obtain ⟨m, hm⟩ := eiPush_frame (levelActive s i e) i 0 e e false 0 false
    rw [evIn_levelActive] at hq
    refine ⟨_, hexec, by rw [hq], by rw [hq], by rw [hq], ?_, ?_, by rw [hm]; rfl⟩
    · exact (otherInputs_setEvIn s i _).trans (otherInputs_eiPush _ i _ _ _ _ _ _)
    · exact recorded_eiPush (eiRoute_levelActive s i e) (by rw [evIn_levelActive]) (by decide) _ _ _ _ _
  case burst =>
    intro b f hburst hfirst hroom hdue
    have hexec := execBurstClose_due hon hburst hroom hdue
    rw [burstClose_stamped hburst hfirst] at hexec
    obtain ⟨q, hq⟩ := evIn_eiPush (burstCounted s i b) i 2 f (b.last.getD f) false b.lost b.inj
    obtain ⟨htotal, hfired⟩ := burstCounted_counts s i b
    rw [evIn_burstCounted] at hq
    refine ⟨_, hexec, by rw [hq], ?_, ?_, ?_, firedOnce_eiPush hfired _ _ _ _ _ _ _⟩
    · exact (otherInputs_burstCounted s i b).trans (otherInputs_eiPush _ i _ _ _ _ _ _)
    · exact recorded_eiPush (eiRoute_burstCounted s i b) (by rw [evIn_burstCounted]) (by decide) _ _ _ _ _
    · rw [total_eiPush, htotal]
  case held =>
    intro tb f htb hheld hburst hedge hhold hdue
    have hexec := execEiHeld_due hon htb hheld hburst hedge hhold hdue
    generalize hlast : (⟨tickStamp (levelHeld s i), 0, (levelHeld s i).time.steps⟩ : Edge) = last at hexec
    obtain ⟨q, hq⟩ := evIn_eiPush (levelHeld s i) i 3 f last false 0 false
    have hinputs := fire_evIn (eiPush (levelHeld s i) i 3 f last false 0 false) 0x38 (unitEvIn i) 0 0 false none
    have hinput := evIn_of_evIn hinputs i
    rw [evIn_levelHeld] at hq
    refine ⟨_, hexec, by rw [hinput, hq], ?_, ?_, ?_⟩
    · exact ((otherInputs_setEvIn s i _).trans (otherInputs_eiPush _ i _ _ _ _ _ _)).trans (.of_evIn hinputs)
    · intro hroute
      rw [hinput]
      exact recorded_eiPush (eiRoute_levelHeld s i) (by rw [evIn_levelHeld]) (by decide) f last false 0 false hroute
    · refine firedOnce_from ?_ ?_ (firedOnce_fire _ 0x38 _ _ _ _)
      · rw [total_eiPush]
        rfl
      · rw [reg_eiPush]
        exact reg_setEvIn s i _ _
  case drain =>
    intro r rs hfifo hkennel hring
    exact execEiFifoDrain_kennel (alive_of_eiOn hon) hfifo hkennel hring

end Sys2Proof.Proofs
end

section
/-! # A write that the full queue of the bridge holds back (R116, R296) -/

namespace Sys2Proof.Machine

/-- Where the queue of the bridge is full, a write of EO_PULSE_FRAC does not act (R296). -/
theorem exec_eoPulseQueue_postedFull {s : State} (h : postedFull s = true) (m : Fin 8) (frac : Word) :
    exec (.eoPulseQueue m frac) s = .next s := by
  have hw : bar0Writes s = false := by simp [bar0Writes, h]
  have hexec : exec (.eoPulseQueue m frac) s = execEoPulseQueue m frac s := rfl
  rw [hexec, execEoPulseQueue, hw, if_neg Bool.false_ne_true]

/-- A counter that counts once changes the state. -/
theorem count_once_ne (s : State) (off hi lo : Nat) : count s off hi lo 1 ≠ s := by
  intro h
  have htotal := total_count s off hi lo 1
  rw [h] at htotal
  omega

/-- A hub that runs, whose host can reach BAR0, with 128 writes posted to the cabinet bus. -/
def postedFullHub : State := { State.reset with
  power := { State.reset.power with phase := .run }, host := { State.reset.host with usable := true },
  bridge := { State.reset.bridge with posted := List.replicate 128 ⟨0, 0, 0, 4, 0, 1, 0⟩ } }

/-- BAR0 answers while the posted writes wait, and the target that output 0 holds is not ahead of the clock. -/
theorem postedFullHub_late :
    bar0Ok postedFullHub = true ∧ postedFull postedFullHub = true
      ∧ eoAhead postedFullHub ⟨(evOut postedFullHub 0).heldSec, (evOut postedFullHub 0).heldNs, (0 : Word).setWidth 16, postedFullHub.time.tb⟩
        < 16 * 65536 := by decide +kernel

end Sys2Proof.Machine

namespace Sys2Proof.Proofs
open Sys2Proof.Machine

/-- Refutes O45: it says of every hub whose BAR0 answers that a late target is counted, and where 128 writes are posted to the cabinet bus
the write of EO_PULSE_FRAC is held back by R296, so that it changes nothing. -/
theorem not_eventOutputs : ¬Obligations.EventOutputs := by
  unfold Obligations.EventOutputs
  intro h
  obtain ⟨hbar0, hfull, hlate⟩ := postedFullHub_late
  obtain ⟨hqueue, -⟩ := h postedFullHub 0
  obtain ⟨-, hcounted, -⟩ := hqueue 0 hbar0
  have hexec := (exec_eoPulseQueue_postedFull hfull 0 0).symm.trans (hcounted hlate)
  exact count_once_ne postedFullHub _ 31 24 (Host.Outcome.next.inj hexec).symm

end Sys2Proof.Proofs
end

section
/-! # Harbour watch (R150 to R153, R361 to R363) -/

namespace Sys2Proof.Machine

/-! ## The entry (R361) -/

/-- The hub once an entry is committed, with the receivers named and none of them started. -/
def sleepCommitted (s : State) (k : Nat) (c : HostCmd) : State :=
  let t := finish s k stDone 0 0
  setPower t { t.power with
    phase := .sleeping 0, watches := [], named := sleepNamed c, entryTb := t.time.tb,
    entrySlot := if t.host.held.any (fun h => h.slot == k) then some k else none, woke := false }

/-- An entry is committed with the receivers named, none of them started. -/
theorem execSleepEnter_commits {s : State} {k : Fin 256} {c : HostCmd} (hready : cmdReady s k 0x04 = some c) (hrun : s.power.phase = .run)
    (hwatch : ∀ x, x ∈ sleepNamed c → canWatch s x.2 = true) :
    ∃ t, execSleepEnter k s = .next t ∧ t.power.phase = .sleeping 0 ∧ t.power.named = sleepNamed c ∧ t.power.watches = []
      ∧ t.power.entryTb = s.time.tb ∧ cmdAt t k = none := by
  have hany : (sleepNamed c).any (fun x => !canWatch s x.2) = false := by
    rw [List.any_eq_false]
    intro x hx
    simp [hwatch x hx]
  have htb : (sleepCommitted s k c).power.entryTb = s.time.tb := by
    obtain ⟨r, g, o, fr, hd, h⟩ := finish_frame s k stDone 0 0
    rw [sleepCommitted, h]
    rfl
  have hexec : execSleepEnter k s = .next (sleepCommitted s k c) := by
    simp only [execSleepEnter, hready, hrun, hany, bne_self_eq_false, Bool.or_self, Bool.false_eq_true, if_false]
    rfl
  exact ⟨_, hexec, rfl, rfl, rfl, htb, cmdAt_finish s k stDone 0 0⟩

/-- Outside the run phase, or with a port that cannot watch, SLEEP_ENTER is WRONG_STATE. -/
theorem execSleepEnter_wrongState {s : State} {k : Fin 256} {c : HostCmd} (hready : cmdReady s k 0x04 = some c)
    (hbad : s.power.phase ≠ .run ∨ ∃ x, x ∈ sleepNamed c ∧ canWatch s x.2 = false) :
    execSleepEnter k s = .next (finish s k stWrongState 0 0) := by
  have hcond : (s.power.phase != .run || (sleepNamed c).any (fun x => !canWatch s x.2)) = true := by
    simpa using hbad
  simp only [execSleepEnter, hready, hcond, if_true]

/-- Copies that are flushed change the queues, the registers and the totals. -/
theorem flushCopies_frame (s : State) (p : Copy → Bool) :
    ∃ r n, (flushCopies s p).1 =
      { s with regs := r, totals := n, lq := { s.lq with copies := s.lq.copies.filter (fun c => !p c) } } := by
  have hfold : ∀ (l : List Copy) (x : State), ∃ r n,
      l.foldl (fun s c => count s (Reg.lqFlushed c.listener) 31 16 1) x = { x with regs := r, totals := n } := fun l x =>
    List.foldlRecOn l _ (motive := fun t : State => ∃ r n, t = { x with regs := r, totals := n }) ⟨x.regs, x.totals, rfl⟩
      fun t ⟨_, _, h⟩ _ _ => h ▸ ⟨_, _, rfl⟩
  obtain ⟨r, n, h⟩ := hfold (s.lq.copies.filter p) (setLq s { s.lq with copies := s.lq.copies.filter (fun c => !p c) })
  exact ⟨r, n, h⟩

/-- With every endpoint given up, none is owned; the clock and the power state stay. -/
theorem releaseAll_frame (s : State) : (releaseAll s).time = s.time ∧ (releaseAll s).power = s.power ∧ (releaseAll s).pair.owned = [] := by
  unfold releaseAll
  extract_lets p x y
  obtain ⟨r, n, h⟩ := flushCopies_frame x (fun c => lstKind c.w0 != 4)
  have hy : y = _ := h
  rw [hy]
  exact ⟨rfl, rfl, rfl⟩

/-- The hub once intake and endpoints have stopped: the clock is kept in SLEEP_STAMP, the link is down, and the receivers run. -/
def sleepStopped (s : State) : State :=
  let t := releaseAll (aliveLow s)
  setPower (emit (setReg (setReg t Reg.sleepStampSec (shortSec (now s))) Reg.sleepStampNs (shortNs (now s))) .linkDown)
    { s.power with phase := .sleeping 1, watches := s.power.named.map (watchStart s) }

/-- 100 µs after the message the endpoints are given up, the clock is kept, the link goes down, and the receivers start. -/
theorem execSleepEntryStop_due {s : State} (hphase : s.power.phase = .sleeping 0) (hslot : s.power.entrySlot = none)
    (hdue : s.time.locked = false ∨ 25000 ≤ s.time.tb - s.power.entryTb) :
    ∃ t, execSleepEntryStop s = .next t ∧ t.power.phase = .sleeping 1
      ∧ t.power.watches.map (fun w => (w.num, w.port)) = s.power.named
      ∧ reg t Reg.sleepStampSec = BitVec.ofNat 32 (stSec (now s)) ∧ reg t Reg.sleepStampNs = BitVec.ofNat 32 (stNs (now s))
      ∧ t.pair.owned = [] ∧ t.out.getLast? = some .linkDown := by
  have hdue' : (!s.time.locked || decide (100 * Config.tickUs ≤ sinceTb s s.power.entryTb)) = true := by
    rcases hdue with h | h
    · simp [h]
    · simp [sinceTb, Config.tickUs, h]
  obtain ⟨l, hlow⟩ := aliveLow_frame s
  obtain ⟨htime, hpower, howned⟩ := releaseAll_frame (aliveLow s)
  have hnow : now (releaseAll (aliveLow s)) = now s := by rw [now, now, htime, hlow]
  have hexec : execSleepEntryStop s = .next (sleepStopped s) := by
    simp only [execSleepEntryStop, hphase, hslot, hdue', beq_self_eq_true, Option.isNone_none, Bool.and_self, Bool.not_true,
      Bool.false_eq_true, if_false, hnow, setReg_power, hpower]
    rw [hlow, sleepStopped, hlow]
  have hsec : reg (sleepStopped s) Reg.sleepStampSec = shortSec (now s) := by
    rw [sleepStopped, reg_setPower, reg_of_regs (emit_regs _ _), reg_setReg, if_neg (by decide), reg_setReg, if_pos rfl]
  have hns : reg (sleepStopped s) Reg.sleepStampNs = shortNs (now s) := by
    rw [sleepStopped, reg_setPower, reg_of_regs (emit_regs _ _), reg_setReg, if_pos rfl]
  have hnamed : (sleepStopped s).power.watches.map (fun w => (w.num, w.port)) = s.power.named := by
    rw [sleepStopped, setPower_power, List.map_map]
    exact List.map_id _
  exact ⟨_, hexec, rfl, hnamed, hsec, hns, howned, List.getLast?_concat⟩

theorem execSleepPowerDownStep_first {s : State} (h : s.power.phase = .sleeping 1) :
    execSleepPowerDownStep s = .next (setPower (emit s (.powerEnable 2 false)) { s.power with phase := .sleeping 2, enSd := false }) := by
  simp only [execSleepPowerDownStep, h]

theorem execSleepPowerDownStep_second {s : State} (h : s.power.phase = .sleeping 2) :
    execSleepPowerDownStep s = .next (setPower (emit s (.powerEnable 1 false)) { s.power with phase := .sleeping 3, enCore := false }) := by
  simp only [execSleepPowerDownStep, h]

theorem execSleepPowerDownStep_third {s : State} (h : s.power.phase = .sleeping 3) : execSleepPowerDownStep s = .next (entryEnd s) := by
  simp only [execSleepPowerDownStep, h]

/-- The last supplies fall: PWR_EN_IO, and the clusters without a watching port; a wake that has occurred takes effect. -/
theorem entryEnd_power (s : State) :
    (entryEnd s).power.enIo = false
      ∧ (entryEnd s).power.enSc = s.power.enSc.filter (fun k => s.power.watches.any (fun w => w.port / 16 == k) && decide (k < 8))
      ∧ (entryEnd s).power.phase = if s.power.woke then .waking 0 else .watch := by
  have hkeep : ∀ k, (watchClusters s).contains k = (s.power.watches.any (fun w => w.port / 16 == k) && decide (k < 8)) := fun k => by
    rw [Bool.eq_iff_iff]
    simp only [watchClusters, List.contains_iff_mem, List.mem_filter, List.mem_range, Bool.and_eq_true, decide_eq_true_eq]
    exact and_comm
  have hsc : (s.power.enSc.filter fun k => (watchClusters s).contains k)
      = s.power.enSc.filter (fun k => s.power.watches.any (fun w => w.port / 16 == k) && decide (k < 8)) :=
    List.filter_congr fun k _ => hkeep k
  rw [← hsc]
  unfold entryEnd
  extract_lets keep p x y z
  have hz : z.power = { s.power with enIo := false, enSc := s.power.enSc.filter (fun k => keep.contains k) } := rfl
  clear_value z
  have hio : z.power.enIo = false := congrArg Power.enIo hz
  have hsupplies : z.power.enSc = s.power.enSc.filter (fun k => keep.contains k) := congrArg Power.enSc hz
  split
  · exact ⟨hio, hsupplies, rfl⟩
  · exact ⟨hio, hsupplies, rfl⟩

/-- Asleep, a step with no command to take is a period of SL. -/
theorem step_watch {s : State} (hphase : s.power.phase = .watch) (hpending : s.pending = []) : step s = .next (slTick s) := by
  have hruns : tbRuns s = false := by simp [tbRuns, powered, hphase]
  have hwatch : (s.power.phase == .watch) = true := beq_iff_eq.2 hphase
  unfold step
  split
  · rw [hruns, if_neg Bool.false_ne_true, if_pos hwatch]
  · rename_i hcons
    rw [hpending] at hcons
    cases hcons

/-! ## Waking (R362) -/

/-- A source has woken the hub from harbour watch: WATCH_WAKE names it, and SLEPT shows the SL periods asleep in units of 32. -/
def WokenBy (s t : State) (source : Nat) : Prop :=
  t.power.phase = .waking 0 ∧ t.power.woke = true ∧ regF t Reg.watchWake 9 0 = source
    ∧ reg t Reg.slept = BitVec.ofNat 32 (min (s.power.slPeriods / 32) 0xFFFFFFFF) ∧ SameRegs s t [Reg.watchWake, Reg.slept]

/-- What a first wake writes to WATCH_WAKE. -/
theorem regF_watchWake_first (s : State) {bits : Nat} (h : bits < 1024) : regF (setF s Reg.watchWake 9 0 bits) Reg.watchWake 9 0 = bits :=
  (regF_setF_same (by decide) (by decide)).trans (Nat.mod_eq_of_lt h)

/-- A first wake in harbour watch begins to wake the hub. -/
theorem wokenBy_wakeBy {s : State} (hphase : s.power.phase = .watch) (hwoke : s.power.woke = false) {bits : Nat} (h : bits < 1024) :
    WokenBy s (wakeBy s bits) bits := by
  have hform : wakeBy s bits = setPower (setReg (setPower (setF s Reg.watchWake 9 0 bits) { s.power with woke := true }) Reg.slept
      (BitVec.ofNat 32 (min (s.power.slPeriods / 32) 0xFFFFFFFF))) { s.power with woke := true, phase := .waking 0 } := by
    simp only [wakeBy, hwoke, setReg_power, setPower_power, hphase, Bool.false_eq_true, if_false, beq_self_eq_true, if_true, setF]
  have hne : Reg.watchWake ≠ Reg.slept := by decide
  rw [hform]
  refine ⟨rfl, rfl, ?_, ?_, fun off hoff => ?_⟩
  · refine (regF_of_reg ?_ 9 0).trans (regF_watchWake_first s h)
    rw [reg_setPower, reg_setReg, if_neg hne, reg_setPower]
  · rw [reg_setPower, reg_setReg, if_pos rfl]
  · obtain ⟨hwake, hslept⟩ : off ≠ Reg.watchWake ∧ off ≠ Reg.slept := by simpa using hoff
    rw [reg_setPower, reg_setReg, if_neg hslept, reg_setPower, reg_setF_other hwake]

/-- A first wake during the entry is kept for its end. -/
theorem wakeBy_entry {s : State} {k : Nat} (hphase : s.power.phase = .sleeping k) (hwoke : s.power.woke = false) (bits : Nat) :
    wakeBy s bits = setPower (setF s Reg.watchWake 9 0 bits) { s.power with woke := true } := by
  simp only [wakeBy, hwoke, setReg_power, setPower_power, hphase, Bool.false_eq_true, if_false]
  rfl

theorem asleep_watch {s : State} (h : s.power.phase = .watch) : asleep s = true := by rw [asleep, h]

theorem asleep_sleeping {s : State} {k : Nat} (h : s.power.phase = .sleeping k) : asleep s = true := by rw [asleep, h]

theorem execWakeN_asleep {s : State} (h : asleep s = true) : execWakeN s = .next (wakeBy s 256) := by rw [execWakeN, if_pos h]

/-- The timer wakes the hub after PWR_WAKE.TIMER seconds of SL. -/
theorem execWakeTimer_due {s : State} (hphase : s.power.phase = .watch) (hset : regF s Reg.pwrWake 31 16 ≠ 0)
    (hdue : regF s Reg.pwrWake 31 16 * 32768 ≤ s.power.slPeriods) : execWakeTimer s = .next (wakeBy s 512) := by
  simp [execWakeTimer, hphase, hset, slSecond, hdue]

theorem execWakeTimer_early {s : State} (h : regF s Reg.pwrWake 31 16 = 0 ∨ s.power.slPeriods < regF s Reg.pwrWake 31 16 * 32768) :
    execWakeTimer s = .next s := by
  rcases h with h | h
  · simp [execWakeTimer, h]
  · simp [execWakeTimer, slSecond, Nat.not_le.2 h]

/-- The power state that a wake reset leaves: the receivers go on. -/
def powerReleased (p : Power) : Power := { p with phase := .boot, named := [], entryTb := 0, entrySlot := none, woke := false }

/-- The wake reset leaves the always-on registers and the receivers, and names its cause (R352, R353). -/
theorem execWakeRelease_spec {s : State} (h : s.power.phase = .waking 3) :
    ∃ t, execWakeRelease s = .next t ∧ t.power.phase = .boot ∧ t.power.watches = s.power.watches
      ∧ reg t Reg.resetCause = BitVec.ofNat 32 (4 + (if s.integ.stopped then 256 else 0))
      ∧ reg t Reg.watchWake = reg s Reg.watchWake ∧ reg t Reg.sleepStampSec = reg s Reg.sleepStampSec ∧ t.kennel = []
      ∧ t.out.getLast? = some (.vid 14) := by
  have hreset := fullReset_resetFrom s 4 (powerReleased s.power)
  have hpower := fullReset_power s 4 (powerReleased s.power)
  have hexec : execWakeRelease s = .next (emit (fullReset s 4 (powerReleased s.power)) (.vid 14)) := by
    simp only [execWakeRelease, h, beq_self_eq_true, if_true, powerReleased]
  generalize fullReset s 4 (powerReleased s.power) = t at hreset hpower hexec
  obtain ⟨hcause, hregs, hkennel, -⟩ := hreset
  have hphase : t.power.phase = .boot := congrArg Power.phase hpower
  have hwatches : t.power.watches = s.power.watches := by rw [hpower, powerReleased]
  refine ⟨emit t (.vid 14), hexec, hphase, hwatches, hcause, ?_, ?_, hkennel, List.getLast?_concat⟩
  · exact (hregs Reg.watchWake (by decide) (by decide)).trans (if_pos (by decide))
  · exact (hregs Reg.sleepStampSec (by decide) (by decide)).trans (if_pos (by decide))

/-! ## The watch receivers (R151 to R153) -/

/-- What the buffer of a receiver takes changes only the buffer and the place of the sentence in progress. -/
theorem watchKeep_frame (w : Watch) (awake hit : Bool) (c : RawChar) (idle : Nat) :
    ∃ b u f, watchKeep w awake hit c idle = { w with buf := b, full := u, place := f } := by
  have hadd : ∀ f, ∃ b u f', watchAdd w c f = { w with buf := b, full := u, place := f' } := fun f => by
    unfold watchAdd
    split
    · exact ⟨w.buf, true, f, rfl⟩
    · exact ⟨w.buf ++ [c], w.full, f, rfl⟩
  have hopen : ∀ f, ∃ b u f', watchOpen w c f = { w with buf := b, full := u, place := f' } := fun f => ⟨_, _, _, rfl⟩
  have hdrop : ∃ b u f', watchDrop w = { w with buf := b, full := u, place := f' } := ⟨_, _, _, rfl⟩
  have htext : ∃ b u f', watchText w c = { w with buf := b, full := u, place := f' } := by
    unfold watchText
    extract_lets opened
    cases w.place with
    | hunt =>
      dsimp only
      split
      · exact hopen _
      · exact ⟨w.buf, w.full, w.place, rfl⟩
    | tag =>
      dsimp only
      split
      · exact hadd _
      · split
        · exact hdrop
        · split
          · exact hopen _
          · exact hadd _
    | afterTag =>
      dsimp only
      split
      · exact hadd _
      · split
        · exact hadd _
        · exact hdrop
    | sentence =>
      dsimp only
      split
      · exact hopen _
      · split
        · exact hdrop
        · exact hadd _
  unfold watchKeep
  split
  · exact hadd _
  · split
    · split
      · exact hopen _
      · exact hadd _
    · split
      · exact hadd _
      · exact htext

/-- A receiver after a character behind so many character times of idle line. -/
def watchHeard (s : State) (w : Watch) (c : RawChar) (idle : Nat) : Watch :=
  { watchKeep w (s.power.woke || !asleep s) (watchCompare w c idle).2 c idle with
    pos := (watchCompare w c idle).1, matched := w.matched || (watchCompare w c idle).2, started := true, needIdle := c.fe }

theorem watchHeard_num (s : State) (w : Watch) (c : RawChar) (idle : Nat) : (watchHeard s w c idle).num = w.num := by
  obtain ⟨b, u, f, h⟩ := watchKeep_frame w (s.power.woke || !asleep s) (watchCompare w c idle).2 c idle
  rw [watchHeard, h]

/-- In harbour watch a match wakes the hub, and nothing else of a character does. -/
theorem watchChar_watch {s : State} (hphase : s.power.phase = .watch) (w : Watch) (c : RawChar) (idle : Nat) :
    watchChar s w c idle = if (watchCompare w c idle).2 then wakeBy (setWatch s w.num (watchHeard s w c idle)) (2 ^ w.num)
      else setWatch s w.num (watchHeard s w c idle) := by
  have hasleep : ∀ v, asleep (setWatch s w.num v) = true := fun v => asleep_watch hphase
  unfold watchChar
  dsimp only
  rw [hasleep, Bool.true_or, Bool.and_true]
  rfl

/-- A receiver that has heard a character keeps its place in the list under its number. -/
theorem find?_setWatch (s : State) {j : Nat} {w v : Watch} (hw : s.power.watches.find? (fun w => w.num == j) = some w) (hv : v.num = j) :
    (setWatch s j v).power.watches.find? (fun w => w.num == j) = some v := by
  have hpred : ∀ x : Watch, ((if x.num == j then v else x).num == j) = (x.num == j) := fun x => by
    split
    · rename_i hx
      rw [hx, hv, beq_self_eq_true]
    · rfl
  have hfound : (w.num == j) = true := List.find?_some (p := fun w : Watch => w.num == j) hw
  show (s.power.watches.map fun x => if x.num == j then v else x).find? (fun w => w.num == j) = some v
  rw [List.find?_map]
  simp only [Function.comp_def, hpred]
  rw [hw, Option.map_some, if_pos hfound]

/-- A receiver that runs and does not wait for idle takes a character, cut to its data bits. -/
theorem execWatchCharacter_heard {s : State} (hphase : s.power.phase = .watch) {j : Fin 8} {w : Watch}
    (hw : s.power.watches.find? (fun w => w.num == j.val) = some w) (ch : Byte) (fe pe : Bool) {idle : Nat}
    (hidle : w.needIdle = false ∨ idle ≠ 0) :
    execWatchCharacter j ch fe pe idle s =
      .next (watchChar s w ⟨BitVec.ofNat 8 (ch.toNat % 2 ^ (5 + fld w.format 1 0)), fe, pe⟩ idle) := by
  have hruns : watchRuns s = true := by simp [watchRuns, asleep_watch hphase]
  have hhears : (w.needIdle && idle == 0) = false := by
    rcases hidle with h | h
    · simp [h]
    · simp [h]
  simp only [execWatchCharacter, hw, hruns, hhears, Bool.not_true, Bool.or_self, Bool.false_eq_true, if_false]

theorem execWatchCharacter_waits {s : State} {j : Fin 8} {w : Watch} (hw : s.power.watches.find? (fun w => w.num == j.val) = some w)
    (hidle : w.needIdle = true) (ch : Byte) (fe pe : Bool) : execWatchCharacter j ch fe pe 0 s = .next s := by
  simp [execWatchCharacter, hw, hidle]

/-- The source of a match is the bit of its receiver. -/
theorem two_pow_lt_1024 (j : Fin 8) : 2 ^ j.val < 1024 := by
  have := Nat.pow_lt_pow_right (a := 2) (by decide) j.isLt
  omega

/-- A character that completes the pattern wakes the hub; any other moves the comparison on. -/
theorem execWatchCharacter_spec {s : State} (hphase : s.power.phase = .watch) (hwoke : s.power.woke = false) {j : Fin 8} {w : Watch}
    (hw : s.power.watches.find? (fun w => w.num == j.val) = some w) (ch : Byte) (fe pe : Bool) {idle : Nat}
    (hidle : w.needIdle = false ∨ idle ≠ 0) :
    let c : RawChar := ⟨BitVec.ofNat 8 (ch.toNat % 2 ^ (5 + fld w.format 1 0)), fe, pe⟩
    ((watchCompare w c idle).2 = true → ∃ t, execWatchCharacter j ch fe pe idle s = .next t ∧ WokenBy s t (2 ^ j.val))
      ∧ ((watchCompare w c idle).2 = false → ∃ t v, execWatchCharacter j ch fe pe idle s = .next t ∧ t.power.phase = .watch
        ∧ t.power.watches.find? (fun w => w.num == j.val) = some v ∧ v.pos = (watchCompare w c idle).1 ∧ v.matched = w.matched
        ∧ v.started = true ∧ t = { s with power := t.power }) := by
  intro c
  have hnum : w.num = j.val := by simpa using List.find?_some hw
  have hexec := execWatchCharacter_heard hphase hw ch fe pe hidle
  rw [watchChar_watch hphase, hnum] at hexec
  constructor
  · intro hhit
    rw [if_pos hhit] at hexec
    exact ⟨_, hexec, wokenBy_wakeBy (s := setWatch s j.val (watchHeard s w c idle)) hphase hwoke (two_pow_lt_1024 j)⟩
  · intro hhit
    rw [hhit, if_neg Bool.false_ne_true] at hexec
    refine ⟨_, watchHeard s w c idle, hexec, hphase, find?_setWatch s hw ((watchHeard_num s w c idle).trans hnum), rfl, ?_, rfl, rfl⟩
    show (w.matched || (watchCompare w c idle).2) = w.matched
    rw [hhit, Bool.or_false]

/-- A serial port after a serial port is written. -/
@[simp] theorem serial_setSerial (s : State) (p q : Nat) (v : SerialPort) :
    serial (setSerial s p v) q = if q = p then v else serial s q :=
  sget_sset _ _ _ _ _

/-! ## The end of a watch receiver (R152, R153, R363) -/

/-- A receiver with nothing buffered hands its line over to the port. -/
theorem execWatchTakeover_empty {s : State} {n : Fin 128} {w : Watch} (hw : s.power.watches.find? (fun w => w.port == n.val) = some w)
    (ht : ticking s = true) (hen : portEn s 0 n = true) (hwedge : isWedged s (unitSerial n) = false) (hbuf : w.buf = [])
    (hfull : w.full = false) :
    execWatchTakeover n s =
      .next (setSerial (watchEnd s w.num) n { serial s n with needIdle := false, idleTb := s.time.tb }) := by
  simp only [execWatchTakeover, hw, ht, hen, hwedge, hbuf, hfull, Bool.not_false, Bool.and_self, Bool.not_true, Bool.false_eq_true,
    if_false, List.foldl_nil]
  rfl

/-- A hub that boots or runs does not sleep. -/
theorem asleep_eq_false {s : State} (h : s.power.phase = .boot ∨ s.power.phase = .run) : asleep s = false := by
  rcases h with h | h
  · rw [asleep, h]
  · rw [asleep, h]

/-- A receiver whose port is not enabled in time ends, and is counted. -/
theorem execWatchReceiverTimeout_due {s : State} {j : Fin 8} {w : Watch} (hw : s.power.watches.find? (fun w => w.num == j.val) = some w)
    (hp : powered s = true) (hphase : s.power.phase = .boot ∨ s.power.phase = .run) (hen : portEn s 0 w.port = false) :
    execWatchReceiverTimeout j s = .next (count (watchEnd s j.val) Reg.watchWake 31 24 1) := by
  simp [execWatchReceiverTimeout, hw, hp, asleep_eq_false hphase, hen]

end Sys2Proof.Machine

namespace Sys2Proof.Proofs
open Sys2Proof.Machine

/-- Settles O56: each row of harbour watch, by the lemma that says what it does where it is due. -/
theorem harbourWatch : Obligations.HarbourWatch := by
  unfold Obligations.HarbourWatch
  intro s p woken
  refine ⟨fun k c hready => ⟨execSleepEnter_commits hready, execSleepEnter_wrongState hready⟩, execSleepEntryStop_due,
    execSleepPowerDownStep_first, execSleepPowerDownStep_second,
    fun hphase => ⟨_, execSleepPowerDownStep_third hphase, entryEnd_power s⟩, step_watch,
    fun hphase hwoke => ⟨_, execWakeN_asleep (asleep_watch hphase), wokenBy_wakeBy hphase hwoke (by decide)⟩,
    fun hphase hwoke => ?_, fun hphase hwoke hset hdue => ⟨_, execWakeTimer_due hphase hset hdue, wokenBy_wakeBy hphase hwoke (by decide)⟩,
    execWakeTimer_early, execWakeRelease_spec,
    fun j ch fe pe idle w hw hphase hwoke hidle => execWatchCharacter_spec hphase hwoke hw ch fe pe hidle,
    fun j ch fe pe w hw hidle => execWatchCharacter_waits hw hidle ch fe pe,
    fun n w hw ht hen hwedge hbuf hfull => ?_, fun j w hw hp hphase hen => ?_⟩
  · refine ⟨_, execWakeN_asleep (asleep_sleeping hphase), ?_⟩
    rw [wakeBy_entry hphase hwoke]
    exact ⟨rfl, (regF_of_reg (reg_setPower _ _ _) 9 0).trans (regF_watchWake_first s (by decide))⟩
  · have hport := serial_setSerial_same (watchEnd s w.num) n { serial s n with needIdle := false, idleTb := s.time.tb }
    exact ⟨_, execWatchTakeover_empty hw ht hen hwedge hbuf hfull, rfl, congrArg SerialPort.needIdle hport,
      congrArg SerialPort.idleTb hport, rfl⟩
  · have hpower : (count (watchEnd s j) Reg.watchWake 31 24 1).power = (watchEnd s j).power := by rw [count_frame]
    refine ⟨_, execWatchReceiverTimeout_due hw hp hphase hen, ?_, total_count (watchEnd s j) Reg.watchWake 31 24 1, ?_⟩
    · rw [hpower]
      rfl
    · exact count_frame (watchEnd s j) Reg.watchWake 31 24 1

end Sys2Proof.Proofs
end

section
/-! # What leaves the serial ports: counters, detectors, the checked memories, admission and the Leash (R144, R160, R163 to R165)

A character, a break or a departure sets off operations that other units share. From the registers and the counters of the serial ports and
from the detectors of their receivers these keep away; of the ports themselves only the Leash of the port that a talker is keyed on moves. -/

namespace Sys2Proof.Machine

/-- The registers of the serial ports, and the counts of the detectors 0x10 to 0x15, which report on them (R329). -/
def SerialWord (off : Nat) : Prop :=
  (0x10000 ≤ off ∧ off < 0x30000) ∨ (Reg.detCount 0x10 ≤ off ∧ off ≤ Reg.detCount 0x15)

theorem SerialWord.not_ringReg {off : Nat} (h : SerialWord off) : ¬ringReg off := by
  unfold SerialWord Reg.detCount at h
  unfold Machine.ringReg
  omega

/-- A detector that does not report on serial ports. -/
theorem not_serialWord_detCount {d : Nat} (h : d < 0x10 ∨ 0x15 < d) : ¬SerialWord (Reg.detCount d) := by
  unfold SerialWord Reg.detCount
  omega

/-- From s to t neither a serial port, nor the clock, nor a register or counter of serial ports changed. -/
structure SerialStill (s t : State) : Prop where
  serial : t.serial = s.serial
  time : t.time = s.time
  reg : ∀ off, SerialWord off → reg t off = reg s off
  total : ∀ off lo, SerialWord off → lo < 32 → total t off lo = total s off lo

theorem SerialStill.refl (s : State) : SerialStill s s := ⟨rfl, rfl, fun _ _ => rfl, fun _ _ _ _ => rfl⟩

theorem SerialStill.trans {s t u : State} (h : SerialStill s t) (k : SerialStill t u) : SerialStill s u :=
  ⟨k.serial.trans h.serial, k.time.trans h.time, fun off ho => (k.reg off ho).trans (h.reg off ho),
    fun off lo ho hlo => (k.total off lo ho hlo).trans (h.total off lo ho hlo)⟩

theorem SerialStill.foldl {α : Type} {f : State → α → State} (hf : ∀ s a, SerialStill s (f s a)) (l : List α) (s : State) :
    SerialStill s (l.foldl f s) :=
  List.foldlRecOn l f (.refl s) fun t ht a _ => ht.trans (hf t a)

/-- Two states that share the ports, the clock, the registers and the totals. -/
theorem SerialStill.of_same {s t : State} (hserial : t.serial = s.serial) (htime : t.time = s.time) (hregs : t.regs = s.regs)
    (htotals : t.totals = s.totals) : SerialStill s t :=
  ⟨hserial, htime, fun off _ => reg_of_regs hregs off, fun off lo _ _ => congrArg (sget 0 · (32 * off + lo)) htotals⟩

theorem SerialStill.ite {c : Prop} [Decidable c] {s t u : State} (ht : SerialStill s t) (hu : SerialStill s u) :
    SerialStill s (if c then t else u) := by
  split
  · exact ht
  · exact hu

/-! ## Registers, counters and detectors -/

theorem serialStill_setReg (s : State) {off : Nat} (h : ¬SerialWord off) (v : Word) : SerialStill s (setReg s off v) :=
  ⟨rfl, rfl, fun o ho => (reg_setReg s off o v).trans (if_neg fun e : o = off => h (e ▸ ho)), fun _ _ _ _ => rfl⟩

theorem serialStill_count (s : State) {off lo : Nat} (h : ¬SerialWord off) (hlo : lo < 32) (hi n : Nat) :
    SerialStill s (count s off hi lo n) := by
  refine ⟨rfl, rfl, fun o ho => reg_count_other fun e => h (e ▸ ho), fun o l ho hl => total_count_other s hi n fun e => ?_⟩
  have hoff : o = off := by omega
  exact h (hoff ▸ ho)

theorem fire_serial (s : State) (d unit d2 d3 : Nat) (inj : Bool) (l : Option Nat) : (fire s d unit d2 d3 inj l).serial = s.serial := by
  obtain ⟨r, rg, o, q, f, m, n, h⟩ := fireAt_frame s d unit d2 d3 inj l (now s)
  rw [fire, h]

/-- Of the registers outside the rings, a firing within a limit period or not changes the detector's count alone. -/
theorem reg_fire_limited {s : State} {d off : Nat} (unit d2 d3 : Nat) (inj : Bool) (l : Option Nat) (hring : ¬ringReg off)
    (hoff : off ≠ Reg.detCount d) : reg (fire s d unit d2 d3 inj l) off = reg s off := by
  rw [(fire_totals_regs s d unit d2 d3 inj l).2 off hring]
  exact (reg_setReg s _ off _).trans (if_neg hoff)

theorem serialStill_fire (s : State) {d : Nat} (h : d < 0x10 ∨ 0x15 < d) (unit d2 d3 : Nat) (inj : Bool) (l : Option Nat) :
    SerialStill s (fire s d unit d2 d3 inj l) := by
  have hd := not_serialWord_detCount h
  refine ⟨fire_serial s d unit d2 d3 inj l, fire_time s d unit d2 d3 inj l, fun o ho => ?_, fun o lo ho hlo => ?_⟩
  · exact reg_fire_limited unit d2 d3 inj l ho.not_ringReg fun e => hd (e ▸ ho)
  · refine total_fire_other s unit d2 d3 inj l fun e => ?_
    have hoff : o = Reg.detCount d := by omega
    exact hd (hoff ▸ ho)

theorem serialStill_setArm (s : State) (a : Nat) (v : Option Arm) : SerialStill s (setArm s a v) := .of_same rfl rfl rfl rfl

theorem not_serialWord_injStatus : ¬SerialWord Reg.injStatus := by
  unfold SerialWord
  decide

theorem serialStill_injected (s : State) (det : Nat) (units : List Nat) : SerialStill s (injected s det units).1 := by
  have hcount := serialStill_count s not_serialWord_injStatus (lo := 16) (by decide) 31 1
  unfold injected
  split
  · exact .refl s
  · split
    · split
      · exact serialStill_setArm s _ _
      · dsimp only
        split
        · exact hcount.trans (serialStill_setArm _ _ _)
        · split
          · exact hcount.trans (serialStill_setArm _ _ _)
          · exact hcount
    · exact .refl s

/-! ## The checked memories -/

theorem serialStill_setMem (s : State) (m : Mem) (v : SMap MemWord) : SerialStill s (setMem s m v) :=
  .of_same (setMem_serial s m v) (setMem_time s m v) (setMem_regs s m v) (setMem_totals s m v)

theorem serialStill_memPut (s : State) (m : Mem) (a : Nat) (w : Word) : SerialStill s (memPut s m a w) := serialStill_setMem s m _

theorem serialStill_memPuts (s : State) (m : Mem) (a : Nat) (ws : List Word) : SerialStill s (memPuts s m a ws) := by
  induction ws generalizing s a with
  | nil => exact .refl s
  | cons w ws ih => exact (serialStill_memPut s m a w).trans (ih _ _)

theorem serialStill_freeCount (s : State) (n : Nat) : SerialStill s { s with freeCount := n } := .of_same rfl rfl rfl rfl

theorem serialStill_memFreeWords (s : State) (m : Mem) (a n : Nat) : SerialStill s (memFreeWords s m a n) := by
  induction n generalizing s a with
  | zero => exact .refl s
  | succ n ih => exact ((serialStill_freeCount s _).trans (serialStill_memPut _ m a _)).trans (ih _ _)

theorem serialStill_memRead (s : State) (m : Mem) (a : Nat) (readers : List Nat) : SerialStill s (memRead s m a readers).s := by
  rw [memRead_frame]
  exact serialStill_injected s _ _

theorem serialStill_memReport (s : State) (m : Mem) (a outcome reader index : Nat) (inj : Bool) :
    SerialStill s (memReport s m a outcome reader index inj) :=
  serialStill_fire s (.inl (by cases m <;> decide)) _ _ _ inj none

/-! ## The talker table (R158 to R160, R337) -/

theorem serialStill_setTalkW (s : State) (i w : Nat) (v : Word) : SerialStill s (setTalkW s i w v) := serialStill_memPut s _ _ v

theorem serialStill_hear (s : State) (i : Nat) : SerialStill s (hear s i) := by
  unfold hear
  extract_lets t
  have ht : SerialStill s t := (serialStill_setTalkW s i 11 _).trans (serialStill_setTalkW _ i 12 _)
  exact ht.trans (.of_same rfl rfl rfl rfl)

theorem serialStill_talkerRepair (s : State) (i w reader : Nat) (inj : Bool) : SerialStill s (talkerRepair s i w reader inj) := by
  unfold talkerRepair
  split
  · exact (serialStill_setTalkW s i 3 _).trans (serialStill_memReport _ _ _ _ _ _ _)
  · split
    · exact (serialStill_setTalkW s i 8 _).trans (serialStill_memReport _ _ _ _ _ _ _)
    · split
      · exact ((serialStill_setTalkW s i 9 _).trans (serialStill_setTalkW _ i 10 _)).trans (serialStill_memReport _ _ _ _ _ _ _)
      · exact ((((serialStill_setTalkW s i 13 _).trans (serialStill_setTalkW _ i 14 _)).trans (serialStill_setTalkW _ i 15 _)).trans
          (serialStill_hear _ i)).trans (serialStill_memReport _ _ _ _ _ _ _)

theorem serialStill_talkerRead (s : State) (i reader : Nat) (readers ws : List Nat) :
    SerialStill s (talkerRead s i reader readers ws).1 := by
  induction ws generalizing s with
  | nil => exact .refl s
  | cons w ws ih =>
    have hread := serialStill_memRead s .talkers (16 * i + w) readers
    exact (SerialStill.ite (hread.trans (serialStill_talkerRepair _ i w reader _)) hread).trans (ih _)

theorem serialStill_talkersRead (s : State) (ws : List Nat) (reader : Nat) (is : List Nat) :
    SerialStill s (talkersRead s ws reader is).1 := by
  induction is generalizing s with
  | nil => exact .refl s
  | cons i is ih => exact (serialStill_talkerRead s i reader [] ws).trans (ih _)

theorem serialStill_fillBuckets (s : State) (i : Nat) : SerialStill s (fillBuckets s i) :=
  (serialStill_setTalkW s i 9 _).trans (serialStill_setTalkW _ i 10 _)

theorem serialStill_learnInto (s : State) (i key : Nat) : SerialStill s (learnInto s i key) := by
  unfold learnInto
  extract_lets c x y z w
  have hx : SerialStill s x := ((serialStill_setTalkW s i 0 _).trans (serialStill_setTalkW _ i 1 _)).trans (serialStill_setTalkW _ i 2 _)
  have hy : SerialStill x y := serialStill_setTalkW x i 3 _
  have hz : SerialStill y z := (serialStill_setTalkW y i 4 _).trans (serialStill_setTalkW _ i 5 _)
  have hw : SerialStill z w := (serialStill_setTalkW z i 6 _).trans (serialStill_setTalkW _ i 7 _)
  have hfill : SerialStill w (setTalkW (setTalkW (fillBuckets w i) i 13 0) i 14 0) :=
    ((serialStill_fillBuckets w i).trans (serialStill_setTalkW _ i 13 0)).trans (serialStill_setTalkW _ i 14 0)
  exact ((((hx.trans hy).trans hz).trans hw).trans hfill).trans (serialStill_hear _ i)

/-- A counter of the talker table counts. -/
theorem serialStill_count_ttEvents (s : State) {lo : Nat} (hlo : lo < 32) (hi : Nat) :
    SerialStill s (count s Reg.ttEvents hi lo 1) :=
  serialStill_count s (by unfold SerialWord; decide) hlo hi 1

theorem serialStill_learnTalker (s : State) (key : Nat) : SerialStill s (learnTalker s key).1 := by
  have hlearn : ∀ x i, SerialStill x (count (learnInto x i key) Reg.ttEvents 31 16 1) := fun x i =>
    (serialStill_learnInto x i key).trans (serialStill_count_ttEvents _ (by decide) 31)
  unfold learnTalker
  split
  · exact .refl s
  · split
    · exact hlearn s _
    · have hread := serialStill_talkersRead s [3, 8] readerHerder (validTalkers s)
      dsimp only
      split
      · exact hread.trans (hlearn _ _)
      · split
        · exact hread.trans (((serialStill_learnInto _ _ key).trans (serialStill_count_ttEvents _ (by decide) 15)).trans
            (serialStill_count_ttEvents _ (by decide) 31))
        · exact hread

theorem serialStill_findTalker (s : State) (key : Nat) : SerialStill s (findTalker s key).1 := by
  have hread := serialStill_talkersRead s [0, 1, 2] readerHerder (validTalkers s)
  unfold findTalker
  dsimp only
  split
  · exact hread.trans (serialStill_learnTalker _ key)
  · rename_i i _
    have hentry := hread.trans (serialStill_talkerRead _ i readerHerder [] [3, 4, 5, 6, 7, 8, 9, 10])
    split
    · exact hentry.trans (serialStill_hear _ _)
    · exact hentry.trans (serialStill_learnTalker _ key)

/-! ## Refusal and staging (R154, R165, R332) -/

theorem serialStill_countRefusal (s : State) (reason : Nat) : SerialStill s (countRefusal s reason) := by
  have hcount : ∀ off, off = Reg.admitRefuseA ∨ off = Reg.admitRefuseB ∨ off = Reg.admitRefuseC ∨ off = Reg.admitRefuseD →
      ∀ hi lo, lo < 32 → SerialStill s (count s off hi lo 1) := fun off hoff hi lo hlo =>
    serialStill_count s (by unfold SerialWord; rcases hoff with rfl | rfl | rfl | rfl <;> decide) hlo hi 1
  unfold countRefusal
  refine .ite (hcount _ (by simp) _ _ (by decide)) <| .ite (hcount _ (by simp) _ _ (by decide)) <|
    .ite (hcount _ (by simp) _ _ (by decide)) <| .ite (hcount _ (by simp) _ _ (by decide)) <|
    .ite (hcount _ (by simp) _ _ (by decide)) <| .ite (hcount _ (by simp) _ _ (by decide)) <|
    .ite (hcount _ (by simp) _ _ (by decide)) (.refl s)

theorem serialStill_refuse (s : State) (src reason : Nat) (idx : Option Nat) (inj : Bool) :
    SerialStill s (refuse s src reason idx inj) := by
  have hcount := serialStill_countRefusal s reason
  unfold refuse
  cases idx with
  | none => exact hcount.trans (serialStill_fire _ (.inr (by decide)) _ _ _ _ _)
  | some i => exact (hcount.trans (serialStill_setTalkW _ i 14 _)).trans (serialStill_fire _ (.inr (by decide)) _ _ _ _ _)

theorem serialStill_stageRecord (s : State) (a : Arrived) : SerialStill s (stageRecord s a) := by
  unfold stageRecord
  split
  · exact .refl s
  · exact (serialStill_freeCount s _).trans (serialStill_memPuts _ _ _ _)

theorem serialStill_stageRead (s : State) (src a n : Nat) : SerialStill s (stageRead s src a n).1 := by
  induction n generalizing s a with
  | zero => exact .refl s
  | succ n ih =>
    have hread := serialStill_memRead s .kennel a [src]
    have hrest := hread.trans (ih (memRead s .kennel a [src]).s (a + 1))
    unfold stageRead
    extract_lets r
    split
    · refine (hread.trans (serialStill_memReport _ _ _ _ _ _ _)).trans (serialStill_count _ ?_ (by decide) 15 1)
      unfold SerialWord
      decide
    · split
      · rename_i h
        rw [h] at hrest
        exact hrest
      · rename_i h
        rw [h] at hrest
        exact hrest

theorem serialStill_stageWords (s : State) (a : Arrived) : SerialStill s (stageWords s a).1 := by
  unfold stageWords
  split
  · exact .refl s
  · exact serialStill_stageRead s _ _ _

theorem serialStill_stagePut (s : State) (g : Nat) (old new : List Byte) : SerialStill s (stagePut s g old new) := by
  unfold stagePut
  extract_lets t
  have ht : SerialStill s t := .ite (serialStill_memFreeWords s _ _ _) (.refl s)
  exact ht.trans (serialStill_memPuts t _ _ _)

/-! ## The Leash (R143 to R145) -/

/-- From v to w only the Leash of a port and what follows it on the line moved: characters that wait, those counted since the last XOFF,
the rest of the item in progress, and the end of the last stop bit. -/
def LeashMoved (v w : SerialPort) : Prop :=
  ∃ n l a r f, w = { v with sinceXoff := n, leash := l, leashAt := a, run := r, freeAt := f }

theorem LeashMoved.refl (v : SerialPort) : LeashMoved v v := ⟨_, _, _, _, _, rfl⟩

theorem LeashMoved.trans {v w x : SerialPort} (h : LeashMoved v w) (k : LeashMoved w x) : LeashMoved v x := by
  obtain ⟨n, l, a, r, f, rfl⟩ := h
  obtain ⟨n', l', a', r', f', rfl⟩ := k
  exact ⟨n', l', a', r', f', rfl⟩

/-- What a move of the Leash leaves of a port: its receiver, its items in waiting, and the settings that wait. -/
theorem LeashMoved.receiver {v w : SerialPort} (h : LeashMoved v w) :
    w.text = v.text ∧ w.framer = v.framer ∧ w.fifo = v.fifo ∧ w.lastChar = v.lastChar ∧ w.setTx = v.setTx ∧ w.setRx = v.setRx := by
  obtain ⟨n, l, a, r, f, rfl⟩ := h
  exact ⟨rfl, rfl, rfl, rfl, rfl, rfl⟩

/-- From s to t the Leash of port p was served: it moved, and SP_STATUS.TX_XOFF shows the last character sent. -/
structure LeashServed (p : Nat) (s t : State) : Prop where
  port : LeashMoved (serial s p) (serial t p)
  others : ∀ q, q ≠ p → serial t q = serial s q
  time : t.time = s.time
  totals : t.totals = s.totals
  reg : ∀ off, off ≠ Reg.spStatus p → reg t off = reg s off
  status : ∀ i, i ≠ 12 → regB t (Reg.spStatus p) i = regB s (Reg.spStatus p) i

theorem LeashServed.refl (p : Nat) (s : State) : LeashServed p s s :=
  ⟨.refl _, fun _ _ => rfl, rfl, rfl, fun _ _ => rfl, fun _ _ => rfl⟩

theorem LeashServed.trans {p : Nat} {s t u : State} (h : LeashServed p s t) (k : LeashServed p t u) : LeashServed p s u :=
  ⟨h.port.trans k.port, fun q hq => (k.others q hq).trans (h.others q hq), k.time.trans h.time, k.totals.trans h.totals,
    fun off ho => (k.reg off ho).trans (h.reg off ho), fun i hi => (k.status i hi).trans (h.status i hi)⟩

/-- Port p takes its place again with its Leash moved. -/
theorem leashServed_setSerial {p : Nat} {s t : State} {v : SerialPort} (h : LeashServed p s t) (hv : LeashMoved (serial s p) v) :
    LeashServed p s (setSerial t p v) := by
  refine ⟨?_, fun q hq => ?_, h.time, h.totals, fun off ho => h.reg off ho, fun i hi => h.status i hi⟩
  · rw [serial_setSerial_same]
    exact hv
  · rw [serial_setSerial, if_neg hq]
    exact h.others q hq

theorem leashServed_leashDepart (s : State) (p : Nat) (xoff : Bool) (at_ : Int) : LeashServed p s (leashDepart s p xoff at_) := by
  unfold leashDepart
  extract_lets t behind v
  have hregs : ∀ off, reg t off = reg (setF s (Reg.spStatus p) 12 12 (b2n xoff)) off := fun _ => rfl
  have ht : LeashServed p s t :=
    ⟨.refl _, fun _ _ => rfl, rfl, rfl, fun off ho => (hregs off).trans (reg_setF_other ho),
      fun i hi => (regB_of_reg (hregs _) i).trans (regB_setF_outside (b2n xoff) (by decide) (by decide) (by omega))⟩
  have hv : LeashMoved (serial s p) v := ⟨_, _, _, _, _, rfl⟩
  clear_value v
  have hset : ∀ w, LeashMoved v w → LeashServed p s (setSerial t p w) := fun w hw => leashServed_setSerial ht (hv.trans hw)
  split
  · split
    · exact hset _ ⟨_, _, _, _, _, rfl⟩
    · split
      · exact hset _ ⟨_, _, _, _, _, rfl⟩
      · exact hset _ ⟨_, _, _, _, _, rfl⟩
  · exact hset _ ⟨_, _, _, _, _, rfl⟩

theorem leashServed_leashRun (s : State) (p : Nat) (l : List Bool) : LeashServed p s (leashRun s p l) := by
  have hset : ∀ l', LeashServed p s (setSerial s p { serial s p with leash := l' }) := fun l' =>
    leashServed_setSerial (.refl p s) ⟨_, _, _, _, _, rfl⟩
  induction l generalizing s with
  | nil => exact hset []
  | cons x xs ih =>
    unfold leashRun
    split
    · exact hset []
    · split
      · exact hset (x :: xs)
      · exact (leashServed_leashDepart s p x _).trans (ih _ fun l' => leashServed_setSerial (.refl p _) ⟨_, _, _, _, _, rfl⟩)

theorem leashServed_leashSend (s : State) (p : Nat) (xoff : Bool) : LeashServed p s (leashSend s p xoff) :=
  (leashServed_setSerial (.refl p s) ⟨_, _, _, _, _, rfl⟩).trans (leashServed_leashRun _ p _)

theorem leashServed_leashUpdate (s : State) (p : Nat) : LeashServed p s (leashUpdate s p) := by
  unfold leashUpdate
  split
  · exact .refl p s
  · extract_lets sent hi lo
    split
    · exact leashServed_leashSend s p true
    · split
      · exact leashServed_leashSend s p false
      · exact .refl p s

/-! ## Admission (R163) -/

/-- From s to t no port changed but for a Leash: neither the clock, nor a counter of the serial ports, nor a register of them but
SP_STATUS.TX_XOFF. -/
structure SerialKept (s t : State) : Prop where
  port : ∀ p, LeashMoved (serial s p) (serial t p)
  time : t.time = s.time
  reg : ∀ off, SerialWord off → (∀ p, p < 128 → off ≠ Reg.spStatus p) → reg t off = reg s off
  status : ∀ p i, p < 128 → i ≠ 12 → regB t (Reg.spStatus p) i = regB s (Reg.spStatus p) i
  total : ∀ off lo, SerialWord off → lo < 32 → total t off lo = total s off lo

theorem SerialKept.trans {s t u : State} (h : SerialKept s t) (k : SerialKept t u) : SerialKept s u :=
  ⟨fun p => (h.port p).trans (k.port p), k.time.trans h.time, fun off ho hp => (k.reg off ho hp).trans (h.reg off ho hp),
    fun p i hp hi => (k.status p i hp hi).trans (h.status p i hp hi),
    fun off lo ho hlo => (k.total off lo ho hlo).trans (h.total off lo ho hlo)⟩

theorem serialWord_spStatus {p : Nat} (h : p < 128) : SerialWord (Reg.spStatus p) := by
  unfold SerialWord Reg.spStatus
  omega

theorem serial_of_serial {s t : State} (h : t.serial = s.serial) (p : Nat) : serial t p = serial s p :=
  congrArg (sget SerialPort.init · p) h

theorem SerialStill.kept {s t : State} (h : SerialStill s t) : SerialKept s t :=
  ⟨fun p => serial_of_serial h.serial p ▸ .refl _, h.time, fun off ho _ => h.reg off ho,
    fun _ i hp _ => regB_of_reg (h.reg _ (serialWord_spStatus hp)) i, h.total⟩

theorem LeashServed.kept {p : Nat} (hp : p < 128) {s t : State} (h : LeashServed p s t) : SerialKept s t := by
  refine ⟨fun q => ?_, h.time, fun off _ hoff => h.reg off (hoff p hp), fun q i _ hi => ?_,
    fun off lo _ _ => congrArg (sget 0 · (32 * off + lo)) h.totals⟩
  · by_cases hq : q = p
    · exact hq ▸ h.port
    · exact h.others q hq ▸ .refl _
  · by_cases hq : q = p
    · exact hq ▸ h.status i hi
    · refine regB_of_reg (h.reg _ ?_) i
      unfold Reg.spStatus
      omega

theorem serialKept_leashTalker (s : State) (i : Nat) : SerialKept s (leashTalker s i) := by
  unfold leashTalker
  split
  · exact (leashServed_leashUpdate s _).kept (Nat.mod_lt _ (by decide))
  · exact (SerialStill.refl s).kept

theorem serialKept_commitRec (s : State) (a : Arrived) (i g : Nat) (inj : Bool) (ws : List Word) :
    SerialKept s (commitRec s a i g inj ws) := by
  unfold commitRec
  extract_lets n seq w0 head x y z u r v h v'
  have hx : SerialStill s x := serialStill_memPuts s _ _ _
  have hy : SerialStill x y := .ite (.refl x) (serialStill_setTalkW x i 9 _)
  have hz : SerialStill y z := serialStill_setTalkW y i 8 _
  have hu : SerialStill z u := (serialStill_setTalkW z i 15 _).trans (serialStill_setTalkW _ i 13 _)
  clear_value u
  have hv : SerialStill u (lowPeak v') := .of_same rfl rfl rfl rfl
  exact ((((hx.trans hy).trans hz).trans hu).trans hv).kept.trans (serialKept_leashTalker _ i)

/-- The admission of a record, or its refusal, keeps away from the serial ports but for a Leash. -/
theorem serialKept_admitRecord (s : State) (a : Arrived) : SerialKept s (admitRecord s a) := by
  have hfound : SerialStill s (findTalker (injected (stageRecord s a) 0x41 [a.src]).1 a.key).1 :=
    ((serialStill_stageRecord s a).trans (serialStill_injected _ _ _)).trans (serialStill_findTalker _ a.key)
  unfold admitRecord
  dsimp only
  generalize findTalker (injected (stageRecord s a) 0x41 [a.src]).1 a.key = found at hfound ⊢
  split
  · exact (hfound.trans (serialStill_refuse _ _ _ _ _)).kept
  · split
    · exact (hfound.trans (serialStill_refuse _ _ _ _ _)).kept
    · split
      · exact (hfound.trans (serialStill_refuse _ _ _ _ _)).kept
      · have hwords := hfound.trans (serialStill_stageWords found.1 a)
        split
        · rename_i h
          rw [h] at hwords
          exact hwords.kept
        · rename_i h
          rw [h] at hwords
          exact hwords.kept.trans (serialKept_commitRec _ a _ _ _ _)

end Sys2Proof.Machine
end

section
/-! # The start edge of a character (R82, R126, R127)

A conversion at the TDC of a serial port, and what it leaves of the port and of its registers and counters. -/

namespace Sys2Proof.Machine

/-! ## A conversion (R75, R82) -/

/-- From s to t no serial port changed, and the armed injections are the same. -/
structure ConvertKept (s t : State) : Prop where
  still : SerialStill s t
  arms : t.integ.arms = s.integ.arms

theorem ConvertKept.refl (s : State) : ConvertKept s s := ⟨.refl s, rfl⟩

theorem ConvertKept.trans {s t u : State} (h : ConvertKept s t) (k : ConvertKept t u) : ConvertKept s u :=
  ⟨h.still.trans k.still, k.arms.trans h.arms⟩

theorem convertKept_setReg (s : State) {off : Nat} (h : ¬SerialWord off) (v : Word) : ConvertKept s (setReg s off v) :=
  ⟨serialStill_setReg s h v, rfl⟩

theorem convertKept_setRegion (s : State) (g : Nat) (r : Region) : ConvertKept s (setRegion s g r) := ⟨.of_same rfl rfl rfl rfl, rfl⟩

theorem convertKept_commitNoted (s : State) (g : Nat) : ConvertKept s (commitNoted s g) := ⟨.of_same rfl rfl rfl rfl, rfl⟩

theorem convertKept_newInterval (s : State) (g : Nat) (keep : Bool) (m : CalMode) : ConvertKept s (newInterval s g keep m) :=
  convertKept_setRegion s g _

/-- A command that finishes keeps away from the serial ports. -/
theorem convertKept_finish (s : State) (k st r0 r1 : Nat) : ConvertKept s (finish s k st r0 r1) := by
  have hreg : ∀ off, SerialWord off → reg (finish s k st r0 r1) off = reg s off := fun off ho => reg_finish s k st r0 r1 ho.not_ringReg
  obtain ⟨r, g, o, fr, hd, h⟩ := finish_frame s k st r0 r1
  rw [h] at hreg ⊢
  exact ⟨⟨rfl, rfl, hreg, fun _ _ _ _ => rfl⟩, rfl⟩

theorem convertKept_fire (s : State) {d : Nat} (hd : d < 0x10 ∨ 0x15 < d) (unit d2 d3 : Nat) (inj : Bool) (l : Option Nat) :
    ConvertKept s (fire s d unit d2 d3 inj l) := by
  refine ⟨serialStill_fire s hd unit d2 d3 inj l, ?_⟩
  obtain ⟨r, rg, o, q, f, m, n, h⟩ := fireAt_frame s d unit d2 d3 inj l (now s)
  rw [fire, h]

theorem convertKept_calRunEnd (s : State) (g : Nat) : ConvertKept s (calRunEnd s g) := by
  unfold calRunEnd
  split
  · exact .refl s
  · extract_lets r t
    have ht : ConvertKept s t := convertKept_setRegion s g _
    split
    · exact ht
    · exact ht.trans (convertKept_finish t _ _ _ _)

/-- The registers that show a commit of one of the eight regions. -/
theorem not_serialWord_calCommit {g : Nat} (h : g < 8) :
    ¬SerialWord (Reg.calCommitSec g) ∧ ¬SerialWord (Reg.calCommitNs g) ∧ ¬SerialWord (Reg.calCond g) := by
  unfold SerialWord Reg.calCommitSec Reg.calCommitNs Reg.calCond Reg.detCount
  omega

theorem convertKept_commitTable (s : State) {g : Nat} (hg : g < 8) (t : TdcTable) (keep : Bool) :
    ConvertKept s (commitTable s g t keep) := by
  obtain ⟨hsec, hns, hcond⟩ := not_serialWord_calCommit hg
  have hwritten : ConvertKept s (commitWritten s g t) :=
    (((convertKept_setRegion s g _).trans (convertKept_setReg _ hsec _)).trans (convertKept_setReg _ hns _)).trans
      (convertKept_setReg _ hcond _)
  rw [commitTable_eq]
  exact ((hwritten.trans (convertKept_newInterval _ g keep _)).trans (convertKept_commitNoted _ g)).trans (convertKept_calRunEnd _ g)

theorem convertKept_tdcSwitch (s : State) {t : Nat} (ht : tdcRegion t < 8) : ConvertKept s (tdcSwitch s t) := by
  unfold tdcSwitch
  extract_lets g x
  have hx : ConvertKept s x := ⟨.of_same rfl rfl rfl rfl, rfl⟩
  split
  · split
    · exact hx
    · exact hx.trans (convertKept_commitTable x ht _ true)
  · exact hx

theorem convertKept_tdcPos (s : State) (t k : Nat) : ConvertKept s (tdcPos s t k).1 := by
  have hfallback : ∀ g, ConvertKept s (calFallback s g) := fun g => by
    obtain ⟨u, m, h⟩ := calFallback_eq s g
    have hx : ConvertKept s { s with tdcUse := u, regions := m } := ⟨.of_same rfl rfl rfl rfl, rfl⟩
    rw [h]
    exact hx.trans (convertKept_fire _ (.inr (by decide)) _ _ _ _ _)
  unfold tdcPos
  extract_lets g
  split
  · exact .refl s
  · extract_lets w
    split
    · exact .refl s
    · exact hfallback g

/-- A serial port's TDC lies in one of the eight regions. -/
theorem tdcRegion_serial {p : Nat} (h : p < 128) : tdcRegion p < 8 := by
  rw [tdcRegion, if_pos h]
  omega

/-- A conversion at a serial port's TDC. -/
theorem convertKept_convert (s : State) {p : Nat} (hp : p < 128) (k : Nat) : ConvertKept s (convert s p k).1 := by
  unfold convert
  extract_lets x
  have hx : ConvertKept s x := by
    unfold x
    split
    · exact convertKept_tdcSwitch s (tdcRegion_serial hp)
    · exact .refl s
  have hpos := hx.trans (convertKept_tdcPos x p k)
  clear_value x
  generalize tdcPos x p k = q at hpos
  obtain ⟨y, pos, epoch⟩ := q
  have hstirred := hpos.trans (convertKept_setRegion y (tdcRegion p)
    { region y (tdcRegion p) with stir := Config.diceStir (region y (tdcRegion p)).stir k y.time.tb })
  dsimp only
  split
  · exact hstirred
  · exact hstirred.trans (convertKept_setRegion _ _ _)

/-- An edge carries the epoch of the table that its position came from. -/
theorem convert_epoch {s : State} {t : Nat} (h : tdcOverdue s t = false) (k : Nat) : (convert s t k).2.epoch = (tdcPos s t k).2.2 := by
  unfold convert
  rw [h, if_neg Bool.false_ne_true]

/-! ## What a character leaves of its port's words -/

/-- From s to t the words of port p stay, but for the flags FE and PE of SP_STATUS, their detectors, and the upper counters of SP_RX_ERR and
SP_RX_DISCARD. -/
structure CharKept (p : Nat) (s t : State) : Prop where
  time : t.time = s.time
  arms : t.integ.arms = s.integ.arms
  reg : ∀ off, SerialWord off → off ≠ Reg.spStatus p → off ≠ Reg.spRxErr p → off ≠ Reg.spRxDiscard p → off ≠ Reg.detCount 0x10 →
    off ≠ Reg.detCount 0x11 → reg t off = reg s off
  status : ∀ i, i < 30 → regB t (Reg.spStatus p) i = regB s (Reg.spStatus p) i
  total : ∀ off lo, SerialWord off → lo < 8 → off ≠ Reg.detCount 0x10 → off ≠ Reg.detCount 0x11 → total t off lo = total s off lo

theorem CharKept.refl (p : Nat) (s : State) : CharKept p s s := ⟨rfl, rfl, fun _ _ _ _ _ _ _ => rfl, fun _ _ => rfl, fun _ _ _ _ _ _ => rfl⟩

theorem CharKept.trans {p : Nat} {s t u : State} (h : CharKept p s t) (k : CharKept p t u) : CharKept p s u :=
  ⟨k.time.trans h.time, k.arms.trans h.arms,
    fun off ho a b c d e => (k.reg off ho a b c d e).trans (h.reg off ho a b c d e), fun i hi => (k.status i hi).trans (h.status i hi),
    fun off lo ho hl a b => (k.total off lo ho hl a b).trans (h.total off lo ho hl a b)⟩

theorem ConvertKept.char {s t : State} (h : ConvertKept s t) {p : Nat} (hp : p < 128) : CharKept p s t :=
  ⟨h.still.time, h.arms, fun off ho _ _ _ _ _ => h.still.reg off ho,
    fun i _ => regB_of_reg (h.still.reg _ (serialWord_spStatus hp)) i, fun off lo ho hl _ _ => h.still.total off lo ho (by omega)⟩

theorem charKept_setSerial (p : Nat) (s : State) (q : Nat) (v : SerialPort) : CharKept p s (setSerial s q v) :=
  ⟨rfl, rfl, fun _ _ _ _ _ _ _ => rfl, fun _ _ => rfl, fun _ _ _ _ _ _ => rfl⟩

/-- From s to t the flags FE and PE of port p and the counts of their detectors stay. -/
structure FlagsKept (p : Nat) (s t : State) : Prop where
  status : ∀ i, 30 ≤ i → regB t (Reg.spStatus p) i = regB s (Reg.spStatus p) i
  reg : ∀ d, d = 0x10 ∨ d = 0x11 → reg t (Reg.detCount d) = reg s (Reg.detCount d)
  total : ∀ d, d = 0x10 ∨ d = 0x11 → total t (Reg.detCount d) 0 = total s (Reg.detCount d) 0

theorem FlagsKept.refl (p : Nat) (s : State) : FlagsKept p s s := ⟨fun _ _ => rfl, fun _ _ => rfl, fun _ _ => rfl⟩

theorem FlagsKept.trans {p : Nat} {s t u : State} (h : FlagsKept p s t) (k : FlagsKept p t u) : FlagsKept p s u :=
  ⟨fun i hi => (k.status i hi).trans (h.status i hi), fun d hd => (k.reg d hd).trans (h.reg d hd),
    fun d hd => (k.total d hd).trans (h.total d hd)⟩

/-- A detector of the receivers that has fired before has still fired once. -/
theorem FlagsKept.firedOnce {p : Nat} {s t u : State} {d : Nat} (h : FlagsKept p t u) (hd : d = 0x10 ∨ d = 0x11) (hf : FiredOnce s t d) :
    FiredOnce s u d := by
  rw [FiredOnce, h.total d hd, h.reg d hd]
  exact hf

theorem serialWord_detCount {d : Nat} (h : 0x10 ≤ d ∧ d ≤ 0x15) : SerialWord (Reg.detCount d) := by
  unfold SerialWord Reg.detCount
  omega

theorem SerialKept.flags {s t : State} (h : SerialKept s t) {p : Nat} (hp : p < 128) : FlagsKept p s t := by
  have hword : ∀ d, d = 0x10 ∨ d = 0x11 → SerialWord (Reg.detCount d) := fun d hd => serialWord_detCount (by omega)
  refine ⟨fun i hi => h.status p i hp (by omega), fun d hd => h.reg _ (hword d hd) fun q hq => ?_,
    fun d hd => h.total _ 0 (hword d hd) (by decide)⟩
  unfold Reg.detCount Reg.spStatus
  omega

theorem flagsKept_setSerial (p : Nat) (s : State) (q : Nat) (v : SerialPort) : FlagsKept p s (setSerial s q v) :=
  ⟨fun _ _ => rfl, fun _ _ => rfl, fun _ _ => rfl⟩

/-- A counter of a serial port counts. -/
theorem flagsKept_count {p : Nat} (s : State) {off lo : Nat} (hoff : 0x10000 ≤ off ∧ off < 0x30000) (hne : off ≠ Reg.spStatus p)
    (hlo : lo < 32) (hi n : Nat) : FlagsKept p s (count s off hi lo n) := by
  refine ⟨fun i _ => regB_of_reg (reg_count_other hne.symm) i, fun d hd => reg_count_other ?_, fun d hd => total_count_other s hi n ?_⟩
  · unfold Reg.detCount
    omega
  · unfold Reg.detCount
    omega

/-- Another detector fires. -/
theorem flagsKept_fire {p : Nat} (hp : p < 128) (s : State) {d : Nat} (hd : 0x12 ≤ d) (unit d2 d3 : Nat) (inj : Bool) (l : Option Nat) :
    FlagsKept p s (fire s d unit d2 d3 inj l) := by
  refine ⟨fun i _ => regB_of_reg (reg_fire_limited unit d2 d3 inj l (serialWord_spStatus hp).not_ringReg ?_) i,
    fun e he => reg_fire_limited unit d2 d3 inj l (not_ringReg_detCount e) ?_, fun e he => total_fire_other s unit d2 d3 inj l ?_⟩
  · unfold Reg.spStatus Reg.detCount
    omega
  · unfold Reg.detCount
    omega
  · unfold Reg.detCount
    omega

end Sys2Proof.Machine
end

section
/-! # Characters, sentences and raw records (R126, R132, R133, R136 to R139) -/

namespace Sys2Proof.Machine

/-! ## The dispatch -/

theorem exec_serialCharacter (p : Fin 128) (ch : Byte) (pBit low : Bool) (taps : Fin 256) (s : State) :
    exec (.serialCharacter p ch pBit low taps) s = execSerialCharacter p ch pBit low taps s := rfl

theorem exec_serialFalseStart (p : Fin 128) (taps : Fin 256) (s : State) :
    exec (.serialFalseStart p taps) s = execSerialFalseStart p taps s := rfl

theorem exec_rawGapClose (p : Fin 128) (s : State) : exec (.rawGapClose p) s = execRawGapClose p s := rfl

/-! ## Discards and the start edge (R82, R127, R137) -/

/-- The port after a discard of what its framer holds. -/
theorem serial_framerDiscard (s : State) (p : Nat) :
    serial (framerDiscard s p) p = if (serial s p).text = [] then serial s p else framerClear (serial s p) := by
  have hclear : serial (count (setSerial s p (framerClear (serial s p))) (Reg.spRxDiscard p) 31 16 1) p = framerClear (serial s p) :=
    serial_setSerial_same s p _
  unfold framerDiscard
  extract_lets v
  by_cases htext : (serial s p).text = []
  · rw [if_pos htext, if_pos (by simp [v, htext])]
  · rw [if_neg htext, if_neg (by simp [v, htext]), hclear]

theorem charKept_framerDiscard (s : State) (p : Nat) : CharKept p s (framerDiscard s p) := by
  unfold framerDiscard
  extract_lets v
  split
  · exact .refl p s
  · refine (charKept_setSerial p s p _).trans ⟨rfl, rfl, fun off _ _ _ hd _ _ => reg_count_other hd, fun i _ => ?_, fun off lo _ hlo _ _ => ?_⟩
    · refine regB_of_reg (reg_count_other ?_) i
      unfold Reg.spStatus Reg.spRxDiscard
      omega
    · exact total_count_other _ _ _ (by omega)

theorem flagsKept_framerDiscard (s : State) {p : Nat} (hp : p < 128) : FlagsKept p s (framerDiscard s p) := by
  unfold framerDiscard
  extract_lets v
  split
  · exact .refl p s
  · refine (flagsKept_setSerial p s p _).trans (flagsKept_count _ ?_ ?_ (by decide) 31 1)
    · unfold Reg.spRxDiscard
      omega
    · unfold Reg.spRxDiscard Reg.spStatus
      omega

/-- What a start edge leaves of a port: the FIFO, and a framer that hunts; where it ends no partial sentence, all of it. -/
structure EdgeTaken (p : Nat) (s t : State) : Prop where
  char : CharKept p s t
  flags : FlagsKept p s t
  fifo : (serial t p).fifo = (serial s p).fifo
  hunt : (serial s p).framer = .hunt → (serial t p).framer = .hunt

theorem EdgeTaken.trans {p : Nat} {s t u : State} (h : EdgeTaken p s t) (k : EdgeTaken p t u) : EdgeTaken p s u :=
  ⟨h.char.trans k.char, h.flags.trans k.flags, k.fifo.trans h.fifo, fun hs => k.hunt (h.hunt hs)⟩

theorem EdgeTaken.refl (p : Nat) (s : State) : EdgeTaken p s s := ⟨.refl p s, .refl p s, rfl, id⟩

theorem edgeTaken_framerDiscard (s : State) {p : Nat} (hp : p < 128) : EdgeTaken p s (framerDiscard s p) := by
  refine ⟨charKept_framerDiscard s p, flagsKept_framerDiscard s hp, ?_, fun h => ?_⟩
  · rw [serial_framerDiscard]
    split <;> rfl
  · rw [serial_framerDiscard]
    split
    · exact h
    · rfl

theorem edgeTaken_convert (s : State) {p : Nat} (hp : p < 128) (k : Nat) : EdgeTaken p s (convert s p k).1 := by
  have hkept := convertKept_convert s hp k
  have hport := serial_of_serial hkept.still.serial p
  exact ⟨hkept.char hp, hkept.still.kept.flags hp, by rw [hport], fun h => by rw [hport]; exact h⟩

theorem edgeTaken_serialEdge (s : State) {p : Nat} (hp : p < 128) (k : Nat) : EdgeTaken p s (serialEdge s p k).1 := by
  have hforced : EdgeTaken p s (if tdcOverdue s p && spMode s p != 2 then framerDiscard s p else s) := by
    split
    · exact edgeTaken_framerDiscard s hp
    · exact .refl p s
  unfold serialEdge
  generalize (if tdcOverdue s p && spMode s p != 2 then framerDiscard s p else s) = x at hforced
  have hconverted := hforced.trans (edgeTaken_convert x hp k)
  dsimp only
  split
  · exact hconverted.trans (edgeTaken_framerDiscard _ hp)
  · exact hconverted

/-- Where no switch is overdue and the epoch is that of the text, an edge leaves the port as it is. -/
theorem serial_serialEdge_same {s : State} {p : Nat} (hp : p < 128) {k : Nat} (hover : tdcOverdue s p = false)
    (hepoch : (serial s p).first.any (fun f => f.epoch != (tdcPos s p k).2.2) = false) :
    serial (serialEdge s p k).1 p = serial s p := by
  have hport := serial_of_serial (convertKept_convert s hp k).still.serial p
  have hsame : serialEdge s p k = ((convert s p k).1, (convert s p k).2) := by
    unfold serialEdge
    simp only [hover, Bool.false_and, Bool.false_eq_true, if_false, hport, convert_epoch hover k, hepoch]
  rw [hsame]
  exact hport

/-- A receiver that has taken a start edge: it waits for no idle line, and the line is busy for a character. -/
def charBegun (s : State) (p k : Nat) : State :=
  let t := (serialEdge s p k).1
  lineBusy (setSerial t p { serial t p with needIdle := false }) p (charsTicks t p 1)

theorem serial_charBegun (s : State) (p k : Nat) :
    ∃ i, serial (charBegun s p k) p = { serial (serialEdge s p k).1 p with needIdle := false, idleTb := i } := by
  unfold charBegun lineBusy
  rw [serial_setSerial_same, serial_setSerial_same]
  exact ⟨_, rfl⟩

theorem edgeTaken_charBegun (s : State) {p : Nat} (hp : p < 128) (k : Nat) : EdgeTaken p s (charBegun s p k) := by
  obtain ⟨i, hport⟩ := serial_charBegun s p k
  have hedge := edgeTaken_serialEdge s hp k
  refine ⟨hedge.char.trans ((charKept_setSerial p _ p _).trans (charKept_setSerial p _ p _)),
    hedge.flags.trans ((flagsKept_setSerial p _ p _).trans (flagsKept_setSerial p _ p _)), ?_, fun h => ?_⟩
  · rw [hport]
    exact hedge.fifo
  · rw [hport]
    exact hedge.hunt h

/-! ## Errors (R132, R133) -/

/-- An error of a character shows in its flag of SP_STATUS, is counted in SP_RX_ERR, and its detector fires. -/
def errorCounted (s : State) (p b d hi lo : Nat) : State :=
  fire (count (spFlag s p b) (Reg.spRxErr p) hi lo 1) d (unitSerial p) 0 0 false (some (limitKey d (unitSerial p) 0))

section Error
variable {s : State} {p b d hi lo : Nat}

theorem serial_errorCounted : ∃ a, serial (errorCounted s p b d hi lo) p = { serial s p with armed := a } := by
  have hport : serial (errorCounted s p b d hi lo) p = serial (spFlag s p b) p := serial_of_serial (fire_serial _ _ _ _ _ _ _) p
  exact ⟨_, hport.trans (serial_setSerial_same s p _)⟩

theorem regB_errorCounted (hp : p < 128) (hb : b < 32) (hd : 0x10 ≤ d ∧ d ≤ 0x15) (i : Nat) :
    regB (errorCounted s p b d hi lo) (Reg.spStatus p) i = if i = b then true else regB s (Reg.spStatus p) i := by
  have hfired : reg (errorCounted s p b d hi lo) (Reg.spStatus p) = reg (spFlag s p b) (Reg.spStatus p) := by
    refine (reg_fire_limited _ _ _ _ _ (serialWord_spStatus hp).not_ringReg ?_).trans (reg_count_other ?_)
    · unfold Reg.spStatus Reg.detCount
      omega
    · unfold Reg.spStatus Reg.spRxErr
      omega
  rw [regB_of_reg hfired, spFlag, regB_setF (le_refl b) hb]
  by_cases hi : i = b
  · rw [if_pos hi, if_pos (by omega), hi, Nat.sub_self]
    rfl
  · rw [if_neg hi, if_neg (by omega)]
    rfl

theorem reg_errorCounted {off : Nat} (ho : SerialWord off) (hstatus : off ≠ Reg.spStatus p) (herr : off ≠ Reg.spRxErr p)
    (hdet : off ≠ Reg.detCount d) : reg (errorCounted s p b d hi lo) off = reg s off := by
  rw [errorCounted, reg_fire_limited _ _ _ _ _ ho.not_ringReg hdet, reg_count_other herr, spFlag, reg_setF_other hstatus]
  rfl

theorem total_errorCounted (hlo : lo < 32) {off l : Nat} (hl : l < 32) (hne : off ≠ Reg.spRxErr p ∨ l ≠ lo)
    (hdet : off ≠ Reg.detCount d) : total (errorCounted s p b d hi lo) off l = total s off l := by
  rw [errorCounted, total_fire_other _ _ _ _ _ _ (by omega), total_count_other _ _ _ (by omega), spFlag, total_setF]
  rfl

/-- A detector of the serial ports counts apart from their registers. -/
theorem detCount_apart (hp : p < 128) (hd : 0x10 ≤ d ∧ d ≤ 0x15) :
    Reg.detCount d ≠ Reg.spStatus p ∧ Reg.detCount d ≠ Reg.spRxErr p := by
  unfold Reg.detCount Reg.spStatus Reg.spRxErr
  omega

theorem firedOnce_errorCounted (hp : p < 128) (hlo : lo < 32) (hd : 0x10 ≤ d ∧ d ≤ 0x15) :
    FiredOnce s (errorCounted s p b d hi lo) d := by
  obtain ⟨hstatus, herr⟩ := detCount_apart hp hd
  have htot : total (count (spFlag s p b) (Reg.spRxErr p) hi lo 1) (Reg.detCount d) 0 = total s (Reg.detCount d) 0 := by
    rw [total_count_other _ _ _ (by omega), spFlag, total_setF]
    rfl
  have hreg : reg (count (spFlag s p b) (Reg.spRxErr p) hi lo 1) (Reg.detCount d) = reg s (Reg.detCount d) := by
    rw [reg_count_other herr, spFlag, reg_setF_other hstatus]
    rfl
  exact firedOnce_from htot hreg (firedOnce_fire_limited _ d _ _ _ _ _)

/-- What another detector of the serial ports shows. -/
theorem errorCounted_other (hp : p < 128) (hlo : lo < 32) {e : Nat} (he : 0x10 ≤ e ∧ e ≤ 0x15) (hne : e ≠ d) :
    reg (errorCounted s p b d hi lo) (Reg.detCount e) = reg s (Reg.detCount e)
      ∧ total (errorCounted s p b d hi lo) (Reg.detCount e) 0 = total s (Reg.detCount e) 0 := by
  obtain ⟨hstatus, herr⟩ := detCount_apart hp he
  have hdet : Reg.detCount e ≠ Reg.detCount d := by
    unfold Reg.detCount
    omega
  exact ⟨reg_errorCounted (serialWord_detCount he) hstatus herr hdet, total_errorCounted hlo (by decide) (.inl herr) hdet⟩

end Error

theorem errorCounted_time (s : State) (p b d hi lo : Nat) : (errorCounted s p b d hi lo).time = s.time := fire_time _ _ _ _ _ _ _

theorem errorCounted_arms (s : State) (p b d hi lo : Nat) : (errorCounted s p b d hi lo).integ.arms = s.integ.arms := by
  obtain ⟨r, rg, o, q, f, m, n, h⟩ := fireAt_frame (count (spFlag s p b) (Reg.spRxErr p) hi lo 1) d (unitSerial p) 0 0 false
    (some (limitKey d (unitSerial p) 0)) (now (count (spFlag s p b) (Reg.spRxErr p) hi lo 1))
  rw [errorCounted, fire, h]
  rfl

/-- FE and PE, and their counts, are the errors that a character's own words take. -/
theorem charKept_errorCounted (s : State) {p b d hi lo : Nat} (hp : p < 128) (hb : 30 ≤ b ∧ b < 32) (hlo : 8 ≤ lo ∧ lo < 32)
    (hd : d = 0x10 ∨ d = 0x11) : CharKept p s (errorCounted s p b d hi lo) := by
  have hd' : 0x10 ≤ d ∧ d ≤ 0x15 := by omega
  refine ⟨errorCounted_time s p b d hi lo, errorCounted_arms s p b d hi lo, fun off ho hs he _ h10 h11 => ?_, fun i hi => ?_,
    fun off l ho hl h10 h11 => ?_⟩
  · refine reg_errorCounted ho hs he ?_
    rcases hd with rfl | rfl
    · exact h10
    · exact h11
  · rw [regB_errorCounted hp hb.2 hd', if_neg (by omega)]
  · refine total_errorCounted hlo.2 (by omega) (.inr (by omega)) ?_
    rcases hd with rfl | rfl
    · exact h10
    · exact h11

/-- An error that a character may have. -/
def errorIf (c : Bool) (s : State) (p b d hi lo : Nat) : State := if c then errorCounted s p b d hi lo else s

theorem charKept_errorIf (c : Bool) (s : State) {p b d hi lo : Nat} (hp : p < 128) (hb : 30 ≤ b ∧ b < 32) (hlo : 8 ≤ lo ∧ lo < 32)
    (hd : d = 0x10 ∨ d = 0x11) : CharKept p s (errorIf c s p b d hi lo) := by
  unfold errorIf
  split
  · exact charKept_errorCounted s hp hb hlo hd
  · exact .refl p s

theorem serial_errorIf (c : Bool) (s : State) (p b d hi lo : Nat) :
    ∃ a, serial (errorIf c s p b d hi lo) p = { serial s p with armed := a } := by
  unfold errorIf
  split
  · exact serial_errorCounted
  · exact ⟨_, rfl⟩

theorem errorIf_other (c : Bool) {s : State} {p b d hi lo : Nat} (hp : p < 128) (hlo : lo < 32) {e : Nat} (he : 0x10 ≤ e ∧ e ≤ 0x15)
    (hne : e ≠ d) :
    reg (errorIf c s p b d hi lo) (Reg.detCount e) = reg s (Reg.detCount e)
      ∧ total (errorIf c s p b d hi lo) (Reg.detCount e) 0 = total s (Reg.detCount e) 0 := by
  unfold errorIf
  split
  · exact errorCounted_other hp hlo he hne
  · exact ⟨rfl, rfl⟩

/-- A receiver after the errors of a character. -/
def charFlagged (s : State) (p : Nat) (fe pe : Bool) : State := errorIf pe (errorIf fe s p 31 0x10 31 24) p 30 0x11 23 16

theorem charKept_charFlagged (s : State) {p : Nat} (hp : p < 128) (fe pe : Bool) : CharKept p s (charFlagged s p fe pe) :=
  (charKept_errorIf fe s hp (by omega) (by omega) (.inl rfl)).trans (charKept_errorIf pe _ hp (by omega) (by omega) (.inr rfl))

theorem serial_charFlagged (s : State) (p : Nat) (fe pe : Bool) :
    ∃ a, serial (charFlagged s p fe pe) p = { serial s p with armed := a } := by
  obtain ⟨a, ha⟩ := serial_errorIf fe s p 31 0x10 31 24
  obtain ⟨b, hb⟩ := serial_errorIf pe (errorIf fe s p 31 0x10 31 24) p 30 0x11 23 16
  exact ⟨b, by rw [charFlagged, hb, ha]⟩

/-- A framing error is shown, and reported once. -/
theorem charFlagged_fe (s : State) {p : Nat} (hp : p < 128) (pe : Bool) :
    regB (charFlagged s p true pe) (Reg.spStatus p) 31 = true ∧ FiredOnce s (charFlagged s p true pe) 0x10 := by
  have hform : charFlagged s p true pe = errorIf pe (errorCounted s p 31 0x10 31 24) p 30 0x11 23 16 := by
    rw [charFlagged, errorIf.eq_1 true, if_pos rfl]
  have hshown : regB (errorCounted s p 31 0x10 31 24) (Reg.spStatus p) 31 = true := by
    rw [regB_errorCounted hp (by omega) (by omega), if_pos rfl]
  have hfired : FiredOnce s (errorCounted s p 31 0x10 31 24) 0x10 := firedOnce_errorCounted hp (by omega) (by omega)
  rw [hform]
  generalize errorCounted s p 31 0x10 31 24 = t at hshown hfired
  obtain ⟨hreg, htotal⟩ := errorIf_other pe (s := t) (b := 30) (d := 0x11) (hi := 23) (lo := 16) hp (by omega) (e := 0x10) (by omega)
    (by omega)
  refine ⟨?_, ?_⟩
  · unfold errorIf
    split
    · rw [regB_errorCounted hp (by omega) (by omega), if_neg (by omega), hshown]
    · exact hshown
  · rw [FiredOnce, hreg, htotal]
    exact hfired

/-- A parity error is shown, and reported once. -/
theorem charFlagged_pe (s : State) {p : Nat} (hp : p < 128) (fe : Bool) :
    regB (charFlagged s p fe true) (Reg.spStatus p) 30 = true ∧ FiredOnce s (charFlagged s p fe true) 0x11 := by
  have hform : charFlagged s p fe true = errorCounted (errorIf fe s p 31 0x10 31 24) p 30 0x11 23 16 := by
    rw [charFlagged, errorIf.eq_1 true, if_pos rfl]
  obtain ⟨hreg, htotal⟩ := errorIf_other fe (s := s) (b := 31) (d := 0x10) (hi := 31) (lo := 24) hp (by omega) (e := 0x11) (by omega)
    (by omega)
  rw [hform]
  generalize errorIf fe s p 31 0x10 31 24 = t at hreg htotal
  refine ⟨?_, firedOnce_from htotal hreg (firedOnce_errorCounted hp (by omega) (by omega))⟩
  rw [regB_errorCounted hp (by omega) (by omega), if_pos rfl]

/-! ## Records (R136, R138, R139) -/

theorem flagsKept_serialRecord (s : State) {p : Nat} (hp : p < 128) (a : Arrived) : FlagsKept p s (serialRecord s p a) := by
  refine (flagsKept_count s ?_ ?_ (by decide) 31 1).trans ((serialKept_admitRecord _ a).flags hp)
  · unfold Reg.spRxCount
    omega
  · unfold Reg.spRxCount Reg.spStatus
    omega

/-- A record that a port hands over is counted, whether it is admitted or not. -/
theorem total_serialRecord (s : State) {p : Nat} (hp : p < 128) (a : Arrived) :
    total (serialRecord s p a) (Reg.spRxCount p) 0 = (total s (Reg.spRxCount p) 0 + 1) % 2 ^ 32 := by
  have hword : SerialWord (Reg.spRxCount p) := by
    unfold SerialWord Reg.spRxCount
    omega
  exact ((serialKept_admitRecord _ a).total _ 0 hword (by decide)).trans (total_count s _ 31 0 1)

theorem serial_serialRecord (s : State) (p : Nat) (a : Arrived) : LeashMoved (serial s p) (serial (serialRecord s p a) p) :=
  (serialKept_admitRecord (count s (Reg.spRxCount p) 31 0 1) a).port p

/-- The sentence that the framer of a port holds has been rejected. -/
def sentenceRejected (s : State) (p : Nat) (inj : Bool) : State :=
  fire (count (setSerial s p (framerClear (serial s p))) (Reg.spRxErr p) 7 0 1) 0x15 (unitSerial p) 0 0 inj
    (some (limitKey 0x15 (unitSerial p) 0))

/-- The sentence that the framer of a port holds has become a record. -/
def sentenceTaken (s : State) (p r : Nat) : State :=
  let v := serial s p
  let j := judgeText v.text
  serialRecord (setSerial s p (framerClear v)) p
    (serialArrived s p 0 r (j.start * 65536 + j.star) (min 255 v.errs * 256 + j.tags) (sentenceKey p j.proper))

/-- The outcome of the policy SUM on a sentence. -/
def sentenceEnded (s : State) (p : Nat) (inj : Bool) : Option Nat → State
  | none => sentenceRejected s p inj
  | some r => sentenceTaken s p r

/-- A sentence ends by the policy SUM on its checksum, or by an injected occurrence (R138). -/
theorem sentenceClose_cases (s : State) (p : Nat) :
    ∃ x inj w, (x = s ∨ x = (injected s 0x15 [unitSerial p]).1) ∧ sentenceClose s p = sentenceEnded x p inj w := by
  have hport : serial (injected s 0x15 [unitSerial p]).1 p = serial s p :=
    serial_of_serial (serialStill_injected s 0x15 [unitSerial p]).serial p
  unfold sentenceClose
  extract_lets v j sum
  have hsplit : ∀ q : State × Bool, q = (if sum == 2 then (s, false) else injected s 0x15 [unitSerial p]) →
      q.1 = s ∨ q.1 = (injected s 0x15 [unitSerial p]).1 := fun q hq => by
    rw [hq]
    split
    · exact .inl rfl
    · exact .inr rfl
  generalize hq : (if sum == 2 then (s, false) else injected s 0x15 [unitSerial p]) = q at *
  obtain ⟨x, inj⟩ := q
  have hx := hsplit _ rfl
  have hv : serial x p = v := by
    rcases hx with rfl | rfl
    · rfl
    · exact hport
  refine ⟨x, inj, if inj then none else sumPolicy sum j.verdict, hx, ?_⟩
  dsimp only
  cases (if inj then none else sumPolicy sum j.verdict) with
  | none => simp only [sentenceEnded, sentenceRejected, hv]
  | some r => simp only [sentenceEnded, sentenceTaken, hv]; rfl

/-- With no injection armed, the policy decides. -/
theorem sentenceClose_eq {s : State} (harms : s.integ.arms = []) (p : Nat) :
    sentenceClose s p = sentenceEnded s p false (sumPolicy (regF s (Reg.spFramer p) 1 0) (judgeText (serial s p).text).verdict) := by
  unfold sentenceClose
  simp only [injected_none harms, ite_self, Bool.false_eq_true, if_false]
  cases sumPolicy (regF s (Reg.spFramer p) 1 0) (judgeText (serial s p).text).verdict with
  | none => rfl
  | some r => rfl

theorem flagsKept_sentenceEnded (s : State) {p : Nat} (hp : p < 128) (inj : Bool) (w : Option Nat) :
    FlagsKept p s (sentenceEnded s p inj w) := by
  have hclear := flagsKept_setSerial p s p (framerClear (serial s p))
  cases w with
  | none =>
    have hcount : ∀ x, FlagsKept p x (count x (Reg.spRxErr p) 7 0 1) := fun x => by
      refine flagsKept_count x ?_ ?_ (by decide) 7 1
      · unfold Reg.spRxErr
        omega
      · unfold Reg.spRxErr Reg.spStatus
        omega
    have hfire : ∀ x, FlagsKept p x (fire x 0x15 (unitSerial p) 0 0 inj (some (limitKey 0x15 (unitSerial p) 0))) := fun x =>
      flagsKept_fire hp x (by decide) _ _ _ _ _
    exact (hclear.trans (hcount _)).trans (hfire _)
  | some r => exact hclear.trans (flagsKept_serialRecord _ hp _)

theorem flagsKept_sentenceClose (s : State) {p : Nat} (hp : p < 128) : FlagsKept p s (sentenceClose s p) := by
  obtain ⟨x, inj, w, hx, h⟩ := sentenceClose_cases s p
  rw [h]
  rcases hx with rfl | rfl
  · exact flagsKept_sentenceEnded _ hp inj w
  · exact ((serialStill_injected s 0x15 [unitSerial p]).kept.flags hp).trans (flagsKept_sentenceEnded _ hp inj w)

/-- A sentence that is rejected is counted in SP_RX_ERR, and its detector reports it. -/
theorem sentenceRejected_counts (s : State) {p : Nat} (hp : p < 128) :
    total (sentenceRejected s p false) (Reg.spRxErr p) 0 = (total s (Reg.spRxErr p) 0 + 1) % 2 ^ 32
      ∧ FiredOnce s (sentenceRejected s p false) 0x15 := by
  obtain ⟨-, herr⟩ := detCount_apart (d := 0x15) hp (by omega)
  unfold sentenceRejected
  have hcleared : ∀ off lo, total (setSerial s p (framerClear (serial s p))) off lo = total s off lo := fun _ _ => rfl
  have hregs : ∀ off, reg (setSerial s p (framerClear (serial s p))) off = reg s off := fun _ => rfl
  generalize setSerial s p (framerClear (serial s p)) = x at hcleared hregs
  have htotal : total (count x (Reg.spRxErr p) 7 0 1) (Reg.detCount 0x15) 0 = total s (Reg.detCount 0x15) 0 := by
    rw [total_count_other x 7 1 (by omega), hcleared]
  have hreg : reg (count x (Reg.spRxErr p) 7 0 1) (Reg.detCount 0x15) = reg s (Reg.detCount 0x15) := by
    rw [reg_count_other herr, hregs]
  refine ⟨?_, firedOnce_from htotal hreg (firedOnce_fire_limited _ 0x15 _ _ _ _ _)⟩
  rw [total_fire_other _ _ _ _ _ _ (by omega), total_count, hcleared]

/-- Behind a sentence the framer holds nothing and hunts. -/
theorem serial_sentenceEnded (s : State) (p : Nat) (inj : Bool) (w : Option Nat) :
    (serial (sentenceEnded s p inj w) p).text = [] ∧ (serial (sentenceEnded s p inj w) p).framer = .hunt := by
  have hclear := serial_setSerial_same s p (framerClear (serial s p))
  cases w with
  | none =>
    have hport : serial (sentenceRejected s p inj) p = framerClear (serial s p) :=
      (serial_of_serial (fire_serial _ _ _ _ _ _ _) p).trans hclear
    rw [sentenceEnded, hport]
    exact ⟨rfl, rfl⟩
  | some r =>
    rw [sentenceEnded]
    unfold sentenceTaken
    dsimp only
    generalize setSerial s p (framerClear (serial s p)) = x at hclear ⊢
    obtain ⟨htext, hframer, -⟩ := (serial_serialRecord x p
      (serialArrived s p 0 r ((judgeText (serial s p).text).start * 65536 + (judgeText (serial s p).text).star)
        (min 255 (serial s p).errs * 256 + (judgeText (serial s p).text).tags) (sentenceKey p (judgeText (serial s p).text).proper))).receiver
    rw [htext, hframer, hclear]
    exact ⟨rfl, rfl⟩

/-- A sentence that is taken is counted among the records of its port. -/
theorem total_sentenceTaken (s : State) {p : Nat} (hp : p < 128) (r : Nat) :
    total (sentenceTaken s p r) (Reg.spRxCount p) 0 = (total s (Reg.spRxCount p) 0 + 1) % 2 ^ 32 := by
  unfold sentenceTaken
  dsimp only
  rw [total_serialRecord _ hp]
  rfl

/-- A raw record that holds characters is handed over. -/
theorem rawClose_spec {s : State} {p : Nat} (hp : p < 128) (htext : (serial s p).text ≠ []) (reason : Nat) :
    (serial (rawClose s p reason) p).text = []
      ∧ total (rawClose s p reason) (Reg.spRxCount p) 0 = (total s (Reg.spRxCount p) 0 + 1) % 2 ^ 32 := by
  unfold rawClose
  extract_lets v
  have hv : v.text.isEmpty = false := by simpa using htext
  rw [hv, if_neg Bool.false_ne_true]
  obtain ⟨htext', -⟩ := (serial_serialRecord (setSerial s p (framerClear v)) p (serialArrived s p 1 3 reason 0 (rawKey p))).receiver
  rw [serial_setSerial_same] at htext'
  exact ⟨htext', total_serialRecord _ hp _⟩

theorem flagsKept_rawClose (s : State) {p : Nat} (hp : p < 128) (reason : Nat) : FlagsKept p s (rawClose s p reason) := by
  unfold rawClose
  extract_lets v
  split
  · exact .refl p s
  · exact (flagsKept_setSerial p s p _).trans (flagsKept_serialRecord _ hp _)

/-! ## The text of a port (R135 to R139) -/

/-- A port after a character has joined its text. -/
theorem serial_textPut (s : State) (p : Nat) (c : RxChar) (f : Framer) : serial (textPut s p c f) p = textAdd (serial s p) c f :=
  serial_setSerial_same _ p _

theorem textPut_char (s : State) {p : Nat} (hp : p < 128) (c : RxChar) (f : Framer) : CharKept p s (textPut s p c f) := by
  have hmem : ∀ x m a ws, (memPuts x m a ws).integ = x.integ := fun x m a ws => by
    induction ws generalizing x a with
    | nil => rfl
    | cons w ws ih => exact (ih _ _).trans (setMem_integ x m _)
  have hfree : ∀ n x m a, (memFreeWords x m a n).integ = x.integ := fun n => by
    induction n with
    | zero => exact fun _ _ _ => rfl
    | succ n ih => exact fun x m a => (ih _ _ _).trans (setMem_integ _ m _)
  have hput : ConvertKept s (stagePut s (serialStage p) (serial s p).text ((serial s p).text ++ [c.ch])) := by
    refine ⟨serialStill_stagePut s _ _ _, ?_⟩
    unfold stagePut
    dsimp only
    rw [hmem]
    split
    · rw [hfree]
    · rfl
  exact (hput.char hp).trans (charKept_setSerial p _ p _)

theorem flagsKept_textPut (s : State) {p : Nat} (hp : p < 128) (c : RxChar) (f : Framer) : FlagsKept p s (textPut s p c f) :=
  ((serialStill_stagePut s _ _ _).kept.flags hp).trans (flagsKept_setSerial p _ p _)

theorem flagsKept_textOpen (s : State) {p : Nat} (hp : p < 128) (c : RxChar) : FlagsKept p s (textOpen s p c) :=
  (flagsKept_setSerial p s p _).trans (flagsKept_textPut _ hp c _)

theorem flagsKept_textStep (s : State) {p : Nat} (hp : p < 128) (c : RxChar) (f : Framer) : FlagsKept p s (textStep s p c f) := by
  have hput := flagsKept_textPut s hp c f
  unfold textStep
  extract_lets v t
  split
  · exact flagsKept_framerDiscard s hp
  · split
    · exact hput.trans (flagsKept_sentenceClose t hp)
    · exact hput

theorem flagsKept_framerChar (s : State) {p : Nat} (hp : p < 128) (c : RxChar) : FlagsKept p s (framerChar s p c) := by
  have hdiscard := flagsKept_framerDiscard s hp
  have hopen : FlagsKept p s (textOpen (framerDiscard s p) p c) := hdiscard.trans (flagsKept_textOpen _ hp c)
  have hstep := flagsKept_textStep s hp c
  unfold framerChar
  cases (serial s p).framer with
  | hunt =>
    dsimp only
    split
    · exact flagsKept_textOpen s hp c
    · exact .refl p s
  | tag =>
    dsimp only
    split
    · exact hstep .afterTag
    · split
      · exact hdiscard
      · split
        · exact hopen
        · exact hstep .tag
  | afterTag =>
    dsimp only
    split
    · exact hstep .sentence
    · split
      · exact hstep .tag
      · exact hdiscard
  | sentence =>
    dsimp only
    split
    · exact hopen
    · exact hstep .sentence

/-- A character lost to overrun is an error like the others; what the framer holds is gone. -/
theorem serialOverrun_eq (s : State) (p : Nat) :
    serialOverrun s p false = if spMode (errorCounted s p 29 0x12 15 8) p == 2 then
        setSerial (errorCounted s p 29 0x12 15 8) p { serial (errorCounted s p 29 0x12 15 8) p with
          inj := (serial (errorCounted s p 29 0x12 15 8) p).inj || (false && !(serial (errorCounted s p 29 0x12 15 8) p).text.isEmpty) }
      else framerDiscard (errorCounted s p 29 0x12 15 8) p := rfl

theorem flagsKept_serialOverrun (s : State) {p : Nat} (hp : p < 128) : FlagsKept p s (serialOverrun s p false) := by
  have hcounted : FlagsKept p s (errorCounted s p 29 0x12 15 8) := by
    have hother : ∀ e, e = 0x10 ∨ e = 0x11 → _ := fun e he =>
      errorCounted_other (s := s) (b := 29) (d := 0x12) (hi := 15) (lo := 8) hp (by omega) (e := e) (by omega) (by omega)
    refine ⟨fun i hi => ?_, fun e he => (hother e he).1, fun e he => (hother e he).2⟩
    rw [regB_errorCounted hp (by omega) (by omega), if_neg (by omega)]
  rw [serialOverrun_eq]
  split
  · exact hcounted.trans (flagsKept_setSerial p _ p _)
  · exact hcounted.trans (flagsKept_framerDiscard _ hp)

theorem flagsKept_serialPass (s : State) {p : Nat} (hp : p < 128) (c : RxChar) : FlagsKept p s (serialPass s p c) := by
  unfold serialPass
  split
  · split
    · have hput := flagsKept_textPut s hp c .hunt
      dsimp only
      split
      · exact hput.trans (flagsKept_rawClose _ hp 1)
      · exact hput
    · split
      · exact flagsKept_serialOverrun s hp
      · exact flagsKept_setSerial p s p _
  · exact (flagsKept_setSerial p s p _).trans (flagsKept_framerChar _ hp c)

end Sys2Proof.Machine
end

section
/-! # What a received character does (R126, R132, R135 to R138) -/

namespace Sys2Proof.Machine

/-! ## The settings of a receiver -/

/-- The settings of a port are the registers below SP_STATUS. -/
theorem setting_charKept {p : Nat} {s t : State} (hp : p < 128) (h : CharKept p s t) {off : Nat} (hlo : 0x10000 + 0x400 * p ≤ off)
    (hhi : off < 0x10040 + 0x400 * p) : reg t off = reg s off := by
  have hword : SerialWord off := by
    unfold SerialWord
    omega
  refine h.reg _ hword ?_ ?_ ?_ ?_ ?_
  · unfold Reg.spStatus; omega
  · unfold Reg.spRxErr; omega
  · unfold Reg.spRxDiscard; omega
  · unfold Reg.detCount; omega
  · unfold Reg.detCount; omega

/-- The settings that decide what becomes of a character, in the registers that hold them. -/
structure RxSettings (p : Nat) (s t : State) : Prop where
  ctrl : reg t (Reg.spCtrl p) = reg s (Reg.spCtrl p)
  format : reg t (Reg.spFormat p) = reg s (Reg.spFormat p)
  framer : reg t (Reg.spFramer p) = reg s (Reg.spFramer p)
  leash : reg t (Reg.spLeash p) = reg s (Reg.spLeash p)

theorem CharKept.settings {p : Nat} {s t : State} (h : CharKept p s t) (hp : p < 128) : RxSettings p s t := by
  refine ⟨setting_charKept hp h ?_ ?_, setting_charKept hp h ?_ ?_, setting_charKept hp h ?_ ?_, setting_charKept hp h ?_ ?_⟩ <;>
    simp only [Reg.spCtrl, Reg.spFormat, Reg.spFramer, Reg.spLeash] <;> omega

theorem RxSettings.mode {p : Nat} {s t : State} (h : RxSettings p s t) : spMode t p = spMode s p := regF_of_reg h.ctrl 30 29

theorem RxSettings.mask {p : Nat} {s t : State} (h : RxSettings p s t) (ch : Byte) : charMask t p ch = charMask s p ch := by
  rw [charMask, charMask, regF_of_reg h.format]

theorem RxSettings.obey {p : Nat} {s t : State} (h : RxSettings p s t) : leashObey t p = leashObey s p := by
  rw [leashObey, leashObey, h.mode, regB_of_reg h.leash]

theorem RxSettings.start {p : Nat} {s t : State} (h : RxSettings p s t) (ch : Byte) : startChar t p ch = startChar s p ch := by
  rw [startChar, startChar, tagEn, tagEn, regB_of_reg h.framer]

/-- The detectors beyond FE and PE. -/
theorem CharKept.detector {p : Nat} {s t : State} (h : CharKept p s t) (hp : p < 128) {d : Nat} (hd : 0x12 ≤ d ∧ d ≤ 0x15) :
    Machine.reg t (Reg.detCount d) = Machine.reg s (Reg.detCount d)
      ∧ Machine.total t (Reg.detCount d) 0 = Machine.total s (Reg.detCount d) 0 := by
  have hword : SerialWord (Reg.detCount d) := serialWord_detCount (by omega)
  obtain ⟨hstatus, herr, hdiscard, h10, h11⟩ : Reg.detCount d ≠ Reg.spStatus p ∧ Reg.detCount d ≠ Reg.spRxErr p
      ∧ Reg.detCount d ≠ Reg.spRxDiscard p ∧ Reg.detCount d ≠ Reg.detCount 0x10 ∧ Reg.detCount d ≠ Reg.detCount 0x11 := by
    unfold Reg.detCount Reg.spStatus Reg.spRxErr Reg.spRxDiscard
    omega
  exact ⟨h.reg _ hword hstatus herr hdiscard h10 h11, h.total _ 0 hword (by decide) h10 h11⟩

/-! ## A character at a receiver that runs -/

theorem charInject_none {s : State} (h : s.integ.arms = []) (p : Nat) : charInject s p = (s, false, false, false, false) := by
  simp only [charInject, injected_none h, Bool.false_eq_true, if_false]

/-- No XOFF of the port stands, and the Leash is not obeyed: a character is passed on. -/
theorem serialChar_eq_serialPass {s : State} {p : Nat} (hxoff : regB s (Reg.spStatus p) 12 = false) (hobey : leashObey s p = false)
    (c : RxChar) : serialChar s p c = serialPass s p c := by
  simp only [serialChar, leashCount, hxoff, hobey, Bool.false_and, Bool.false_eq_true, if_false]

/-- The parity bit of a character is not the one that it should have. -/
def parityWrong (s : State) (p : Nat) (d : Byte) (pBit : Bool) : Bool :=
  (parityBit (regF s (Reg.spFormat p) 4 2) d).isSome && parityBit (regF s (Reg.spFormat p) 4 2) d != some pBit

/-- The character that a receiver takes. -/
def charTaken (s : State) (p : Nat) (ch : Byte) (pBit low : Bool) (e : Edge) : RxChar :=
  ⟨charMask s p ch, low, parityWrong s p (charMask s p ch) pBit, false, e, false⟩

/-- A receiver that has seen a character's start edge and its errors. -/
def charSeen (s : State) (p k : Nat) (ch : Byte) (pBit low : Bool) : State :=
  charFlagged (charBegun s p k) p low (parityWrong s p (charMask s p ch) pBit)

/-- A state of the port with its low level noted or not. -/
def LowNoted (p : Nat) (s t : State) : Prop := ∃ l, t = s ∨ t = setSerial s p { serial s p with low := l }

/-- With nothing injected, a character outside half duplex is seen and passed on. -/
theorem exec_serialCharacter_taken {s : State} {p : Fin 128} (ch : Byte) (pBit low : Bool) (taps : Fin 256) (hrx : rxOn s p = true)
    (hhunts : rxHunts s p = true) (harms : s.integ.arms = []) (hobey : leashObey s p = false)
    (hxoff : regB s (Reg.spStatus p) 12 = false) (hmode : spMode s p ≠ 1) :
    ∃ e t, exec (.serialCharacter p ch pBit low taps) s = .next t
      ∧ LowNoted p (serialPass (charSeen s p taps ch pBit low) p (charTaken s p ch pBit low e)) t := by
  have hp := p.isLt
  have hbegun := (edgeTaken_charBegun s hp taps).char
  have hset := hbegun.settings hp
  have hseen := hbegun.trans (charKept_charFlagged (charBegun s p taps) hp low (parityWrong s p (charMask s p ch) pBit))
  have hpass : ∀ c, serialChar (charSeen s p taps ch pBit low) p c = serialPass (charSeen s p taps ch pBit low) p c :=
    serialChar_eq_serialPass ((hseen.status 12 (by decide)).trans hxoff) ((hseen.settings hp).obey.trans hobey)
  have hinject := charInject_none (hbegun.arms.trans harms) p
  have hfull : (spMode (charBegun s p taps) p == 1) = false := by
    rw [hset.mode]
    simpa using hmode
  have hdef : charBegun s p taps = lineBusy (setSerial (serialEdge s p taps).1 p { serial (serialEdge s p taps).1 p with needIdle := false }) p
      (charsTicks (serialEdge s p taps).1 p 1) := rfl
  have hform : exec (.serialCharacter p ch pBit low taps) s = .next (if low then
      lineLow (serialChar (charSeen s p taps ch pBit low) p (charTaken s p ch pBit low (serialEdge s p taps).2)) p
        (lineBits (serialChar (charSeen s p taps ch pBit low) p (charTaken s p ch pBit low (serialEdge s p taps).2)) p (charMask s p ch) pBit)
        (serialEdge s p taps).2
      else serialChar (charSeen s p taps ch pBit low) p (charTaken s p ch pBit low (serialEdge s p taps).2)) := by
    rw [exec_serialCharacter]
    unfold execSerialCharacter
    simp only [hrx, hhunts, Bool.not_true, Bool.false_eq_true, if_false, ← hdef, hfull, Bool.false_and, hinject, Bool.or_false,
      hset.mask, regF_of_reg hset.format]
    rfl
  rw [hpass] at hform
  refine ⟨(serialEdge s p taps).2, _, hform, ?_⟩
  cases low with
  | true => exact ⟨_, .inr rfl⟩
  | false => exact ⟨none, .inl rfl⟩

theorem LowNoted.regs {p : Nat} {s t : State} (h : LowNoted p s t) : t.regs = s.regs := by
  obtain ⟨l, rfl | rfl⟩ := h <;> rfl

theorem LowNoted.totals {p : Nat} {s t : State} (h : LowNoted p s t) : t.totals = s.totals := by
  obtain ⟨l, rfl | rfl⟩ := h <;> rfl

theorem LowNoted.port {p : Nat} {s t : State} (h : LowNoted p s t) : ∃ l, serial t p = { serial s p with low := l } := by
  obtain ⟨l, rfl | rfl⟩ := h
  · exact ⟨_, rfl⟩
  · exact ⟨l, serial_setSerial_same _ p _⟩

theorem LowNoted.total {p : Nat} {s t : State} (h : LowNoted p s t) (off lo : Nat) : Machine.total t off lo = Machine.total s off lo :=
  congrArg (sget 0 · (32 * off + lo)) h.totals

theorem LowNoted.firedOnce {p : Nat} {s t u : State} {d : Nat} (h : LowNoted p t u) (hf : FiredOnce s t d) : FiredOnce s u d := by
  rw [FiredOnce, h.total, reg_of_regs h.regs]
  exact hf

/-! ## The errors of a character (R132, R133) -/

section Seen
variable (s : State) {p : Nat} (hp : p < 128) (k : Nat) (ch : Byte) (pBit low : Bool)
include hp

theorem charKept_charSeen : CharKept p s (charSeen s p k ch pBit low) :=
  (edgeTaken_charBegun s hp k).char.trans (charKept_charFlagged _ hp low _)

omit hp in
/-- The port of a receiver that has seen a start edge, but for its armed flags, its wait for idle and its idle time. -/
theorem serial_charSeen : ∃ i a, serial (charSeen s p k ch pBit low) p
    = { serial (serialEdge s p k).1 p with needIdle := false, idleTb := i, armed := a } := by
  obtain ⟨i, hi⟩ := serial_charBegun s p k
  obtain ⟨a, ha⟩ := serial_charFlagged (charBegun s p k) p low (parityWrong s p (charMask s p ch) pBit)
  exact ⟨i, a, ha.trans (by rw [hi])⟩

theorem fifo_charSeen : (serial (charSeen s p k ch pBit low) p).fifo = (serial s p).fifo := by
  obtain ⟨i, a, h⟩ := serial_charSeen s k ch pBit low
  rw [h]
  exact (edgeTaken_serialEdge s hp k).fifo

theorem hunt_charSeen (h : (serial s p).framer = .hunt) : (serial (charSeen s p k ch pBit low) p).framer = .hunt := by
  obtain ⟨i, a, hport⟩ := serial_charSeen s k ch pBit low
  rw [hport]
  exact (edgeTaken_serialEdge s hp k).hunt h

/-- Both errors are shown in SP_STATUS and reported once, if the character has them, whatever becomes of it. -/
theorem errors_serialPass (c : RxChar) :
    (low = true → regB (serialPass (charSeen s p k ch pBit low) p c) (Reg.spStatus p) 31 = true
      ∧ FiredOnce s (serialPass (charSeen s p k ch pBit low) p c) 0x10)
    ∧ (parityWrong s p (charMask s p ch) pBit = true → regB (serialPass (charSeen s p k ch pBit low) p c) (Reg.spStatus p) 30 = true
      ∧ FiredOnce s (serialPass (charSeen s p k ch pBit low) p c) 0x11) := by
  have hbegun := (edgeTaken_charBegun s hp k).flags
  have hpass := flagsKept_serialPass (charSeen s p k ch pBit low) hp c
  generalize hz : serialPass (charSeen s p k ch pBit low) p c = z at hpass
  unfold charSeen at hpass
  refine ⟨fun hlow => ?_, fun hpe => ?_⟩
  · obtain ⟨hshown, hfired⟩ := charFlagged_fe (s := charBegun s p k) hp (parityWrong s p (charMask s p ch) pBit)
    rw [hlow] at hpass
    refine ⟨(hpass.status 31 (by decide)).trans hshown, hpass.firedOnce (.inl rfl) ?_⟩
    exact firedOnce_from (hbegun.total 0x10 (.inl rfl)) (hbegun.reg 0x10 (.inl rfl)) hfired
  · obtain ⟨hshown, hfired⟩ := charFlagged_pe (s := charBegun s p k) hp low
    rw [hpe] at hpass
    refine ⟨(hpass.status 30 (by decide)).trans hshown, hpass.firedOnce (.inr rfl) ?_⟩
    exact firedOnce_from (hbegun.total 0x11 (.inr rfl)) (hbegun.reg 0x11 (.inr rfl)) hfired

end Seen

/-! ## The raw FIFO (R135) -/

section Raw
variable {s : State} {p : Nat} (hraw : spMode s p = 2) (hfifo : regB s (Reg.spCtrl p) 28 = false)
include hraw hfifo

/-- A raw character joins the FIFO where there is room. -/
theorem serialPass_room (hroom : (serial s p).fifo.length < 64) (c : RxChar) :
    (serial (serialPass s p c) p).fifo = (serial s p).fifo ++ [⟨c.ch, c.fe, c.pe⟩] := by
  rw [serialPass, if_pos (by simpa using hraw), hfifo, if_neg Bool.false_ne_true, if_neg (by omega), serial_setSerial_same]

/-- A raw character is lost where the FIFO is full. -/
theorem serialPass_full (hfull : 64 ≤ (serial s p).fifo.length) (c : RxChar) : serialPass s p c = serialOverrun s p false := by
  rw [serialPass, if_pos (by simpa using hraw), hfifo, if_neg Bool.false_ne_true, if_pos hfull]

end Raw

/-- A character lost to overrun leaves the FIFO, and is reported once. -/
theorem serialOverrun_spec {s : State} {p : Nat} (hp : p < 128) :
    (serial (serialOverrun s p false) p).fifo = (serial s p).fifo ∧ FiredOnce s (serialOverrun s p false) 0x12 := by
  obtain ⟨a, hport⟩ := serial_errorCounted (s := s) (p := p) (b := 29) (d := 0x12) (hi := 15) (lo := 8)
  have hfired : FiredOnce s (errorCounted s p 29 0x12 15 8) 0x12 := firedOnce_errorCounted hp (by decide) (by omega)
  rw [serialOverrun_eq]
  generalize errorCounted s p 29 0x12 15 8 = x at hport hfired
  have hkept : ∀ y, CharKept p x y → FiredOnce s y 0x12 := fun y hy => by
    obtain ⟨hreg, htotal⟩ := hy.detector hp (d := 0x12) (by omega)
    rw [FiredOnce, hreg, htotal]
    exact hfired
  split
  · refine ⟨?_, hkept _ (charKept_setSerial p x p _)⟩
    rw [serial_setSerial_same, hport]
  · refine ⟨?_, hkept _ (charKept_framerDiscard x p)⟩
    rw [serial_framerDiscard, hport]
    split <;> rfl

/-! ## The framer (R136, R138) -/

/-- Outside raw mode the framer takes the character, which SP_DATA shows. -/
theorem serialPass_framer {s : State} {p : Nat} (hmode : spMode s p = 0) (c : RxChar) :
    serialPass s p c = framerChar (setSerial s p { serial s p with lastChar := some ⟨c.ch, c.fe, c.pe⟩ }) p c := by
  rw [serialPass, if_neg (by simp [hmode])]

/-- A start character opens a sentence. -/
theorem framerChar_start {s : State} {p : Nat} {c : RxChar} (hhunt : (serial s p).framer = .hunt) (hch : c.ch = 0x24#8 ∨ c.ch = 0x21#8) :
    (serial (framerChar s p c) p).text = [c.ch] ∧ (serial (framerChar s p c) p).framer = .sentence
      ∧ (serial (framerChar s p c) p).lastChar = (serial s p).lastChar := by
  have hstart : startChar s p c.ch = true := by
    rcases hch with h | h <;> simp [startChar, h]
  have hsentence : (c.ch == 0x5C#8) = false := by
    rcases hch with h | h <;> simp [h]
  have hform : framerChar s p c = textPut (setSerial s p (framerClear (serial s p))) p c .sentence := by
    rw [framerChar, hhunt]
    simp only [hstart, if_true, textOpen, hsentence, Bool.false_eq_true, if_false]
  rw [hform, serial_textPut, serial_setSerial_same]
  exact ⟨rfl, rfl, rfl⟩

/-- An LF closes the sentence, which the policy then judges. -/
theorem framerChar_close {s : State} {p : Nat} {c : RxChar} (hp : p < 128) (harms : s.integ.arms = [])
    (hframer : (serial s p).framer = .sentence) (hch : c.ch = 0x0A#8) (hlen : (serial s p).text.length < 256) :
    framerChar s p c = sentenceEnded (textPut s p c .sentence) p false
      (sumPolicy (regF s (Reg.spFramer p) 1 0) (judgeText ((serial s p).text ++ [c.ch])).verdict) := by
  have hput := textPut_char s hp c .sentence
  have hstart : startChar s p c.ch = false := by simp [startChar, hch]
  have hform : framerChar s p c = sentenceClose (textPut s p c .sentence) p := by
    have hlf : (c.ch == 0x0A#8 && Framer.sentence == .sentence) = true := by simp [hch]
    rw [framerChar, hframer]
    simp only [hstart, Bool.false_eq_true, if_false, textStep, if_neg (Nat.not_le.2 hlen), hlf, if_true]
  rw [hform, sentenceClose_eq (hput.arms.trans harms), regF_of_reg (hput.settings hp).framer, serial_textPut]
  rfl

end Sys2Proof.Machine
end

section
/-! # Serial reception: O42 (R126, R132 to R139, R142, R143, R149) -/

namespace Sys2Proof.Machine

/-! ## Raw characters, start characters and the end of a sentence -/

section Character
variable {s : State} {p : Nat} (hp : p < 128) (k : Nat) (ch : Byte) (pBit low : Bool)
include hp

theorem charSeen_mode : spMode (charSeen s p k ch pBit low) p = spMode s p := ((charKept_charSeen s hp k ch pBit low).settings hp).mode

theorem charSeen_rawRec : regB (charSeen s p k ch pBit low) (Reg.spCtrl p) 28 = regB s (Reg.spCtrl p) 28 :=
  regB_of_reg ((charKept_charSeen s hp k ch pBit low).settings hp).ctrl 28

/-- A raw character where the FIFO has room. -/
theorem rawChar_room (hmode : spMode s p = 2) (hfifo : regB s (Reg.spCtrl p) 28 = false) (hroom : (serial s p).fifo.length < 64)
    (c : RxChar) :
    (serial (serialPass (charSeen s p k ch pBit low) p c) p).fifo = (serial s p).fifo ++ [⟨c.ch, c.fe, c.pe⟩] := by
  have hsame := fifo_charSeen s hp k ch pBit low
  rw [serialPass_room ((charSeen_mode hp k ch pBit low).trans hmode) ((charSeen_rawRec hp k ch pBit low).trans hfifo) (hsame ▸ hroom), hsame]

/-- A raw character where the FIFO is full. -/
theorem rawChar_full (hmode : spMode s p = 2) (hfifo : regB s (Reg.spCtrl p) 28 = false) (hfull : 64 ≤ (serial s p).fifo.length)
    (c : RxChar) :
    (serial (serialPass (charSeen s p k ch pBit low) p c) p).fifo = (serial s p).fifo
      ∧ FiredOnce s (serialPass (charSeen s p k ch pBit low) p c) 0x12 := by
  have hsame := fifo_charSeen s hp k ch pBit low
  obtain ⟨hreg, htotal⟩ := (charKept_charSeen s hp k ch pBit low).detector hp (d := 0x12) (by omega)
  obtain ⟨hleft, hfired⟩ := serialOverrun_spec (s := charSeen s p k ch pBit low) hp
  rw [serialPass_full ((charSeen_mode hp k ch pBit low).trans hmode) ((charSeen_rawRec hp k ch pBit low).trans hfifo) (hsame ▸ hfull)]
  exact ⟨hleft.trans hsame, firedOnce_from htotal hreg hfired⟩

/-- A start character at a framer that hunts. -/
theorem framedChar_start (hmode : spMode s p = 0) (hhunt : (serial s p).framer = .hunt) {c : RxChar} (hch : c.ch = 0x24#8 ∨ c.ch = 0x21#8) :
    (serial (serialPass (charSeen s p k ch pBit low) p c) p).text = [c.ch]
      ∧ (serial (serialPass (charSeen s p k ch pBit low) p c) p).framer = .sentence
      ∧ (serial (serialPass (charSeen s p k ch pBit low) p c) p).lastChar = some ⟨c.ch, c.fe, c.pe⟩ := by
  have hseen := hunt_charSeen s hp k ch pBit low hhunt
  rw [serialPass_framer ((charSeen_mode hp k ch pBit low).trans hmode)]
  generalize charSeen s p k ch pBit low = y at hseen
  have hport := serial_setSerial_same y p { serial y p with lastChar := some ⟨c.ch, c.fe, c.pe⟩ }
  generalize setSerial y p { serial y p with lastChar := some ⟨c.ch, c.fe, c.pe⟩ } = x at hport
  obtain ⟨htext, hframer, hlast⟩ := framerChar_start (s := x) (p := p) (by rw [hport]; exact hseen) hch
  exact ⟨htext, hframer, hlast.trans (by rw [hport])⟩

/-- The LF of a sentence whose TDC need not switch: the sentence becomes a record, or is rejected. -/
theorem framedChar_close (hmode : spMode s p = 0) (harms : s.integ.arms = []) (hframer : (serial s p).framer = .sentence) {c : RxChar}
    (hch : c.ch = 0x0A#8) (hlen : (serial s p).text.length < 256) (hover : tdcOverdue s p = false)
    (hepoch : (serial s p).first.any (fun f => f.epoch != (tdcPos s p k).2.2) = false) :
    ∃ x, CharKept p s x ∧ serialPass (charSeen s p k ch pBit low) p c = sentenceEnded x p false
      (sumPolicy (regF s (Reg.spFramer p) 1 0) (judgeText ((serial s p).text ++ [c.ch])).verdict) := by
  have hseen := charKept_charSeen s hp k ch pBit low
  obtain ⟨i, a, hport⟩ := serial_charSeen s (p := p) k ch pBit low
  rw [serial_serialEdge_same hp hover hepoch] at hport
  rw [serialPass_framer ((charSeen_mode hp k ch pBit low).trans hmode)]
  generalize charSeen s p k ch pBit low = y at hseen hport
  have hshown := hseen.trans (charKept_setSerial p y p { serial y p with lastChar := some ⟨c.ch, c.fe, c.pe⟩ })
  have hx := serial_setSerial_same y p { serial y p with lastChar := some ⟨c.ch, c.fe, c.pe⟩ }
  generalize setSerial y p { serial y p with lastChar := some ⟨c.ch, c.fe, c.pe⟩ } = x at hshown hx
  have htext : (serial x p).text = (serial s p).text := by rw [hx, hport]
  refine ⟨textPut x p c .sentence, hshown.trans (textPut_char x hp c .sentence), ?_⟩
  rw [framerChar_close hp (hshown.arms.trans harms) (by rw [hx, hport]; exact hframer) hch (htext ▸ hlen), htext,
    regF_of_reg (hshown.settings hp).framer]

end Character

/-- The end of a sentence, counted from the state before its last character. -/
theorem sentenceEnded_spec {s x : State} {p : Nat} (hp : p < 128) (h : CharKept p s x) (w : Option Nat) :
    (serial (sentenceEnded x p false w) p).text = [] ∧ (serial (sentenceEnded x p false w) p).framer = .hunt
      ∧ (w.isSome = true → total (sentenceEnded x p false w) (Reg.spRxCount p) 0 = (total s (Reg.spRxCount p) 0 + 1) % 2 ^ 32)
      ∧ (w = none → total (sentenceEnded x p false w) (Reg.spRxErr p) 0 = (total s (Reg.spRxErr p) 0 + 1) % 2 ^ 32
        ∧ FiredOnce s (sentenceEnded x p false w) 0x15) := by
  have hcounter : ∀ off, 0x10000 ≤ off ∧ off < 0x30000 → total x off 0 = total s off 0 := fun off hoff => by
    refine h.total off 0 (.inl hoff) (by decide) ?_ ?_ <;> unfold Reg.detCount <;> omega
  obtain ⟨htext, hframer⟩ := serial_sentenceEnded x p false w
  refine ⟨htext, hframer, fun hw => ?_, fun hw => ?_⟩
  · obtain ⟨r, rfl⟩ := Option.isSome_iff_exists.1 hw
    rw [sentenceEnded, total_sentenceTaken x hp r, hcounter]
    unfold Reg.spRxCount
    omega
  · obtain ⟨hcount, hfired⟩ := sentenceRejected_counts x hp
    obtain ⟨hreg, htotal⟩ := h.detector hp (d := 0x15) (by omega)
    rw [hw, sentenceEnded]
    refine ⟨hcount.trans ?_, firedOnce_from htotal hreg hfired⟩
    rw [hcounter]
    unfold Reg.spRxErr
    omega

/-! ## Reads of status and data (R133, R135) -/

theorem reg_setSerial (s : State) (p : Nat) (v : SerialPort) (off : Nat) : reg (setSerial s p v) off = reg s off := rfl

theorem serial_emit (s : State) (o : Out) (p : Nat) : serial (emit s o) p = serial s p := rfl

theorem exec_spStatusRead {s : State} (p : Fin 128) (h : bar0Ok s = true) :
    exec (.spStatusRead p) s = .next (emit (setSerial s p { serial s p with armed := fld (spStatus s p) 31 29 })
      (.readReply 0 (Reg.spStatus p) (wordBytes (spStatus s p)))) := by
  have hexec : exec (.spStatusRead p) s = execSpStatusRead p s := rfl
  rw [hexec, execSpStatusRead, spStatusRead, h]
  generalize spStatus s p = w
  rfl

theorem exec_spDataRead {s : State} (p : Fin 128) (h : bar0Ok s = true) :
    exec (.spDataRead p) s = .next (emit (spDataRead s p).1 (.readReply 0 (Reg.spData p) (wordBytes (spDataRead s p).2))) := by
  have hread : ∀ (b : Bool) (r : State × Word), b = true →
      (if !b then .next (emit s (.readReply 0 (Reg.spData p) (wordBytes 0xFFFFFFFF#32))) else match r with
        | (x, w) => .next (emit x (.readReply 0 (Reg.spData p) (wordBytes w))) : Host.Outcome State Fault Refusal)
      = .next (emit r.1 (.readReply 0 (Reg.spData p) (wordBytes r.2))) := fun b r hb => by
    rw [hb]
    rfl
  exact hread (bar0Ok s) (spDataRead s p) h

/-- A read takes a character from its port, and touches nothing else. -/
theorem spTake_frame (s : State) (p : Nat) :
    (serial (spTake s p).1 p).armed = (serial s p).armed ∧ (spTake s p).1.regs = s.regs ∧ (spTake s p).1.out = s.out := by
  have hset : ∀ v : SerialPort, v.armed = (serial s p).armed →
      (serial (setSerial s p v) p).armed = (serial s p).armed ∧ (setSerial s p v).regs = s.regs ∧ (setSerial s p v).out = s.out := fun v hv =>
    ⟨by rw [serial_setSerial_same, hv], rfl, rfl⟩
  unfold spTake
  extract_lets v
  split
  · split
    · exact hset _ rfl
    · exact ⟨rfl, rfl, rfl⟩
  · split
    · exact hset _ rfl
    · exact ⟨rfl, rfl, rfl⟩

/-- A raw port gives the oldest character of its FIFO. -/
theorem spTake_raw {s : State} {p : Nat} (hmode : spMode s p = 2) :
    (∀ c cs, (serial s p).fifo = c :: cs → spTake s p = (setSerial s p { serial s p with fifo := cs }, rawWord c))
      ∧ ((serial s p).fifo = [] → spTake s p = (s, 0)) := by
  have hraw : (spMode s p == 2) = true := by simp [hmode]
  refine ⟨fun c cs h => ?_, fun h => ?_⟩
  · simp only [spTake, hraw, if_true, h]
  · simp only [spTake, hraw, if_true, h]

/-- A read of SP_DATA clears the armed flags. -/
def flagsLeft (s : State) (p : Nat) : State :=
  setF s (Reg.spStatus p) 31 29 (regF s (Reg.spStatus p) 31 29 - (regF s (Reg.spStatus p) 31 29 &&& (serial s p).armed))

/-- The state at which a read of SP_DATA takes its character. -/
def flagsCleared (s : State) (p : Nat) : State := setSerial (flagsLeft s p) p { serial (flagsLeft s p) p with armed := 0 }

theorem spDataRead_eq (s : State) (p : Nat) : spDataRead s p = spTake (flagsCleared s p) p := by
  rw [spDataRead, flagsCleared, flagsLeft]

theorem flagsLeft_flags (s : State) (p : Nat) :
    regF (flagsLeft s p) (Reg.spStatus p) 31 29
      = regF s (Reg.spStatus p) 31 29 - (regF s (Reg.spStatus p) 31 29 &&& (serial s p).armed) := by
  have hbound : regF s (Reg.spStatus p) 31 29 < 2 ^ 3 := fld_lt _ 31 29
  rw [flagsLeft, regF_setF_same (by decide) (by decide)]
  refine Nat.mod_eq_of_lt ?_
  omega

theorem flagsCleared_out (s : State) (p : Nat) : (flagsCleared s p).out = s.out := by
  rw [flagsCleared, setSerial_out, flagsLeft, setF_out]

theorem reg_flagsCleared (s : State) (p off : Nat) : reg (flagsCleared s p) off = reg (flagsLeft s p) off := by
  rw [flagsCleared, reg_setSerial]

end Sys2Proof.Machine
end

section
/-! # Gaps, breaks and held lines (R126, R139, R142, R143, R149) -/

namespace Sys2Proof.Machine

/-! ## False starts and gaps (R126, R139) -/

/-- A false start at a receiver that runs: the line is idle from now, and one that may take a start bit waits for no idle line. -/
theorem serialFalseStart_spec {s : State} (p : Fin 128) (taps : Fin 256) (hrx : rxOn s p = true) :
    ∃ t, exec (.serialFalseStart p taps) s = .next t ∧ (serial t p).idleTb = s.time.tb ∧ (serial t p).fifo = (serial s p).fifo
      ∧ (rxHunts s p = true → (serial t p).needIdle = false) := by
  have hp := p.isLt
  rw [exec_serialFalseStart, execSerialFalseStart, hrx, Bool.not_true, if_neg Bool.false_ne_true]
  cases hhunts : rxHunts s p with
  | false =>
    rw [Bool.not_false, if_pos rfl]
    have hport : serial (lineBusy s p 0) p = { serial s p with idleTb := s.time.tb + 0 } := serial_setSerial_same s p _
    exact ⟨_, rfl, by rw [hport]; rfl, by rw [hport], (fun h => by cases h)⟩
  | true =>
    have hedge := edgeTaken_serialEdge s hp taps
    rw [Bool.not_true, if_neg Bool.false_ne_true]
    generalize serialEdge s p taps = q at hedge
    obtain ⟨x, e⟩ := q
    have hport : serial (lineBusy (setSerial x p { serial x p with needIdle := false }) p 0) p
        = { serial x p with needIdle := false, idleTb := x.time.tb + 0 } := by
      rw [lineBusy, serial_setSerial_same, serial_setSerial_same]
      rfl
    refine ⟨_, rfl, ?_, ?_, fun _ => ?_⟩
    · rw [hport, ← hedge.char.time]
      rfl
    · rw [hport]
      exact hedge.fifo
    · rw [hport]

/-- A raw record is closed once the line has been idle for RAW_GAP character times. -/
theorem exec_rawGapClose_due {s : State} (p : Fin 128) (hrx : rxOn s p = true) (hmode : spMode s p = 2) (htext : (serial s p).text ≠ [])
    (hidle : (serial s p).idleTb ≤ s.time.tb)
    (hgap : charsTicks s p (max 1 (regF s (Reg.spCtrl p) 15 8)) ≤ s.time.tb - (serial s p).idleTb) :
    exec (.rawGapClose p) s = .next (rawClose s p 0) := by
  have hsome : (serial s p).text.isEmpty = false := by simpa using htext
  rw [exec_rawGapClose, execRawGapClose]
  simp only [hrx, hmode, hsome, hidle, sinceTb, hgap, BEq.rfl, Bool.not_false, decide_true, Bool.and_self, if_true]

/-! ## The Leash's timeout (R143) -/

/-- A transmitter that resumes: TX_PAUSED is cleared, and no XOFF stands. -/
theorem leashResume_spec {s : State} (p : Nat) :
    regB (leashResume s p) (Reg.spStatus p) 13 = false ∧ (serial (leashResume s p) p).xoffTb = none
      ∧ (∀ off lo, total (leashResume s p) off lo = total s off lo) := by
  unfold leashResume
  extract_lets v x run
  refine ⟨?_, ?_, fun _ _ => rfl⟩
  · have hreg : reg (setSerial x p { v with xoffTb := none, run := run }) (Reg.spStatus p) = reg x (Reg.spStatus p) := reg_setSerial x p _ _
    rw [regB_of_reg hreg, regB_setF (by decide) (by decide), if_pos (by decide)]
    rfl
  · rw [serial_setSerial_same]

theorem exec_leashTimeout_due {s : State} (p : Fin 128) {tb : Nat} (htick : ticking s = true) (hxoff : (serial s p).xoffTb = some tb)
    (hset : regF s (Reg.spLeashTimeout p) 15 0 ≠ 0) (hdue : regF s (Reg.spLeashTimeout p) 15 0 * 250000 ≤ s.time.tb - tb) :
    exec (.leashTimeout p) s = .next (count (leashResume s p) (Reg.spTxErr p) 7 0 1) := by
  have hexec : exec (.leashTimeout p) s = execLeashTimeout p s := rfl
  have hms : regF s (Reg.spLeashTimeout p) 15 0 * Config.tickMs ≤ sinceTb s tb := hdue
  rw [hexec, execLeashTimeout]
  simp only [hxoff, htick, hms, bne_iff_ne, ne_eq, hset, not_false_eq_true, decide_true, Bool.and_true, Bool.true_and, if_true]

theorem leashTimeout_spec {s : State} (p : Fin 128) {tb : Nat} (htick : ticking s = true) (hxoff : (serial s p).xoffTb = some tb)
    (hset : regF s (Reg.spLeashTimeout p) 15 0 ≠ 0) (hdue : regF s (Reg.spLeashTimeout p) 15 0 * 250000 ≤ s.time.tb - tb) :
    ∃ t, exec (.leashTimeout p) s = .next t ∧ regB t (Reg.spStatus p) 13 = false ∧ (serial t p).xoffTb = none
      ∧ total t (Reg.spTxErr p) 0 = (total s (Reg.spTxErr p) 0 + 1) % 2 ^ 32 := by
  obtain ⟨hpaused, hnone, htotal⟩ := leashResume_spec (s := s) p
  refine ⟨_, exec_leashTimeout_due p htick hxoff hset hdue, ?_, hnone, ?_⟩
  · refine (regB_of_reg (reg_count_other ?_) 13).trans hpaused
    unfold Reg.spStatus Reg.spTxErr
    omega
  · rw [total_count, htotal]

/-! ## Breaks and held lines (R149) -/

theorem serial_count (s : State) (off hi lo n q : Nat) : serial (count s off hi lo n) q = serial s q := rfl

theorem serial_setF (s : State) (off hi lo v q : Nat) : serial (setF s off hi lo v) q = serial s q := rfl

/-- A break outside raw mode: what the framer holds is discarded, and the break is shown and counted. -/
def breakSeen (s : State) (p : Nat) : State := count (setF (framerDiscard s p) (Reg.spStatus p) 14 14 1) (Reg.spRxDiscard p) 15 0 1

/-- A transmitter with no item starts its gap anew. -/
def gapMarked (s : State) (p : Nat) : State :=
  if (serial s p).staged.isNone && (serial s p).run.isNone then setSerial s p { serial s p with gapTb := s.time.tb } else s

theorem breakSeen_spec (s : State) {p : Nat} (hp : p < 128) :
    regB (breakSeen s p) (Reg.spStatus p) 14 = true ∧ (serial (breakSeen s p) p).text = []
      ∧ total (breakSeen s p) (Reg.spRxDiscard p) 0 = (total s (Reg.spRxDiscard p) 0 + 1) % 2 ^ 32
      ∧ total (breakSeen s p) (Reg.spRxCount p) 0 = total s (Reg.spRxCount p) 0 := by
  have hdiscard := charKept_framerDiscard s p
  have htext : (serial (framerDiscard s p) p).text = [] := by
    rw [serial_framerDiscard]
    split
    · assumption
    · rfl
  have hcounter : ∀ off, 0x10000 ≤ off ∧ off < 0x30000 → total (framerDiscard s p) off 0 = total s off 0 := fun off hoff => by
    refine hdiscard.total off 0 (.inl hoff) (by decide) ?_ ?_ <;> unfold Reg.detCount <;> omega
  unfold breakSeen
  generalize framerDiscard s p = x at htext hcounter
  have hapart : Reg.spStatus p ≠ Reg.spRxDiscard p := by
    unfold Reg.spStatus Reg.spRxDiscard
    omega
  have hport : serial (count (setF x (Reg.spStatus p) 14 14 1) (Reg.spRxDiscard p) 15 0 1) p = serial x p :=
    (serial_count _ _ _ _ _ p).trans (serial_setF x _ _ _ _ p)
  refine ⟨?_, by rw [hport, htext], ?_, ?_⟩
  · rw [regB_of_reg (reg_count_other hapart), regB_setF (by decide) (by decide), if_pos (by decide)]
    rfl
  · rw [total_count, total_setF, hcounter]
    unfold Reg.spRxDiscard
    omega
  · rw [total_count_other, total_setF, hcounter]
    · unfold Reg.spRxCount
      omega
    · unfold Reg.spRxCount Reg.spRxDiscard
      omega

theorem gapMarked_spec (s : State) (p : Nat) :
    (gapMarked s p).regs = s.regs ∧ (gapMarked s p).totals = s.totals ∧ (serial (gapMarked s p) p).text = (serial s p).text := by
  unfold gapMarked
  split
  · exact ⟨rfl, rfl, by rw [serial_setSerial_same]⟩
  · exact ⟨rfl, rfl, rfl⟩

/-- The record of a break draws what the spec does not state, and nothing else, before it is handed over. -/
theorem breakRecord_eq (s : State) (p : Nat) (e : Option Edge) : ∃ x a, SerialStill s x ∧ breakRecord s p e = serialRecord x p a := by
  cases e with
  | some e => exact ⟨s, _, .refl s, rfl⟩
  | none =>
    simp only [breakRecord, freeStamp, takeWord, takeBit]
    exact ⟨_, _, serialStill_freeCount s _, rfl⟩

theorem breakRecord_spec (s : State) {p : Nat} (hp : p < 128) (e : Option Edge) :
    (serial (breakRecord s p e) p).text = (serial s p).text
      ∧ regB (breakRecord s p e) (Reg.spStatus p) 14 = regB s (Reg.spStatus p) 14
      ∧ total (breakRecord s p e) (Reg.spRxDiscard p) 0 = total s (Reg.spRxDiscard p) 0
      ∧ total (breakRecord s p e) (Reg.spRxCount p) 0 = (total s (Reg.spRxCount p) 0 + 1) % 2 ^ 32 := by
  obtain ⟨x, a, hstill, h⟩ := breakRecord_eq s p e
  have hport := serial_of_serial hstill.serial p
  have hregs : reg x (Reg.spStatus p) = reg s (Reg.spStatus p) := hstill.reg _ (serialWord_spStatus hp)
  have htotals : ∀ off, 0x10000 ≤ off ∧ off < 0x30000 → total x off 0 = total s off 0 := fun off hoff =>
    hstill.total off 0 (.inl hoff) (by decide)
  rw [h]
  have hrecord := serialKept_admitRecord (count x (Reg.spRxCount p) 31 0 1) a
  obtain ⟨htext, -⟩ := (serial_serialRecord x p a).receiver
  refine ⟨htext.trans (by rw [hport]), ?_, ?_, ?_⟩
  · refine (hrecord.status p 14 hp (by decide)).trans (regB_of_reg ((reg_count_other ?_).trans hregs) 14)
    unfold Reg.spStatus Reg.spRxCount
    omega
  · refine (hrecord.total _ 0 (.inl ?_) (by decide)).trans ((total_count_other x 31 1 ?_).trans (htotals _ ?_)) <;>
      simp only [Reg.spRxDiscard, Reg.spRxCount] <;> omega
  · rw [total_serialRecord x hp, htotals]
    unfold Reg.spRxCount
    omega

section Line
variable {s : State} (p : Fin 128) {l : Nat × Option Edge} (htick : ticking s = true) (hen : portEn s 0 p = true)
  (hwedge : isWedged s (unitSerial p) = false) (hlow : lowLevel s p = some l)
include hlow

/-- No break is recorded on a line that is held. -/
theorem exec_lineBreak_held (hheld : regB s (Reg.spStatus p) 15 = true) : exec (.lineBreak p) s = .next s := by
  have hexec : exec (.lineBreak p) s = execLineBreak p s := rfl
  rw [hexec, execLineBreak]
  simp only [hlow, hheld, Bool.or_true, Bool.true_or, if_true]

include htick hen

/-- A low line goes high: the receiver waits for an idle line from now. -/
theorem lineRelease_spec : ∃ t, exec (.lineRelease p) s = .next t ∧ (serial t p).low = none ∧ (serial t p).needIdle = true
    ∧ (serial t p).idleTb = s.time.tb ∧ regB t (Reg.spStatus p) 15 = false ∧ regB t (Reg.spStatus p) 14 = false := by
  have hexec : exec (.lineRelease p) s = .next (setF (setSerial s p { serial s p with low := none, needIdle := true, idleTb := s.time.tb })
      (Reg.spStatus p) 15 14 0) := by
    have hdispatch : exec (.lineRelease p) s = execLineRelease p s := rfl
    rw [hdispatch, execLineRelease]
    simp only [htick, hen, hlow, Option.isSome_some, Bool.and_self, if_true]
  have hport := serial_setSerial_same s p { serial s p with low := none, needIdle := true, idleTb := s.time.tb }
  generalize setSerial s p { serial s p with low := none, needIdle := true, idleTb := s.time.tb } = x at hexec hport
  have hleft : serial (setF x (Reg.spStatus p) 15 14 0) p = serial x p := rfl
  have hclear : ∀ i, 14 ≤ i ∧ i ≤ 15 → regB (setF x (Reg.spStatus p) 15 14 0) (Reg.spStatus p) i = false := fun i hi => by
    rw [regB_setF (by decide) (by decide), if_pos hi, Nat.zero_testBit]
  refine ⟨_, hexec, ?_, ?_, ?_, hclear 15 (by decide), hclear 14 (by decide)⟩ <;> rw [hleft, hport]

include hwedge

omit hlow in
theorem lineChecked_eq : lineChecked s p = true := by simp only [lineChecked, htick, hen, hwedge, Bool.not_false, Bool.and_self]

/-- A line that has been low for SP_HOLD is held, which its detector reports. -/
theorem lineHeld_spec (hheld : regB s (Reg.spStatus p) 15 = false) (harms : s.integ.arms = []) (hset : regF s (Reg.spHold p) 15 0 ≠ 0)
    (hdue : regF s (Reg.spHold p) 15 0 * 250000 ≤ s.time.tb - l.1) :
    ∃ t, exec (.lineHeld p) s = .next t ∧ regB t (Reg.spStatus p) 15 = true ∧ FiredOnce s t 0x13 := by
  have hp := p.isLt
  obtain ⟨tb, e⟩ := l
  have hms : decide (sinceTb s tb < regF s (Reg.spHold p) 15 0 * Config.tickMs) = false := decide_eq_false (Nat.not_lt.2 hdue)
  have hzero : (regF s (Reg.spHold p) 15 0 == 0) = false := by simpa using hset
  have hexec : exec (.lineHeld p) s = .next (fire (setF (setSerial s p { serial s p with low := some (tb, e) }) (Reg.spStatus p) 15 15 1)
      0x13 (unitSerial p) 0 0 false none) := by
    have hdispatch : exec (.lineHeld p) s = execLineHeld p s := rfl
    have harms' : (setSerial s p { serial s p with low := some (tb, e) }).integ.arms = [] := harms
    rw [hdispatch, execLineHeld]
    simp only [hlow, lineChecked_eq p htick hen hwedge, hheld, hzero, hms, Bool.not_true, Bool.or_self, Bool.false_eq_true, if_false,
      injected_none harms']
  obtain ⟨hstatus, -⟩ := detCount_apart (d := 0x13) hp (by omega)
  have hword := (serialWord_spStatus hp).not_ringReg
  have hregs := reg_setSerial s p { serial s p with low := some (tb, e) } (Reg.detCount 0x13)
  have htotals : total (setSerial s p { serial s p with low := some (tb, e) }) (Reg.detCount 0x13) 0 = total s (Reg.detCount 0x13) 0 := rfl
  generalize setSerial s p { serial s p with low := some (tb, e) } = x at hexec hregs htotals
  refine ⟨_, hexec, ?_, ?_⟩
  · rw [regB_of_reg (reg_fire_limited _ _ _ _ _ hword hstatus.symm), regB_setF (by decide) (by decide), if_pos (by decide)]
    rfl
  · exact firedOnce_from ((total_setF _ _ _ _ _ _ _).trans htotals) ((reg_setF_other hstatus).trans hregs) (firedOnce_fire _ _ _ _ _ _)

/-- A break in full or half duplex: what the framer holds is gone, and a record of the break is handed over. -/
theorem exec_lineBreak_framed (hbreak : regB s (Reg.spStatus p) 14 = false) (hheld : regB s (Reg.spStatus p) 15 = false)
    (hdue : charsTicks s p 2 ≤ s.time.tb - l.1) (hmode : spMode s p ≠ 2) :
    exec (.lineBreak p) s = .next (breakRecord (gapMarked (breakSeen (setSerial s p { serial s p with low := some l }) p) p) p l.2) := by
  have hdispatch : exec (.lineBreak p) s = execLineBreak p s := rfl
  obtain ⟨tb, e⟩ := l
  have hshort : decide (sinceTb s tb < charsTicks s p 2) = false := decide_eq_false (Nat.not_lt.2 hdue)
  have hframed : ∀ v, (spMode (setSerial s p v) p == 2) = false := fun v => by
    have hsame : spMode (setSerial s p v) p = spMode s p := rfl
    simp [hsame, hmode]
  rw [hdispatch, execLineBreak]
  simp only [hlow, lineChecked_eq p htick hen hwedge, hbreak, hheld, hshort, hframed, Bool.not_true, Bool.or_self, Bool.false_eq_true, if_false]
  rfl

end Line

end Sys2Proof.Machine
end

section
/-! # O42 -/

namespace Sys2Proof.Machine

/-- A read of SP_STATUS arms a clear of the flags that it shows. -/
theorem spStatusRead_spec {s : State} (p : Fin 128) (h : bar0Ok s = true) :
    ∃ t, exec (.spStatusRead p) s = .next t ∧ t.out = s.out ++ [.readReply 0 (Reg.spStatus p) (wordBytes (spStatus s p))]
      ∧ serial t p = { serial s p with armed := fld (spStatus s p) 31 29 } ∧ t = { s with serial := t.serial, out := t.out } := by
  have hexec := exec_spStatusRead p h
  generalize spStatus s p = w at hexec ⊢
  generalize fld w 31 29 = a at hexec ⊢
  refine ⟨_, hexec, rfl, ?_, rfl⟩
  rw [serial_emit, serial_setSerial_same]

/-- A read of SP_DATA clears the armed flags, and takes a character. -/
theorem spDataRead_spec {s : State} (p : Fin 128) (h : bar0Ok s = true) :
    ∃ t, exec (.spDataRead p) s = .next t ∧ (serial t p).armed = 0
      ∧ regF t (Reg.spStatus p) 31 29
        = regF s (Reg.spStatus p) 31 29 - (regF s (Reg.spStatus p) 31 29 &&& (serial s p).armed)
      ∧ SameRegs s t [Reg.spStatus p]
      ∧ (∀ c cs, spMode s p = 2 → (serial s p).fifo = c :: cs → (serial t p).fifo = cs
        ∧ t.out = s.out ++ [.readReply 0 (Reg.spData p) (wordBytes (rawWord c))])
      ∧ (spMode s p = 2 → (serial s p).fifo = [] → t.out = s.out ++ [.readReply 0 (Reg.spData p) (wordBytes 0)]) := by
  have hexec := exec_spDataRead p h
  have hflags : regF (flagsCleared s p) (Reg.spStatus p) 31 29 = _ :=
    (regF_of_reg (reg_flagsCleared s p _) 31 29).trans (flagsLeft_flags s p)
  have hregs : ∀ off, off ≠ Reg.spStatus p → reg (flagsCleared s p) off = reg s off := fun off hoff =>
    (reg_flagsCleared s p off).trans (reg_setF_other hoff)
  have hmode : spMode (flagsCleared s p) p = spMode s p := by
    refine regF_of_reg (hregs _ ?_) 30 29
    unfold Reg.spCtrl Reg.spStatus
    omega
  have hport : serial (flagsCleared s p) p = { serial s p with armed := 0 } := by
    rw [flagsCleared, serial_setSerial_same, flagsLeft, serial_setF]
  have hout := flagsCleared_out s p
  rw [spDataRead_eq] at hexec
  generalize flagsCleared s p = x at hexec hflags hregs hmode hport hout
  have hraw := fun h : spMode s p = 2 => spTake_raw (hmode.trans h)
  obtain ⟨harmed, hsame, -⟩ := spTake_frame x p
  generalize spTake x p = q at hexec hraw harmed hsame
  obtain ⟨y, w⟩ := q
  have hregs' : ∀ off, reg y off = reg x off := fun off => reg_of_regs hsame off
  have harmed' : (serial y p).armed = 0 := by rw [harmed, hport]
  refine ⟨_, hexec, harmed', (regF_of_reg (hregs' _) 31 29).trans hflags,
    fun off hoff => (hregs' off).trans (hregs off (by simpa using hoff)), fun c cs hmode hfifo => ?_, fun hmode hfifo => ?_⟩
  · obtain ⟨htake, -⟩ := hraw hmode
    obtain ⟨rfl, rfl⟩ := Prod.mk.inj (htake c cs (by rw [hport]; exact hfifo))
    rw [serial_emit, serial_setSerial_same, emit_out, setSerial_out, hout]
    exact ⟨rfl, rfl⟩
  · obtain ⟨-, htake⟩ := hraw hmode
    obtain ⟨rfl, rfl⟩ := Prod.mk.inj (htake (by rw [hport]; exact hfifo))
    rw [emit_out, hout]

/-- A break in full or half duplex is recorded once, and what the framer holds is gone. -/
theorem lineBreak_spec {s : State} (p : Fin 128) {l : Nat × Option Edge} (htick : ticking s = true) (hen : portEn s 0 p = true)
    (hwedge : isWedged s (unitSerial p) = false) (hlow : lowLevel s p = some l) (hbreak : regB s (Reg.spStatus p) 14 = false)
    (hheld : regB s (Reg.spStatus p) 15 = false) (hdue : charsTicks s p 2 ≤ s.time.tb - l.1) (hmode : spMode s p ≠ 2) :
    ∃ t, exec (.lineBreak p) s = .next t ∧ regB t (Reg.spStatus p) 14 = true
      ∧ total t (Reg.spRxDiscard p) 0 = (total s (Reg.spRxDiscard p) 0 + 1) % 2 ^ 32
      ∧ total t (Reg.spRxCount p) 0 = (total s (Reg.spRxCount p) 0 + 1) % 2 ^ 32 ∧ (serial t p).text = [] := by
  have hp := p.isLt
  have hexec := exec_lineBreak_framed p htick hen hwedge hlow hbreak hheld hdue hmode
  have hstart : ∀ off lo, total (setSerial s p { serial s p with low := some l }) off lo = total s off lo := fun _ _ => rfl
  generalize setSerial s p { serial s p with low := some l } = x at hexec hstart
  obtain ⟨hshown, htext, hdiscard, hcount⟩ := breakSeen_spec x hp
  generalize breakSeen x p = y at hexec hshown htext hdiscard hcount
  obtain ⟨hregs, htotals, htext'⟩ := gapMarked_spec y p
  have htotal : ∀ off, total (gapMarked y p) off 0 = total y off 0 := fun off => congrArg (sget 0 · (32 * off + 0)) htotals
  generalize gapMarked y p = z at hexec hregs htext' htotal
  obtain ⟨htext'', hshown'', hdiscard'', hcount''⟩ := breakRecord_spec z hp l.2
  refine ⟨_, hexec, ?_, ?_, ?_, ?_⟩
  · rw [hshown'', regB_of_reg (reg_of_regs hregs _), hshown]
  · rw [hdiscard'', htotal, hdiscard, hstart]
  · rw [hcount'', htotal, hcount, hstart]
  · rw [htext'', htext', htext]

/-- What a character does at a receiver that runs, by the port's mode. -/
theorem serialCharacter_spec {s : State} (p : Fin 128) (ch : Byte) (pBit low : Bool) (taps : Fin 256) (hrx : rxOn s p = true)
    (hhunts : rxHunts s p = true) (harms : s.integ.arms = []) (hobey : leashObey s p = false)
    (hxoff : regB s (Reg.spStatus p) 12 = false) (hmode : spMode s p ≠ 1) :
    ∃ t, exec (.serialCharacter p ch pBit low taps) s = .next t
      ∧ (low = true → regB t (Reg.spStatus p) 31 = true ∧ FiredOnce s t 0x10)
      ∧ (parityWrong s p (charMask s p ch) pBit = true → regB t (Reg.spStatus p) 30 = true ∧ FiredOnce s t 0x11)
      ∧ (spMode s p = 2 → regB s (Reg.spCtrl p) 28 = false → (serial s p).fifo.length < 64 →
        (serial t p).fifo = (serial s p).fifo ++ [⟨charMask s p ch, low, parityWrong s p (charMask s p ch) pBit⟩])
      ∧ (spMode s p = 2 → regB s (Reg.spCtrl p) 28 = false → 64 ≤ (serial s p).fifo.length →
        (serial t p).fifo = (serial s p).fifo ∧ FiredOnce s t 0x12)
      ∧ (spMode s p = 0 → (serial s p).framer = .hunt → charMask s p ch = 0x24#8 ∨ charMask s p ch = 0x21#8 →
        (serial t p).text = [charMask s p ch] ∧ (serial t p).framer = .sentence
          ∧ (serial t p).lastChar = some ⟨charMask s p ch, low, parityWrong s p (charMask s p ch) pBit⟩)
      ∧ (spMode s p = 0 → (serial s p).framer = .sentence → charMask s p ch = 0x0A#8 → (serial s p).text.length < 256 →
        tdcOverdue s p = false → (serial s p).first.any (fun f => f.epoch != (tdcPos s p taps).2.2) = false →
        ∃ w, w = sumPolicy (regF s (Reg.spFramer p) 1 0) (judgeText ((serial s p).text ++ [charMask s p ch])).verdict
          ∧ (serial t p).text = [] ∧ (serial t p).framer = .hunt
          ∧ (w.isSome = true → total t (Reg.spRxCount p) 0 = (total s (Reg.spRxCount p) 0 + 1) % 2 ^ 32)
          ∧ (w = none → total t (Reg.spRxErr p) 0 = (total s (Reg.spRxErr p) 0 + 1) % 2 ^ 32 ∧ FiredOnce s t 0x15)) := by
  have hp := p.isLt
  obtain ⟨e, t, hexec, hnoted⟩ := exec_serialCharacter_taken ch pBit low taps hrx hhunts harms hobey hxoff hmode
  obtain ⟨hfe, hpe⟩ := errors_serialPass s hp taps ch pBit low (charTaken s p ch pBit low e)
  have hroom := fun a b c => rawChar_room (s := s) hp taps ch pBit low a b c (charTaken s p ch pBit low e)
  have hfull := fun a b c => rawChar_full (s := s) hp taps ch pBit low a b c (charTaken s p ch pBit low e)
  have hopen := fun a b => framedChar_start (s := s) hp taps ch pBit low a b (c := charTaken s p ch pBit low e)
  have hclose := fun a b => framedChar_close (s := s) hp taps ch pBit low a harms b (c := charTaken s p ch pBit low e)
  generalize serialPass (charSeen s p taps ch pBit low) p (charTaken s p ch pBit low e) = z at hnoted hfe hpe hroom hfull hopen hclose
  obtain ⟨k, hport⟩ := hnoted.port
  have hstatus : ∀ i, regB t (Reg.spStatus p) i = regB z (Reg.spStatus p) i := regB_of_reg (reg_of_regs hnoted.regs _)
  refine ⟨t, hexec, fun h => ?_, fun h => ?_, fun a b c => ?_, fun a b c => ?_, fun a b c => ?_, fun a b c d f g => ?_⟩
  · exact ⟨(hstatus 31).trans (hfe h).1, hnoted.firedOnce (hfe h).2⟩
  · exact ⟨(hstatus 30).trans (hpe h).1, hnoted.firedOnce (hpe h).2⟩
  · rw [hport]
    exact hroom a b c
  · rw [hport]
    exact ⟨(hfull a b c).1, hnoted.firedOnce (hfull a b c).2⟩
  · rw [hport]
    exact hopen a b c
  · obtain ⟨x, hx, hz⟩ := hclose a b c d f g
    obtain ⟨htext, hframer, htaken, hrejected⟩ := sentenceEnded_spec hp hx
      (sumPolicy (regF s (Reg.spFramer p) 1 0) (judgeText ((serial s p).text ++ [charMask s p ch])).verdict)
    have hended : z = sentenceEnded x p false
      (sumPolicy (regF s (Reg.spFramer p) 1 0) (judgeText ((serial s p).text ++ [charMask s p ch])).verdict) := hz
    rw [← hended] at htext hframer htaken hrejected
    rw [hport, hnoted.total, hnoted.total]
    exact ⟨_, rfl, htext, hframer, htaken, fun h => ⟨(hrejected h).1, hnoted.firedOnce (hrejected h).2⟩⟩

end Sys2Proof.Machine
end

section
/-! # O42 settled -/

namespace Sys2Proof.Machine

/-- A character never fails. -/
theorem exec_serialCharacter_next (p : Fin 128) (ch : Byte) (pBit low : Bool) (taps : Fin 256) (s : State) :
    ∃ t, exec (.serialCharacter p ch pBit low taps) s = .next t := by
  rw [exec_serialCharacter]
  unfold execSerialCharacter
  extract_lets q
  by_cases hrx : (!rxOn s q) = true
  · exact ⟨_, if_pos hrx⟩
  · rw [if_neg hrx]
    by_cases hhunts : (!rxHunts s q) = true
    · exact ⟨_, if_pos hhunts⟩
    · rw [if_neg hhunts]
      generalize serialEdge s q taps = r
      obtain ⟨x, e⟩ := r
      dsimp -zeta only
      extract_lets v y
      by_cases hbusy : (spMode y q == 1 && (serial y q).run.isSome) = true
      · exact ⟨_, if_pos hbusy⟩
      · rw [if_neg hbusy]
        generalize charInject y q = r
        obtain ⟨z, fi, pi, oi, hi⟩ := r
        exact ⟨_, rfl⟩

end Sys2Proof.Machine

namespace Sys2Proof.Proofs
open Sys2Proof.Machine

/-- Settles O42: each row of serial reception, by the lemma that says what it does where it is due. In half duplex the clauses on a
character claim only that it does not fail. -/
theorem serialReceive : Obligations.SerialReceive := by
  unfold Obligations.SerialReceive
  intro s p
  refine ⟨spStatusRead_spec p, spDataRead_spec p, fun ch pBit low taps hrx hhunts harms hobey hxoff => ?_, serialFalseStart_spec p,
    fun tb => leashTimeout_spec p, fun hrx hmode htext hidle hgap => ?_, fun l htick hen hwedge hlow => ⟨exec_lineBreak_held p hlow,
      lineBreak_spec p htick hen hwedge hlow, lineHeld_spec p htick hen hwedge hlow, lineRelease_spec p htick hen hlow⟩⟩
  · by_cases hmode : spMode s p = 1
    · obtain ⟨t, ht⟩ := exec_serialCharacter_next p ch pBit low taps s
      have hother : ∀ n, n ≠ 1 → spMode s p ≠ n := fun n hn h => hn (h.symm.trans hmode)
      exact ⟨t, ht, fun _ h => absurd hmode h, fun _ h => absurd hmode h, fun h => absurd h (hother 2 (by decide)),
        fun h => absurd h (hother 2 (by decide)), fun h => absurd h (hother 0 (by decide)), fun h => absurd h (hother 0 (by decide))⟩
    · obtain ⟨t, ht, hfe, hpe, hroom, hfull, hopen, hclose⟩ := serialCharacter_spec p ch pBit low taps hrx hhunts harms hobey hxoff hmode
      refine ⟨t, ht, fun h _ => hfe h, fun h _ => hpe h, hroom, hfull, hopen, fun a b c d f g => ?_⟩
      obtain ⟨w, rfl, htext, hframer, htaken, hrejected⟩ := hclose a b c d f g
      exact ⟨htext, hframer, htaken, hrejected⟩
  · obtain ⟨htext', hcount⟩ := rawClose_spec p.isLt htext 0
    exact ⟨_, exec_rawGapClose_due p hrx hmode htext hidle hgap, htext', hcount⟩

end Sys2Proof.Proofs
end

section
/-! # Settings at the boundary, and the staging of an item (R129, R141) -/

namespace Sys2Proof.Machine

/-! ## Settings (R141) -/

theorem serial_finish (s : State) (k st r0 r1 q : Nat) : serial (finish s k st r0 r1) q = serial s q := by
  obtain ⟨r, g, o, fr, hd, h⟩ := finish_frame s k st r0 r1
  exact serial_of_serial (by rw [h]) q

/-- Where the settings that wait stand once a direction has taken them: the PORT_SET ends with the later direction. -/
theorem settingsDone_spec (s : State) (p slot : Nat) :
    (serial (settingsDone s p slot) p).setTx = (serial s p).setTx ∧ (serial (settingsDone s p slot) p).setRx = (serial s p).setRx
      ∧ (∀ q, q ≠ p → serial (settingsDone s p slot) q = serial s q)
      ∧ ((serial s p).setTx = none → (serial s p).setRx = none → cmdAt (settingsDone s p slot) slot = none) := by
  unfold settingsDone
  split
  · have hleash := leashServed_leashUpdate s p
    obtain ⟨-, -, -, -, htx, hrx⟩ := hleash.port.receiver
    refine ⟨?_, ?_, fun q hq => ?_, fun _ _ => cmdAt_finish _ _ _ _ _⟩
    · rw [serial_finish, htx]
    · rw [serial_finish, hrx]
    · rw [serial_finish, hleash.others q hq]
  · rename_i hpending
    exact ⟨rfl, rfl, fun _ _ => rfl, fun htx hrx => absurd (by simp [htx, hrx]) hpending⟩

/-- A transmitter reaches its character boundary. -/
theorem exec_serialSettingsApply_tx {s : State} (p : Fin 128) (htick : ticking s = true) {slot k : Nat} {at_ : Int}
    (hset : (serial s p).setTx = some (slot, at_, k)) (hdue : at_ ≤ tbTime s) :
    exec (.serialSettingsApply p false) s = .next (settingsDone (setSerial s p
      { serial s p with run := (serial s p).run.map (txRest s p k at_), setTx := none }) p slot) := by
  have hexec : exec (.serialSettingsApply p false) s = execSerialSettingsApply p false s := rfl
  rw [hexec, execSerialSettingsApply]
  simp only [hset, htick, hdue, Bool.false_eq_true, decide_true, Bool.and_self, if_false, if_true]

theorem serialSettings_tx {s : State} (p : Fin 128) (htick : ticking s = true) {slot k : Nat} {at_ : Int}
    (hset : (serial s p).setTx = some (slot, at_, k)) (hdue : at_ ≤ tbTime s) :
    ∃ t, exec (.serialSettingsApply p false) s = .next t ∧ (serial t p).setTx = none
      ∧ ((serial s p).setRx = none → cmdAt t slot = none) ∧ ∀ q, q ≠ p.val → serial t q = serial s q := by
  have hport := serial_setSerial_same s p { serial s p with run := (serial s p).run.map (txRest s p k at_), setTx := none }
  obtain ⟨htx, -, hothers, hdone⟩ := settingsDone_spec
    (setSerial s p { serial s p with run := (serial s p).run.map (txRest s p k at_), setTx := none }) p slot
  rw [hport] at htx hdone
  refine ⟨_, exec_serialSettingsApply_tx p htick hset hdue, htx, hdone rfl, fun q hq => (hothers q hq).trans ?_⟩
  rw [serial_setSerial, if_neg hq]

/-- A receiver reaches its character boundary. -/
theorem exec_serialSettingsApply_rx {s : State} (p : Fin 128) (htick : ticking s = true) {slot tb : Nat}
    (hset : (serial s p).setRx = some (slot, tb)) :
    exec (.serialSettingsApply p true) s = .next (if tb ≤ s.time.tb then settingsDone (setSerial s p { serial s p with setRx := none }) p slot
      else s) := by
  have hexec : exec (.serialSettingsApply p true) s = execSerialSettingsApply p true s := rfl
  rw [hexec, execSerialSettingsApply]
  by_cases hdue : tb ≤ s.time.tb
  · simp only [hset, htick, hdue, decide_true, Bool.and_self, if_true]
  · simp only [hset, htick, hdue, decide_false, Bool.and_false, Bool.false_eq_true, if_false, if_true]

theorem serialSettings_rx {s : State} (p : Fin 128) (htick : ticking s = true) {slot tb : Nat}
    (hset : (serial s p).setRx = some (slot, tb)) (hdue : tb ≤ s.time.tb) :
    ∃ t, exec (.serialSettingsApply p true) s = .next t ∧ (serial t p).setRx = none
      ∧ ((serial s p).setTx = none → cmdAt t slot = none) ∧ ∀ q, q ≠ p.val → serial t q = serial s q := by
  have hport := serial_setSerial_same s p { serial s p with setRx := none }
  obtain ⟨-, hrx, hothers, hdone⟩ := settingsDone_spec (setSerial s p { serial s p with setRx := none }) p slot
  rw [hport] at hrx hdone
  refine ⟨_, (exec_serialSettingsApply_rx p htick hset).trans (by rw [if_pos hdue]), hrx, fun h => hdone h rfl,
    fun q hq => (hothers q hq).trans ?_⟩
  rw [serial_setSerial, if_neg hq]

/-! ## Staging (R129, R231, R232) -/

/-- Words that all read good fail no copy. -/
theorem copyCheck_good {s : State} (harms : s.integ.arms = []) (c : Copy) (units : List Nat) {n i : Nat}
    (hgood : ∀ j, i ≤ j → j < i + n → memGood (memGet s .pool (16 * c.gran + j)) = true) : copyCheck s c units i n = (s, none) := by
  induction n generalizing i with
  | zero => rfl
  | succ n ih =>
    have hread := memRead_good harms (hgood i (le_refl i) (by omega)) units
    rw [copyCheck, hread]
    exact ih fun j hj hlt => hgood j (by omega) (by omega)

/-- The copy that goes first is taken, where its words read good, with the bytes that its run of the pool holds. -/
theorem lqNext_copy {s : State} {kind num lead : Nat} {queue : Option Nat} {c : Copy} (harms : s.integ.arms = [])
    (hgood : ∀ i, i < 8 + ceilDiv c.len 4 → memGood (memGet s .pool (16 * c.gran + i)) = true)
    (hbest : bestCand s (candidates s kind num queue lead []) = some (.copy c)) :
    lqNext s kind num queue lead = (countStart (dropCopy s c.arrival) c.listener, some { c with body := poolBody s c }) := by
  have hcheck : copyCheck s c [epUnit kind num] 0 (8 + ceilDiv c.len 4) = (s, none) :=
    copyCheck_good harms c _ fun j _ hj => hgood j (by omega)
  rw [lqNext, lqFuel, lqTake, hbest]
  simp only [hcheck, Bool.not_true, Bool.false_eq_true, if_false]

/-- Whether an item is late depends on the clock and its rate alone. -/
theorem stageLate_congr {s t : State} (htime : t.time = s.time) (hrate : reg t Reg.rate = reg s Reg.rate) {c d : Copy}
    (hlaunch : d.launch = c.launch) : stageLate t d = stageLate s c := by
  unfold stageLate dBefore dNow now
  rw [hlaunch, htime, hrate]

theorem reg_dropCopy (s : State) (arrival off : Nat) : reg (dropCopy s arrival) off = reg s off := rfl

/-- The item that is first in its queue is taken from it, and counted. -/
theorem serialTake_copy {s : State} {p : Nat} {c : Copy} (harms : s.integ.arms = [])
    (hgood : ∀ i, i < 8 + ceilDiv c.len 4 → memGood (memGet s .pool (16 * c.gran + i)) = true)
    (hbest : bestCand s (candidates s 1 p none 256 []) = some (.copy c)) :
    ∃ v, serialTake s p = setSerial (countStart (dropCopy s c.arrival) c.listener) p v
      ∧ v.staged = some (txItem { c with body := poolBody s c } (stageLate s c)) := by
  have hrate : reg (countStart (dropCopy s c.arrival) c.listener) Reg.rate = reg s Reg.rate := by
    rw [countStart, reg_count_other, reg_dropCopy]
    unfold Reg.rate Reg.lqSent
    omega
  have htime : (countStart (dropCopy s c.arrival) c.listener).time = s.time := count_time _ _ _ _ _
  have hlate : stageLate (countStart (dropCopy s c.arrival) c.listener) { c with body := poolBody s c } = stageLate s c :=
    stageLate_congr htime hrate rfl
  rw [serialTake, lqNext_copy harms hgood hbest]
  dsimp only
  rw [hlate]
  exact ⟨_, rfl, rfl⟩

theorem serialItemStage_spec {s : State} (p : Fin 128) {c : Copy} (hfree : txFree s p = true) (hmode : spMode s p ≠ 1)
    (harms : s.integ.arms = []) (hgood : ∀ i, i < 8 + ceilDiv c.len 4 → memGood (memGet s .pool (16 * c.gran + i)) = true)
    (hbest : bestCand s (candidates s 1 p none 256 []) = some (.copy c))
    (hdue : s.lq.copies.any (fun c => boundTo c.w0 1 p none && c.launch.isSome && copyReady s 256 c) = true) :
    ∃ t, exec (.serialItemStage p) s = .next t
      ∧ (serial t p).staged = some (txItem { c with body := poolBody s c } (stageLate s c))
        ∧ t.lq.copies = s.lq.copies.filter (fun d => d.arrival != c.arrival)
      ∧ total t (Reg.lqSent c.listener) 0 = (total s (Reg.lqSent c.listener) 0 + 1) % 2 ^ 32
      ∧ ∀ q, q ≠ p.val → serial t q = serial s q := by
  have hexec : exec (.serialItemStage p) s = .next (serialTake s p) := by
    have hdispatch : exec (.serialItemStage p) s = execSerialItemStage p s := rfl
    have hfull : (spMode s p != 1) = true := by simpa using hmode
    rw [hdispatch, execSerialItemStage]
    simp only [hfree, hfull, hdue, Bool.and_self, if_true]
  obtain ⟨v, htake, hstaged⟩ := serialTake_copy harms hgood hbest
  rw [htake] at hexec
  have hcount : total (countStart (dropCopy s c.arrival) c.listener) (Reg.lqSent c.listener) 0 = _ :=
    total_count (dropCopy s c.arrival) (Reg.lqSent c.listener) 31 0 1
  have hports : ∀ q, serial (countStart (dropCopy s c.arrival) c.listener) q = serial s q := fun q => rfl
  have hcopies : (countStart (dropCopy s c.arrival) c.listener).lq.copies = s.lq.copies.filter (fun d => d.arrival != c.arrival) := rfl
  generalize countStart (dropCopy s c.arrival) c.listener = x at hexec hcount hports hcopies
  refine ⟨_, hexec, ?_, hcopies, hcount, fun q hq => ?_⟩
  · rw [serial_setSerial_same, hstaged]
  · rw [serial_setSerial, if_neg hq, hports]

end Sys2Proof.Machine
end

section
/-! # The start of an item (R124, R128, R131) -/

namespace Sys2Proof.Machine

/-- From s to t only free bits and words were drawn. -/
def Drawn (s t : State) : Prop := ∃ n, t = { s with freeCount := n }

theorem Drawn.refl (s : State) : Drawn s s := ⟨s.freeCount, rfl⟩

theorem Drawn.trans {s t u : State} (h : Drawn s t) (k : Drawn t u) : Drawn s u := by
  obtain ⟨n, rfl⟩ := h
  obtain ⟨m, rfl⟩ := k
  exact ⟨m, rfl⟩

theorem drawn_takeBit (s : State) : Drawn s (takeBit s).1 := ⟨_, rfl⟩

/-! ## Where the start edge goes -/

/-- A multiple of 50 ps that is half of one away, cut down to a whole number. -/
theorem near_of_half {q v : Int} (hlo : v * 10 ≤ q * 32768 + 16384) (hhi : q * 32768 ≤ v * 10 + 16384) :
    (q * 16384 / 5 - v).natAbs ≤ 1639 := by
  have hfloor : q * 16384 / 5 * 5 ≤ q * 16384 ∧ q * 16384 < q * 16384 / 5 * 5 + 5 := by omega
  generalize q * 16384 / 5 = a at hfloor
  omega

/-- The nearest 50 ps, counted in 50 ps. -/
theorem round50ps_spec (s : State) (v : Int) :
    ∃ x q, round50ps s v = (x, q) ∧ Drawn s x ∧ (q * 16384 / 5 - v).natAbs ≤ 1639 := by
  unfold round50ps
  extract_lets r q
  have hdiv : q * 32768 + r = v * 10 := Int.ediv_mul_add_emod (v * 10) 32768
  have hlow : 0 ≤ r := Int.emod_nonneg _ (by decide)
  have hhigh : r < 32768 := Int.emod_lt_of_pos _ (by decide)
  clear_value r q
  split
  · exact ⟨s, q, rfl, .refl s, near_of_half (by linarith) (by linarith)⟩
  · split
    · exact ⟨s, q + 1, rfl, .refl s, near_of_half (by linarith) (by linarith)⟩
    · refine ⟨(takeBit s).1, q + (b2n (takeBit s).2 : Nat), rfl, drawn_takeBit s, ?_⟩
      cases (takeBit s).2 with
      | false => exact near_of_half (by simp [b2n]; omega) (by simp [b2n]; omega)
      | true => exact near_of_half (by simp [b2n]; omega) (by simp [b2n]; omega)

/-- The first PS edge from a time on. -/
theorem psEdge_spec (s : State) (t : Int) : ∃ x e, psEdge s t = (x, e) ∧ Drawn s x ∧ t ≤ e ∧ e < t + 555556 := by
  refine ⟨_, _, rfl, ⟨_, rfl⟩, by omega, ?_⟩
  have hlt := Nat.mod_lt (takeWord s).2.toNat (show 0 < 555556 by decide)
  omega

/-- The end before an item where it has just passed, else the next PS edge. -/
def txSoon (s : State) (p : Nat) : State × Int :=
  if decide ((serial s p).freeAt ≤ tbTime s) && decide (tbTime s < (serial s p).freeAt + 262144) && decide (0 < (serial s p).freeAt) then
    (s, (serial s p).freeAt)
  else psEdge s (tbTime s)

theorem drawn_txSoon (s : State) (p : Nat) : Drawn s (txSoon s p).1 := by
  obtain ⟨x, e, hedge, hdrawn, -⟩ := psEdge_spec s (tbTime s)
  unfold txSoon
  split
  · exact .refl s
  · rw [hedge]
    exact hdrawn

theorem txSoon_spec {s : State} {p : Nat} (hfree : (serial s p).freeAt ≤ tbTime s) :
    (serial s p).freeAt ≤ (txSoon s p).2 ∧ (txSoon s p).2 < tbTime s + 555556 := by
  unfold txSoon
  split
  · exact ⟨le_refl _, by dsimp only; omega⟩
  · obtain ⟨x, e, hedge, -, hfrom, hto⟩ := psEdge_spec s (tbTime s)
    rw [hedge]
    exact ⟨le_trans hfree hfrom, hto⟩

/-- An item that waits for no time starts at the end before it or at a PS edge. -/
theorem txPlace_soon (s : State) (p : Nat) {it : TxItem} (hlaunch : it.launch = none) :
    txPlace s p it = ((txSoon s p).1, some ((txSoon s p).2, false)) := by
  unfold txPlace txSoon
  rw [hlaunch]

/-! ## What goes onto the line -/

/-- The data bits of a character are the low bits of its byte. -/
theorem charMask_eq_and (s : State) (p : Nat) (b : Byte) :
    charMask s p b = b &&& BitVec.ofNat 8 (2 ^ (5 + regF s (Reg.spFormat p) 1 0) - 1) := by
  have hbits : regF s (Reg.spFormat p) 1 0 < 2 ^ 2 := fld_lt _ 1 0
  rw [charMask]
  generalize regF s (Reg.spFormat p) 1 0 = f at hbits ⊢
  have hpow : 2 ^ (5 + f) ≤ 2 ^ 8 := Nat.pow_le_pow_right (by decide) (by omega)
  have hpos : 0 < 2 ^ (5 + f) := Nat.two_pow_pos _
  have hmask : (2 ^ (5 + f) - 1) % 2 ^ 8 = 2 ^ (5 + f) - 1 := Nat.mod_eq_of_lt (by omega)
  have hlow : b.toNat % 2 ^ (5 + f) % 2 ^ 8 = b.toNat % 2 ^ (5 + f) := Nat.mod_eq_of_lt ((Nat.mod_lt _ hpos).trans_le hpow)
  refine BitVec.eq_of_toNat_eq ?_
  rw [BitVec.toNat_and, BitVec.toNat_ofNat, BitVec.toNat_ofNat, hmask, Nat.and_two_pow_sub_one_eq_mod]
  exact hlow

/-- An item without a block, at its place on the line. -/
def txStarted (s : State) (p : Nat) (it : TxItem) (at_ : Int) : TxRun :=
  { item := it, bytes := it.body.map (charMask s p),
    start := ⟨stMove (now s) (at_ - tbTime s - sext 24 (regF s (Reg.spTxAdj p) 23 0)), newestEpoch s (p / 16), s.time.steps⟩,
    startAt := at_, base := at_, sent := 0, endAt := at_ + (charsTime s p (it.body.map (charMask s p)).length : Nat), pause := none }

/-- The state with an item on the line of a port. -/
def onLine (s : State) (p : Nat) (r : TxRun) : State :=
  emit (setSerial s p { serial s p with staged := none, run := some r }) (.serialItem p r.bytes r.start.stamp)

theorem txBegin_eq {s : State} {p : Nat} {it : TxItem} (htag : it.tag = none) {e : Int} {x : State} {q : Int}
    (hround : round50ps s e = (x, q)) : txBegin s p it e false = onLine x p (txStarted x p it (q * 16384 / 5)) := by
  unfold txBegin
  rw [hround, htag]
  rfl

theorem txStarted_drawn {s x : State} (h : Drawn s x) (p : Nat) (it : TxItem) (at_ : Int) : txStarted x p it at_ = txStarted s p it at_ := by
  obtain ⟨n, rfl⟩ := h
  rfl

/-- An item without a block goes onto the line at the nearest 50 ps; only free bits are drawn for it. -/
theorem txBegin_drawn {s x : State} (hx : Drawn s x) (p : Nat) {it : TxItem} (htag : it.tag = none) (e : Int) :
    ∃ y q, Drawn s y ∧ txBegin x p it e false = onLine y p (txStarted s p it (q * 16384 / 5)) ∧ (q * 16384 / 5 - e).natAbs ≤ 1639 := by
  obtain ⟨y, q, hround, hdrawn, hnear⟩ := round50ps_spec x e
  have hy := hx.trans hdrawn
  exact ⟨y, q, hy, (txBegin_eq htag hround).trans (by rw [txStarted_drawn hy]), hnear⟩

theorem serial_drawn {s x : State} (h : Drawn s x) (p : Nat) : serial x p = serial s p := by
  obtain ⟨n, rfl⟩ := h
  rfl

theorem serial_onLine (s : State) (p : Nat) (r : TxRun) (q : Nat) :
    serial (onLine s p r) q = if q = p then { serial s p with staged := none, run := some r } else serial s q := by
  rw [onLine, serial_emit, serial_setSerial]

/-- An item on the line changes its port, and what leaves the hub. -/
theorem onLine_frame {s x : State} (h : Drawn s x) (p : Nat) (r : TxRun) :
    (onLine x p r).out = s.out ++ [.serialItem p r.bytes r.start.stamp]
      ∧ onLine x p r = { s with serial := (onLine x p r).serial, out := (onLine x p r).out, freeCount := (onLine x p r).freeCount } := by
  obtain ⟨n, rfl⟩ := h
  exact ⟨rfl, rfl⟩

/-! ## SERIAL_ITEM_START (R128) -/

theorem exec_serialItemStart_due {s : State} (p : Fin 128) {it : TxItem} (htick : ticking s = true) (hstaged : (serial s p).staged = some it)
    (hen : portEn s 0 p = true) (howns : owns s (epSerial p) = true) (hmode : spMode s p ≠ 1) (hrun : (serial s p).run = none)
    (hpaused : regB s (Reg.spStatus p) 13 = false) (hfree : (serial s p).freeAt ≤ tbTime s) (hlaunch : it.launch = none) :
    exec (.serialItemStart p) s = .next (txBegin (txSoon s p).1 p it (txSoon s p).2 false) := by
  have hexec : exec (.serialItemStart p) s = execSerialItemStart p s := rfl
  have hfull : (spMode s p != 1) = true := by simpa using hmode
  rw [hexec, execSerialItemStart]
  simp only [hstaged, htick, hen, howns, hfull, hrun, hpaused, hfree, txPlace_soon s p hlaunch, Option.isNone_none, decide_true, Bool.not_false,
    Bool.and_self, Bool.not_true, Bool.false_eq_true, if_false]

theorem serialItemStart_spec {s : State} (p : Fin 128) {it : TxItem} (htick : ticking s = true) (hstaged : (serial s p).staged = some it)
    (hen : portEn s 0 p = true) (howns : owns s (epSerial p) = true) (hmode : spMode s p ≠ 1) (hrun : (serial s p).run = none)
    (hpaused : regB s (Reg.spStatus p) 13 = false) (hfree : (serial s p).freeAt ≤ tbTime s) (hlaunch : it.launch = none)
    (htag : it.tag = none) :
    ∃ t r, exec (.serialItemStart p) s = .next t ∧ (serial t p).run = some r ∧ (serial t p).staged = none
      ∧ r.item = it ∧ r.bytes = it.body.map (fun b => b &&& BitVec.ofNat 8 (2 ^ (5 + regF s (Reg.spFormat p) 1 0) - 1))
      ∧ r.endAt = r.startAt + (charsTime s p it.body.length : Nat)
      ∧ (∃ e : Int, (serial s p).freeAt ≤ e ∧ e < tbTime s + 555556
        ∧ (r.startAt - e).natAbs ≤ 1639 ∧ ∃ q : Int, r.startAt = q * 16384 / 5)
      ∧ t.out = s.out ++ [.serialItem p r.bytes r.start.stamp] ∧ (∀ q, q ≠ p.val → serial t q = serial s q)
      ∧ t = { s with serial := t.serial, out := t.out, freeCount := t.freeCount } := by
  have hexec := exec_serialItemStart_due p htick hstaged hen howns hmode hrun hpaused hfree hlaunch
  have hdrawn := drawn_txSoon s p
  obtain ⟨hfrom, hto⟩ := txSoon_spec (s := s) (p := p) hfree
  generalize txSoon s p = soon at hexec hdrawn hfrom hto
  obtain ⟨y, q, hy, hbegin, hnear⟩ := txBegin_drawn hdrawn p htag soon.2
  have hbytes : (txStarted s p it (q * 16384 / 5)).bytes = it.body.map (charMask s p) := rfl
  have hend : (txStarted s p it (q * 16384 / 5)).endAt
      = (txStarted s p it (q * 16384 / 5)).startAt + (charsTime s p (it.body.map (charMask s p)).length : Nat) := rfl
  have hitem : (txStarted s p it (q * 16384 / 5)).item = it := rfl
  have hstart : (txStarted s p it (q * 16384 / 5)).startAt = q * 16384 / 5 := rfl
  rw [List.length_map] at hend
  generalize txStarted s p it (q * 16384 / 5) = r at hbegin hbytes hend hitem hstart
  obtain ⟨hout, hframe⟩ := onLine_frame hy p r
  have hport := serial_onLine y p r p
  rw [if_pos rfl] at hport
  refine ⟨onLine y p r, r, hexec.trans (by rw [hbegin]), by rw [hport], by rw [hport], hitem, ?_, hend,
    ⟨soon.2, hfrom, hto, by rw [hstart]; exact hnear, q, hstart⟩, hout, fun j hj => ?_, hframe⟩
  · rw [hbytes]
    exact List.map_congr_left fun b _ => charMask_eq_and s p b
  · rw [serial_onLine, if_neg hj, serial_drawn hy]

end Sys2Proof.Machine
end

section
/-! # The end of an item (R131, R239, R367) -/

namespace Sys2Proof.Machine

/-- The counters that a transmitter's departures are told from: those of the serial ports, and that of the detector of collisions. -/
def TxCounter (off : Nat) : Prop := (0x10000 ≤ off ∧ off < 0x30000) ∨ off = Reg.detCount 0x14

/-- From s to t the ports, their counters, and those of their registers that no TAIL of a ring can be stay. -/
structure TxStill (s t : State) : Prop where
  serial : t.serial = s.serial
  reg : ∀ off, 0x10000 ≤ off → off < 0x30000 → off % 0x20 ≠ 0x10 → reg t off = reg s off
  total : ∀ off lo, TxCounter off → lo < 32 → total t off lo = total s off lo

theorem TxStill.refl (s : State) : TxStill s s := ⟨rfl, fun _ _ _ _ => rfl, fun _ _ _ _ => rfl⟩

theorem TxStill.trans {s t u : State} (h : TxStill s t) (k : TxStill t u) : TxStill s u :=
  ⟨k.serial.trans h.serial, fun off a b c => (k.reg off a b c).trans (h.reg off a b c),
    fun off lo a b => (k.total off lo a b).trans (h.total off lo a b)⟩

theorem TxStill.foldl {α : Type} {f : State → α → State} (hf : ∀ s a, TxStill s (f s a)) (l : List α) (s : State) :
    TxStill s (l.foldl f s) :=
  List.foldlRecOn l f (.refl s) fun t ht a _ => ht.trans (hf t a)

/-- A counter beyond the ports' registers counts. -/
theorem txStill_count (s : State) {off lo : Nat} (hoff : 0x30000 ≤ off) (hlo : lo < 32) (hdet : off ≠ Reg.detCount 0x14) (hi n : Nat) :
    TxStill s (count s off hi lo n) := by
  refine ⟨rfl, fun o _ ho _ => reg_count_other (by omega), fun o l ho hl => total_count_other s hi n fun e => ?_⟩
  have hsame : o = off := by omega
  rcases ho with ⟨-, ho⟩ | ho
  · omega
  · exact hdet (hsame ▸ ho)

/-! ## Echo (R53, R239) -/

theorem txStill_ringWrite (s : State) (n units : Nat) (ws : List Word) : TxStill s (ringWrite s (n + 2) units ws) := by
  have hregs := sameRegs_ringWrite s (n + 2) units ws
  have hoff : ringOff (n + 2) + 16 = 0x1810 + 0x20 * n := by
    unfold ringOff
    rw [if_neg (by simp), if_neg (by simp)]
    omega
  rw [hoff] at hregs
  refine ⟨?_, fun off _ _ hmod => hregs off ?_, fun off lo _ _ => ?_⟩
  · rw [ringWrite_eq]
    rfl
  · rw [List.mem_singleton]
    omega
  · rw [ringWrite_eq, total_setF]
    rfl

theorem txStill_ringAnnounce (s : State) (r : Nat) : TxStill s (ringAnnounce s r) := by
  have hregs : ∀ off, 0x10000 ≤ off → reg (ringAnnounce s r) off = reg s off := fun off hoff => by
    refine reg_ringAnnounce s r ?_
    unfold ringReg
    omega
  obtain ⟨g, rg, o, h⟩ := ringAnnounce_frame s r
  rw [h] at hregs ⊢
  exact ⟨rfl, fun off hlo _ _ => hregs off hlo, fun _ _ _ _ => rfl⟩

theorem txStill_setRing (s : State) (r : Nat) (g : Ring) : TxStill s (setRing s r g) := ⟨rfl, fun _ _ _ _ => rfl, fun _ _ _ _ => rfl⟩

theorem txStill_hrWrite (s : State) (n kind listener : Nat) (inj : Bool) (payload : List Byte) :
    TxStill s (hrWrite s n kind listener inj payload) := by
  unfold hrWrite
  extract_lets r units left x g y
  have hx : TxStill s x := by
    unfold x
    split
    · exact txStill_ringWrite s n _ _
    · exact .refl s
  have hy : TxStill x y := txStill_ringWrite x n _ _
  exact (hx.trans hy).trans ((txStill_setRing y r _).trans (txStill_ringAnnounce _ r))

theorem txStill_echoWrite (s : State) (listener ring : Nat) (e : Edge) (bytes : List Byte) (inj : Bool) :
    TxStill s (echoWrite s listener ring e bytes inj) := by
  unfold echoWrite
  extract_lets payload
  split
  · exact txStill_hrWrite s _ _ _ _ _
  · refine txStill_count s ?_ (by decide) ?_ 15 1
    · unfold Reg.lqEchoLost
      omega
    · unfold Reg.lqEchoLost Reg.detCount
      omega

/-! ## A release that waited for the end (R230, R367) -/

theorem txStill_flushCopies (s : State) (p : Copy → Bool) : TxStill s (flushCopies s p).1 := by
  unfold flushCopies
  extract_lets gone q x
  have hx : TxStill s x := ⟨rfl, fun _ _ _ _ => rfl, fun _ _ _ _ => rfl⟩
  refine hx.trans (.foldl (fun y c => txStill_count y ?_ (by decide) ?_ 31 1) gone x)
  · unfold Reg.lqFlushed
    omega
  · unfold Reg.lqFlushed Reg.detCount
    omega

theorem txStill_releaseDone (s : State) (e : Nat) : TxStill s (releaseDone s e) := by
  have hdisown : TxStill s (disown s e) := ⟨rfl, fun _ _ _ _ => rfl, fun _ _ _ _ => rfl⟩
  unfold releaseDone releaseNow flushOwner
  split
  · obtain ⟨k, n⟩ := endpointKind e
    dsimp only
    split
    · exact hdisown
    · have hflush := txStill_flushCopies (disown s e) (fun c => boundTo c.w0 k n none)
      exact (hdisown.trans hflush).trans ⟨rfl, fun _ _ _ _ => rfl, fun _ _ _ _ => rfl⟩
  · exact .refl s

/-! ## SERIAL_ITEM_END (R131) -/

/-- The departure of an item shows in the stamp and the count of its port. -/
theorem txDeparted_spec (s : State) {p : Nat} (hp : p < 128) (r : TxRun) :
    (txDeparted s p r).serial = s.serial
      ∧ total (txDeparted s p r) (Reg.spTxCount p) 0 = (total s (Reg.spTxCount p) 0 + 1) % 2 ^ 32
      ∧ reg (txDeparted s p r) (Reg.spTxStampSec p) = shortSec r.start.stamp
      ∧ reg (txDeparted s p r) (Reg.spTxStampNs p) = shortNs r.start.stamp := by
  have hne : Reg.spTxStampSec p ≠ Reg.spTxStampNs p := by
    unfold Reg.spTxStampSec Reg.spTxStampNs
    omega
  unfold txDeparted
  extract_lets x y
  have hx : x.serial = s.serial ∧ total x (Reg.spTxCount p) 0 = (total s (Reg.spTxCount p) 0 + 1) % 2 ^ 32 :=
    ⟨rfl, total_count s _ 31 0 1⟩
  have hsec : reg y (Reg.spTxStampSec p) = shortSec r.start.stamp := by rw [reg_setReg, if_neg hne, reg_setReg, if_pos rfl]
  have hns : reg y (Reg.spTxStampNs p) = shortNs r.start.stamp := by rw [reg_setReg, if_pos rfl]
  have hy : y.serial = x.serial ∧ total y (Reg.spTxCount p) 0 = total x (Reg.spTxCount p) 0 := by
    clear_value x
    exact ⟨rfl, rfl⟩
  clear_value y
  have hserial := hy.1.trans hx.1
  have hcount := hy.2.trans hx.2
  split
  · have hecho := txStill_echoWrite y r.item.listener r.item.echoRing r.start r.bytes r.item.inj
    generalize echoWrite y r.item.listener r.item.echoRing r.start r.bytes r.item.inj = z at hecho
    have hcount' := hecho.total (Reg.spTxCount p) 0 (.inl (by unfold Reg.spTxCount; omega)) (by decide)
    have hsec' := hecho.reg (Reg.spTxStampSec p) (by unfold Reg.spTxStampSec; omega) (by unfold Reg.spTxStampSec; omega)
      (by unfold Reg.spTxStampSec; omega)
    have hns' := hecho.reg (Reg.spTxStampNs p) (by unfold Reg.spTxStampNs; omega) (by unfold Reg.spTxStampNs; omega)
      (by unfold Reg.spTxStampNs; omega)
    exact ⟨hecho.serial.trans hserial, hcount'.trans hcount, hsec'.trans hsec, hns'.trans hns⟩
  · exact ⟨hserial, hcount, hsec, hns⟩

/-- The port behind the last stop bit of an item. -/
def txEnded (s : State) (p : Nat) (r : TxRun) : SerialPort :=
  let v := { serial s p with run := none, freeAt := r.endAt, attempts := 0, gapTb := s.time.tb }
  if spMode s p == 1 then { v with idleTb := s.time.tb, lag := true } else v

theorem txEnded_run (s : State) (p : Nat) (r : TxRun) : (txEnded s p r).run = none ∧ (txEnded s p r).freeAt = r.endAt := by
  unfold txEnded
  dsimp only
  split <;> exact ⟨rfl, rfl⟩

theorem exec_serialItemEnd_due {s : State} (p : Fin 128) {r : TxRun} (htick : ticking s = true) (hrun : (serial s p).run = some r)
    (hpause : r.pause = none) (hset : (serial s p).setTx = none) (hend : r.endAt ≤ tbTime s) :
    exec (.serialItemEnd p) s = .next (releaseDone (txDeparted (setSerial s p (txEnded s p r)) p r) (epSerial p)) := by
  have hexec : exec (.serialItemEnd p) s = execSerialItemEnd p s := rfl
  have hover : decide (tbTime s < r.endAt) = false := decide_eq_false (not_lt.2 hend)
  have hdue : ¬(!ticking s || r.pause.isSome || (serial s p).setTx.isSome || decide (tbTime s < r.endAt)) = true := by
    simp only [htick, hpause, hset, hover, Option.isSome_none, Bool.not_true, Bool.or_self, Bool.false_eq_true, not_false_eq_true]
  rw [hexec, execSerialItemEnd]
  dsimp only
  rw [hrun]
  exact if_neg hdue

theorem serialItemEnd_spec {s : State} (p : Fin 128) {r : TxRun} (htick : ticking s = true) (hrun : (serial s p).run = some r)
    (hpause : r.pause = none) (hset : (serial s p).setTx = none) (hend : r.endAt ≤ tbTime s) :
    ∃ t, exec (.serialItemEnd p) s = .next t ∧ (serial t p).run = none ∧ (serial t p).freeAt = r.endAt
      ∧ total t (Reg.spTxCount p) 0 = (total s (Reg.spTxCount p) 0 + 1) % 2 ^ 32
      ∧ reg t (Reg.spTxStampSec p) = BitVec.ofNat 32 (stSec r.start.stamp) ∧ reg t (Reg.spTxStampNs p) = BitVec.ofNat 32 (stNs r.start.stamp)
      ∧ ∀ q, q ≠ p.val → serial t q = serial s q := by
  have hp := p.isLt
  have hexec := exec_serialItemEnd_due p htick hrun hpause hset hend
  obtain ⟨hnone, hfree⟩ := txEnded_run s p r
  generalize txEnded s p r = v at hexec hnone hfree
  have hcounted : total (setSerial s p v) (Reg.spTxCount p) 0 = total s (Reg.spTxCount p) 0 := rfl
  have hports : ∀ q, serial (setSerial s p v) q = if q = p.val then v else serial s q := fun q => serial_setSerial s p q v
  generalize setSerial s p v = x at hexec hcounted hports
  obtain ⟨hserial, hcount, hsec, hns⟩ := txDeparted_spec x hp r
  generalize txDeparted x p r = y at hexec hserial hcount hsec hns
  have hrel := txStill_releaseDone y (epSerial p)
  have hport : ∀ q, serial (releaseDone y (epSerial p)) q = if q = p.val then v else serial s q := fun q => by
    rw [serial_of_serial (hrel.serial.trans hserial), hports]
  refine ⟨_, hexec, ?_, ?_, ?_, (hrel.reg _ ?_ ?_ ?_).trans hsec, (hrel.reg _ ?_ ?_ ?_).trans hns, fun q hq => ?_⟩
  · rw [hport, if_pos rfl, hnone]
  · rw [hport, if_pos rfl, hfree]
  · rw [hrel.total _ 0 (.inl (by unfold Reg.spTxCount; omega)) (by decide), hcount, hcounted]
  iterate 6 (simp only [Reg.spTxStampSec, Reg.spTxStampNs]; omega)
  · rw [hport, if_neg hq]

end Sys2Proof.Machine
end

section
/-! # Half duplex: attempts and collisions (R146, R147) -/

namespace Sys2Proof.Machine

/-! ## An attempt (R146) -/

theorem arms_drawn {s x : State} (h : Drawn s x) : x.integ.arms = s.integ.arms := by
  obtain ⟨n, rfl⟩ := h
  rfl

/-- An attempt that waits for no time and is not injected goes onto the line. -/
theorem txAttempt_soon {s : State} {p : Nat} {it : TxItem} (harms : s.integ.arms = []) (hlaunch : it.launch = none) :
    txAttempt s p it = txBegin (txSoon s p).1 p it (txSoon s p).2 false := by
  have hnone := injected_none ((arms_drawn (drawn_txSoon s p)).trans harms) 0x14 [unitSerial p]
  rw [txAttempt, txPlace_soon s p hlaunch]
  simp only [hnone, Bool.false_eq_true, if_false]

theorem exec_halfDuplexAttempt_due {s : State} (p : Fin 128) {it : TxItem} (htick : ticking s = true) (hopen : epOpen s 1 p = true)
    (hmode : spMode s p = 1) (hrun : (serial s p).run = none) (hset : (serial s p).setTx = none) (hstaged : (serial s p).staged = some it)
    (hgap : gapOver s p (serial s p).gap (serial s p).gapTb = true) : exec (.halfDuplexAttempt p) s = .next (txAttempt s p it) := by
  have hexec : exec (.halfDuplexAttempt p) s = .next (halfDuplex s p) := rfl
  have hdue : attemptDue s p = true := by
    simp only [attemptDue, htick, hopen, hmode, hrun, hset, hstaged, hgap, BEq.rfl, Option.isNone_none, Bool.and_self]
  rw [hexec, halfDuplex, hdue]
  simp only [hstaged, Bool.not_true, Bool.false_eq_true, if_false, Option.isSome_some, if_true]

theorem halfDuplexAttempt_spec {s : State} (p : Fin 128) {it : TxItem} (htick : ticking s = true) (hopen : epOpen s 1 p = true)
    (hmode : spMode s p = 1) (hrun : (serial s p).run = none) (hset : (serial s p).setTx = none) (hstaged : (serial s p).staged = some it)
    (hgap : gapOver s p (serial s p).gap (serial s p).gapTb = true) (harms : s.integ.arms = []) (hlaunch : it.launch = none)
    (htag : it.tag = none) :
    ∃ t r, exec (.halfDuplexAttempt p) s = .next t ∧ (serial t p).run = some r ∧ r.bytes = it.body.map (charMask s p)
      ∧ (serial t p).staged = none ∧ ∀ q, q ≠ p.val → serial t q = serial s q := by
  have hexec := exec_halfDuplexAttempt_due p htick hopen hmode hrun hset hstaged hgap
  rw [txAttempt_soon harms hlaunch] at hexec
  have hdrawn := drawn_txSoon s p
  generalize txSoon s p = soon at hexec hdrawn
  obtain ⟨y, q, hy, hbegin, -⟩ := txBegin_drawn hdrawn p htag soon.2
  have hbytes : (txStarted s p it (q * 16384 / 5)).bytes = it.body.map (charMask s p) := rfl
  generalize txStarted s p it (q * 16384 / 5) = r at hbegin hbytes
  have hport := serial_onLine y p r p
  rw [if_pos rfl] at hport
  refine ⟨onLine y p r, r, hexec.trans (by rw [hbegin]), by rw [hport], hbytes, by rw [hport], fun j hj => ?_⟩
  rw [serial_onLine, if_neg hj, serial_drawn hy]

/-! ## What leaves the hub as a detector fires (R52) -/

/-- From s to t the hub sent what it sent, and perhaps more. -/
def Sent (s t : State) : Prop := ∃ os, t.out = s.out ++ os

theorem Sent.refl (s : State) : Sent s s := ⟨[], (List.append_nil _).symm⟩

theorem Sent.of_eq {s t : State} (h : t.out = s.out) : Sent s t := ⟨[], h.trans (List.append_nil _).symm⟩

theorem Sent.trans {s t u : State} (h : Sent s t) (k : Sent t u) : Sent s u := by
  obtain ⟨os, h⟩ := h
  obtain ⟨os', k⟩ := k
  exact ⟨os ++ os', by rw [k, h, List.append_assoc]⟩

theorem sent_ringWrite (s : State) (r units : Nat) (ws : List Word) : Sent s (ringWrite s r units ws) := by
  have hsent : (ringWrite s r units ws).out = (ringSent s r ws).out := by rw [ringWrite_eq, setF_out, setRing_out]
  rw [ringSent, dmaWrite_out, dmaWrite_out, List.append_assoc] at hsent
  exact ⟨_, hsent⟩

theorem sent_ringAnnounce (s : State) (r : Nat) : Sent s (ringAnnounce s r) := by
  obtain ⟨m, hm, -⟩ := out_ringAnnounce s r
  exact ⟨m, hm⟩

theorem sent_event (s : State) (kind det unit d2 d3 : Nat) (inj : Bool) (t : Stamp) : Sent s (event s kind det unit d2 d3 inj t) := by
  unfold event
  dsimp only
  split
  · refine (Sent.of_eq ?_).trans ((sent_ringWrite _ 1 1 _).trans (sent_ringAnnounce _ 1))
    rfl
  · refine Sent.of_eq ?_
    rw [setF_out]

/-- A firing outside a limit period. -/
theorem sent_fire (s : State) (d unit d2 d3 : Nat) (inj : Bool) : Sent s (fire s d unit d2 d3 inj none) := by
  have hcounted : Sent s (detCounted s d) := .of_eq rfl
  have hform : fire s d unit d2 d3 inj none
      = if regB (detCounted s d) (Reg.detEvtMask (d / 32)) (d % 32) then detCounted s d
        else event (detCounted s d) 0 d unit d2 d3 inj (now s) := rfl
  rw [hform]
  split
  · exact hcounted
  · exact hcounted.trans (sent_event _ _ _ _ _ _ _ _)

theorem flushCopies_out (s : State) (p : Copy → Bool) : (flushCopies s p).1.out = s.out := by
  obtain ⟨r, n, h⟩ := flushCopies_frame s p
  rw [h]

theorem sent_releaseDone (s : State) (e : Nat) : Sent s (releaseDone s e) := by
  unfold releaseDone releaseNow flushOwner
  split
  · obtain ⟨k, n⟩ := endpointKind e
    dsimp only
    split
    · exact .of_eq rfl
    · exact .of_eq (flushCopies_out (disown s e) fun c => boundTo c.w0 k n none)
  · exact .refl s

/-! ## A collision (R147) -/

/-- An attempt that collides is counted, stops driving, and ends what the framer holds. -/
def attemptStopped (s : State) (p : Nat) : State := emit (framerDiscard (count s (Reg.spTxErr p) 31 24 1) p) (.serialStop p)

/-- The port once an attempt has stopped. -/
def attemptOver (s : State) (p : Nat) (inj : Bool) : SerialPort :=
  { serial s p with
    run := none, needIdle := true, lag := false, idleTb := s.time.tb, gapTb := s.time.tb, attempts := (serial s p).attempts + 1,
    collInj := (serial s p).collInj || inj }

/-- The eighth attempt was the last. -/
def attemptFailed (s : State) (p : Nat) (v : SerialPort) : State :=
  releaseDone (fire (count (setSerial s p { v with staged := none, attempts := 0, collInj := false }) (Reg.spTxErr p) 23 16 1) 0x14
    (unitSerial p) 0 0 v.collInj none) (epSerial p)

/-- The item waits for a gap that the dice give. -/
def attemptAgain (s : State) (p : Nat) (v : SerialPort) (it : TxItem) : State :=
  let rolled := rollDice (setSerial s p { v with staged := some it }) p
  setSerial rolled.1 p { serial rolled.1 p with gap := rolled.2 }

theorem txCollide_eq (s : State) (p : Nat) (it : TxItem) (inj : Bool) :
    txCollide s p it inj = if 8 ≤ (serial (attemptStopped s p) p).attempts + 1 then
        attemptFailed (attemptStopped s p) p (attemptOver (attemptStopped s p) p inj)
      else attemptAgain (attemptStopped s p) p (attemptOver (attemptStopped s p) p inj) it := by
  unfold txCollide
  have hform : emit (framerDiscard (count s (Reg.spTxErr p) 31 24 1) p) (.serialStop p) = attemptStopped s p := rfl
  rw [hform]
  generalize attemptStopped s p = a
  rfl

theorem total_emit (s : State) (o : Out) (off lo : Nat) : total (emit s o) off lo = total s off lo := rfl

theorem total_setSerial (s : State) (p : Nat) (v : SerialPort) (off lo : Nat) : total (setSerial s p v) off lo = total s off lo := rfl

theorem count_out (s : State) (off hi lo n : Nat) : (count s off hi lo n).out = s.out := rfl

/-- A discard of what a framer holds touches its port and its own counter. -/
theorem framerDiscard_frame (s : State) (p : Nat) :
    (framerDiscard s p).out = s.out ∧ (∀ q, q ≠ p → serial (framerDiscard s p) q = serial s q)
      ∧ (serial (framerDiscard s p) p).attempts = (serial s p).attempts
      ∧ (∀ off lo, lo < 32 → off ≠ Reg.spRxDiscard p → total (framerDiscard s p) off lo = total s off lo) := by
  have hattempts : (serial (framerDiscard s p) p).attempts = (serial s p).attempts := by
    rw [serial_framerDiscard]
    split <;> rfl
  refine ⟨?_, ?_, hattempts, ?_⟩ <;> unfold framerDiscard <;> extract_lets v
  · split
    · rfl
    · rw [count_out, setSerial_out]
  · intro q hq
    split
    · rfl
    · rw [serial_count, serial_setSerial, if_neg hq]
  · intro off lo hlo hoff
    split
    · rfl
    · exact total_count_other _ _ _ (by omega)

theorem attemptStopped_spec (s : State) {p : Nat} (hp : p < 128) :
    (attemptStopped s p).out = s.out ++ [.serialStop p] ∧ (∀ q, q ≠ p → serial (attemptStopped s p) q = serial s q)
      ∧ (serial (attemptStopped s p) p).attempts = (serial s p).attempts
      ∧ total (attemptStopped s p) (Reg.spTxErr p) 24 = (total s (Reg.spTxErr p) 24 + 1) % 2 ^ 32
      ∧ total (attemptStopped s p) (Reg.spTxErr p) 16 = total s (Reg.spTxErr p) 16
      ∧ total (attemptStopped s p) (Reg.detCount 0x14) 0 = total s (Reg.detCount 0x14) 0 := by
  obtain ⟨hout, hothers, hattempts, htotal⟩ := framerDiscard_frame (count s (Reg.spTxErr p) 31 24 1) p
  have hdiscard : Reg.spTxErr p ≠ Reg.spRxDiscard p ∧ Reg.detCount 0x14 ≠ Reg.spRxDiscard p := by
    unfold Reg.spTxErr Reg.spRxDiscard Reg.detCount
    omega
  have hdet : Reg.detCount 0x14 ≠ Reg.spTxErr p := by
    unfold Reg.spTxErr Reg.detCount
    omega
  have hstopped : ∀ off lo, total (attemptStopped s p) off lo = total (framerDiscard (count s (Reg.spTxErr p) 31 24 1) p) off lo :=
    fun off lo => total_emit _ _ off lo
  have hports : ∀ q, serial (attemptStopped s p) q = serial (framerDiscard (count s (Reg.spTxErr p) 31 24 1) p) q := fun q =>
    serial_emit _ _ q
  refine ⟨?_, fun q hq => ?_, ?_, ?_, ?_, ?_⟩
  · rw [attemptStopped, emit_out, hout, count_out]
  · rw [hports, hothers q hq, serial_count]
  · rw [hports, hattempts, serial_count]
  · rw [hstopped, htotal _ _ (by decide) hdiscard.1, total_count]
  · rw [hstopped, htotal _ _ (by decide) hdiscard.1, total_count_other _ _ _ (by omega)]
  · rw [hstopped, htotal _ _ (by decide) hdiscard.2, total_count_other _ _ _ (by omega)]

theorem rollDice_spec (s : State) (p : Nat) :
    ∃ w, (rollDice s p).1 = setSerial s p { serial s p with dice := w } ∧ 1 ≤ (rollDice s p).2 ∧ (rollDice s p).2 ≤ 16 := by
  unfold rollDice
  extract_lets v w
  have hlt := Nat.mod_lt w.toNat (show 0 < 16 by decide)
  exact ⟨some w, rfl, by dsimp only; omega, by dsimp only; omega⟩

/-- After an attempt that is not the last the item is held, and the gap to the next lies from 1 to 16. -/
theorem attemptAgain_spec (s : State) (p : Nat) (v : SerialPort) (it : TxItem) :
    (∃ g w, 1 ≤ g ∧ g ≤ 16 ∧ serial (attemptAgain s p v it) p = { v with staged := some it, gap := g, dice := w })
      ∧ (∀ q, q ≠ p → serial (attemptAgain s p v it) q = serial s q) ∧ (attemptAgain s p v it).out = s.out
      ∧ (∀ off lo, total (attemptAgain s p v it) off lo = total s off lo) := by
  obtain ⟨w, hroll, hlo, hhi⟩ := rollDice_spec (setSerial s p { v with staged := some it }) p
  unfold attemptAgain
  dsimp only
  generalize rollDice (setSerial s p { v with staged := some it }) p = rolled at hroll hlo hhi
  obtain ⟨x, g⟩ := rolled
  dsimp only at hroll hlo hhi ⊢
  subst hroll
  refine ⟨⟨g, w, hlo, hhi, ?_⟩, fun q hq => ?_, ?_, fun off lo => ?_⟩
  · rw [serial_setSerial_same, serial_setSerial_same, serial_setSerial_same]
  · rw [serial_setSerial, if_neg hq, serial_setSerial, if_neg hq, serial_setSerial, if_neg hq]
  · rw [setSerial_out, setSerial_out, setSerial_out]
  · rw [total_setSerial, total_setSerial, total_setSerial]

/-- After the eighth attempt the item has failed, which is counted and reported. -/
theorem attemptFailed_spec (s : State) {p : Nat} (hp : p < 128) (v : SerialPort) :
    serial (attemptFailed s p v) p = { v with staged := none, attempts := 0, collInj := false }
      ∧ (∀ q, q ≠ p → serial (attemptFailed s p v) q = serial s q) ∧ Sent s (attemptFailed s p v)
      ∧ total (attemptFailed s p v) (Reg.spTxErr p) 24 = total s (Reg.spTxErr p) 24
      ∧ total (attemptFailed s p v) (Reg.spTxErr p) 16 = (total s (Reg.spTxErr p) 16 + 1) % 2 ^ 32
      ∧ total (attemptFailed s p v) (Reg.detCount 0x14) 0 = (total s (Reg.detCount 0x14) 0 + 1) % 2 ^ 32 := by
  have hports : ∀ q, serial (setSerial s p { v with staged := none, attempts := 0, collInj := false }) q = _ := fun q =>
    serial_setSerial s p q _
  have htotals : ∀ off lo, total (setSerial s p { v with staged := none, attempts := 0, collInj := false }) off lo = total s off lo :=
    fun off lo => total_setSerial s p _ off lo
  have hout := setSerial_out s p { v with staged := none, attempts := 0, collInj := false }
  unfold attemptFailed
  generalize setSerial s p { v with staged := none, attempts := 0, collInj := false } = x at hports htotals hout
  have hfired := firedOnce_fire (count x (Reg.spTxErr p) 23 16 1) 0x14 (unitSerial p) 0 0 v.collInj
  have hother : ∀ off lo, lo < 32 → off ≠ Reg.detCount 0x14 →
      total (fire (count x (Reg.spTxErr p) 23 16 1) 0x14 (unitSerial p) 0 0 v.collInj none) off lo
        = total (count x (Reg.spTxErr p) 23 16 1) off lo := fun off lo hlo hoff =>
    total_fire_other _ _ _ _ _ _ (by omega)
  have hserial := fire_serial (count x (Reg.spTxErr p) 23 16 1) 0x14 (unitSerial p) 0 0 v.collInj none
  have hsent := sent_fire (count x (Reg.spTxErr p) 23 16 1) 0x14 (unitSerial p) 0 0 v.collInj
  generalize fire (count x (Reg.spTxErr p) 23 16 1) 0x14 (unitSerial p) 0 0 v.collInj none = y at hfired hother hserial hsent
  obtain ⟨hcount, -⟩ := hfired
  have hrel := txStill_releaseDone y (epSerial p)
  have hdone := sent_releaseDone y (epSerial p)
  generalize releaseDone y (epSerial p) = z at hrel hdone
  have hdet : Reg.detCount 0x14 ≠ Reg.spTxErr p := by
    unfold Reg.spTxErr Reg.detCount
    omega
  have hcounter : TxCounter (Reg.spTxErr p) := .inl (by unfold Reg.spTxErr; omega)
  have hport : ∀ q, serial z q = serial x q := fun q => by
    rw [serial_of_serial (hrel.serial.trans hserial), serial_count]
  refine ⟨?_, fun q hq => ?_, ?_, ?_, ?_, ?_⟩
  · rw [hport, hports, if_pos rfl]
  · rw [hport, hports, if_neg hq]
  · exact (Sent.of_eq hout).trans ((Sent.of_eq (count_out x _ _ _ _)).trans (hsent.trans hdone))
  · rw [hrel.total _ _ hcounter (by decide), hother _ _ (by decide) hdet.symm, total_count_other _ _ _ (by omega), htotals]
  · rw [hrel.total _ _ hcounter (by decide), hother _ _ (by decide) hdet.symm, total_count, htotals]
  · rw [hrel.total _ _ (.inr rfl) (by decide), hcount, total_count_other _ _ _ (by omega), htotals]

theorem collision_spec {s : State} (p : Fin 128) {r : TxRun} (htick : ticking s = true) (hrun : (serial s p).run = some r)
    (hmode : spMode s p = 1) :
    ∃ t, exec (.collision p) s = .next t ∧ (serial t p).run = none
      ∧ total t (Reg.spTxErr p) 24 = (total s (Reg.spTxErr p) 24 + 1) % 2 ^ 32
      ∧ (∃ os, t.out = s.out ++ .serialStop p :: os) ∧ (∀ q, q ≠ p.val → serial t q = serial s q)
      ∧ ((serial s p).attempts < 7 → (serial t p).staged = some { r.item with late := false, launch := none }
        ∧ (serial t p).attempts = (serial s p).attempts + 1 ∧ 1 ≤ (serial t p).gap ∧ (serial t p).gap ≤ 16)
      ∧ (7 ≤ (serial s p).attempts → (serial t p).staged = none ∧ (serial t p).attempts = 0
        ∧ total t (Reg.spTxErr p) 16 = (total s (Reg.spTxErr p) 16 + 1) % 2 ^ 32
        ∧ total t (Reg.detCount 0x14) 0 = (total s (Reg.detCount 0x14) 0 + 1) % 2 ^ 32) := by
  have hp := p.isLt
  have hexec : exec (.collision p) s = .next (txCollide s p { r.item with late := false, launch := none } false) := by
    have hdispatch : exec (.collision p) s = execCollision p s := rfl
    rw [hdispatch, execCollision]
    simp only [hrun, htick, hmode, BEq.rfl, Bool.and_self, if_true]
  obtain ⟨hout, hothers, hattempts, herr, hfail, hdet⟩ := attemptStopped_spec s hp
  rw [txCollide_eq, hattempts] at hexec
  generalize attemptStopped s p = a at hexec hout hothers hattempts herr hfail hdet
  have hover : (attemptOver a p false).run = none ∧ (attemptOver a p false).attempts = (serial s p).attempts + 1 :=
    ⟨rfl, congrArg (· + 1) hattempts⟩
  generalize attemptOver a p false = v at hexec hover
  obtain ⟨hnone, hnext⟩ := hover
  generalize { r.item with late := false, launch := none } = it at hexec ⊢
  by_cases hlast : 7 ≤ (serial s p).attempts
  · rw [if_pos (by omega)] at hexec
    obtain ⟨hport, hports, ⟨os, hsent⟩, h24, h16, h14⟩ := attemptFailed_spec a hp v
    refine ⟨_, hexec, by rw [hport, hnone], h24.trans herr, ⟨os, ?_⟩, fun q hq => (hports q hq).trans (hothers q hq),
      fun h => absurd hlast (by omega), fun _ => ⟨by rw [hport], by rw [hport], h16.trans (by rw [hfail]), h14.trans (by rw [hdet])⟩⟩
    rw [hsent, hout, List.append_assoc]
    rfl
  · rw [if_neg (by omega)] at hexec
    obtain ⟨⟨g, w, hlo, hhi, hport⟩, hports, hsent, htotal⟩ := attemptAgain_spec a p v it
    exact ⟨_, hexec, by rw [hport, hnone], (htotal _ _).trans herr, ⟨[], hsent.trans hout⟩,
      fun q hq => (hports q hq).trans (hothers q hq), fun _ => ⟨by rw [hport], by rw [hport, hnext], by rw [hport]; exact hlo,
        by rw [hport]; exact hhi⟩, fun h => absurd h hlast⟩

end Sys2Proof.Machine
end

section
/-! # O43 settled -/

namespace Sys2Proof.Proofs
open Sys2Proof.Machine

/-- Settles O43: each row of serial transmission, by the lemma that says what it does where it is due. -/
theorem serialTransmit : Obligations.SerialTransmit := by
  unfold Obligations.SerialTransmit
  intro s p htick
  refine ⟨fun slot at_ k hset hdue => serialSettings_tx p htick hset hdue,
    fun slot tb hset => ⟨serialSettings_rx p htick hset, fun hearly => ?_⟩,
    fun c hfree hmode harms hgood hbest hdue => serialItemStage_spec p hfree hmode harms hgood hbest hdue,
    fun it hstaged hen howns hmode hrun hpaused hfree hlaunch htag =>
      serialItemStart_spec p htick hstaged hen howns hmode hrun hpaused hfree hlaunch htag,
    fun r hrun hpause hset hend => serialItemEnd_spec p htick hrun hpause hset hend,
    fun it hopen hmode hrun hset hstaged hgap harms hlaunch htag =>
      halfDuplexAttempt_spec p htick hopen hmode hrun hset hstaged hgap harms hlaunch htag,
    fun r hrun hmode => collision_spec p htick hrun hmode⟩
  rw [exec_serialSettingsApply_rx p htick hset, if_neg (Nat.not_le.2 hearly)]

end Sys2Proof.Proofs
end

section
/-! # What the end of a record leaves of the hounds' words (R155, R164, R172, R334, R343)

A record that ends touches its talker's entry, the Leash and the queues, and may set off reports of memory words. It leaves WEDGE_LOG, the
units wedged, and the counts of the hounds' detectors and of the records that END discards and hounds abandon. -/

namespace Sys2Proof.Machine

/-- The counts of the detectors of the hounds, of the items that END discards, and of the records that hounds abandon. -/
def HoundWord (off : Nat) : Prop :=
  off = Reg.detCount 0x70 ∨ off = Reg.detCount 0x71 ∨ off = Reg.packCounts ∨ off = Reg.packAbandon

theorem HoundWord.not_ringReg {off : Nat} (h : HoundWord off) : ¬ringReg off := by
  unfold HoundWord Reg.detCount Reg.packCounts Reg.packAbandon at h
  unfold Machine.ringReg
  omega

/-- The count of a detector that reports on no hound. -/
theorem HoundWord.ne_detCount {off d : Nat} (h : HoundWord off) (h70 : d ≠ 0x70) (h71 : d ≠ 0x71) : off ≠ Reg.detCount d := by
  unfold HoundWord Reg.detCount Reg.packCounts Reg.packAbandon at h
  unfold Reg.detCount
  omega

/-- From s to t no unit is wedged, no trip is logged, and the hounds' words keep their counts. -/
structure HoundStill (s t : State) : Prop where
  wedged : t.integ.wedged = s.integ.wedged
  wedges : t.integ.wedges = s.integ.wedges
  reg : ∀ off, HoundWord off → reg t off = reg s off
  total : ∀ off, HoundWord off → total t off 0 = total s off 0

theorem HoundStill.refl (s : State) : HoundStill s s := ⟨rfl, rfl, fun _ _ => rfl, fun _ _ => rfl⟩

theorem HoundStill.trans {s t u : State} (h : HoundStill s t) (k : HoundStill t u) : HoundStill s u :=
  ⟨k.wedged.trans h.wedged, k.wedges.trans h.wedges, fun off ho => (k.reg off ho).trans (h.reg off ho),
    fun off ho => (k.total off ho).trans (h.total off ho)⟩

/-- What every operation of a sequence keeps, the sequence keeps. -/
theorem HoundStill.foldl {α : Type} {f : State → α → State} (hf : ∀ s a, HoundStill s (f s a)) (l : List α) (s : State) :
    HoundStill s (l.foldl f s) :=
  List.foldlRecOn l f (.refl s) fun t ht a _ => ht.trans (hf t a)

theorem HoundStill.ite {c : Prop} [Decidable c] {s t u : State} (ht : HoundStill s t) (hu : HoundStill s u) :
    HoundStill s (if c then t else u) := by
  split
  · exact ht
  · exact hu

/-- Two states that share wedges, registers and totals. -/
theorem HoundStill.of_same {s t : State} (hinteg : t.integ = s.integ) (hregs : t.regs = s.regs) (htotals : t.totals = s.totals) :
    HoundStill s t :=
  ⟨congrArg Integrity.wedged hinteg, congrArg Integrity.wedges hinteg, fun off _ => reg_of_regs hregs off,
    fun off _ => congrArg (sget 0 · (32 * off + 0)) htotals⟩

/-! ## Registers, counters, detectors and commands -/

theorem houndStill_setReg (s : State) {off : Nat} (h : ¬HoundWord off) (v : Word) : HoundStill s (setReg s off v) :=
  ⟨rfl, rfl, fun o ho => (reg_setReg s off o v).trans (if_neg fun e : o = off => h (e ▸ ho)), fun _ _ => rfl⟩

theorem houndStill_setF (s : State) {off : Nat} (h : ¬HoundWord off) (hi lo v : Nat) : HoundStill s (setF s off hi lo v) :=
  houndStill_setReg s h _

theorem houndStill_count (s : State) {off lo : Nat} (h : ¬HoundWord off) (hlo : lo < 32) (hi n : Nat) :
    HoundStill s (count s off hi lo n) := by
  refine ⟨rfl, rfl, fun o ho => reg_count_other fun e => h (e ▸ ho), fun o ho => total_count_other s hi n fun e => ?_⟩
  have hoff : o = off := by omega
  exact h (hoff ▸ ho)

theorem houndStill_event (s : State) (kind det unit d2 d3 : Nat) (inj : Bool) (t : Stamp) :
    HoundStill s (event s kind det unit d2 d3 inj t) := by
  have hreg : ∀ off, HoundWord off → reg (event s kind det unit d2 d3 inj t) off = reg s off := fun off ho =>
    reg_event s kind det unit d2 d3 inj t ho.not_ringReg
  obtain ⟨r, g, o, q, f, h⟩ := event_frame s kind det unit d2 d3 inj t
  rw [h] at hreg ⊢
  exact ⟨rfl, rfl, hreg, fun _ _ => rfl⟩

theorem houndStill_fire (s : State) {d : Nat} (h70 : d ≠ 0x70) (h71 : d ≠ 0x71) (unit d2 d3 : Nat) (inj : Bool) (l : Option Nat) :
    HoundStill s (fire s d unit d2 d3 inj l) := by
  have hreg : ∀ off, HoundWord off → reg (fire s d unit d2 d3 inj l) off = reg s off := fun off ho =>
    reg_fire_limited unit d2 d3 inj l ho.not_ringReg (ho.ne_detCount h70 h71)
  have htotal : ∀ off, HoundWord off → total (fire s d unit d2 d3 inj l) off 0 = total s off 0 := fun off ho => by
    have := ho.ne_detCount h70 h71
    exact total_fire_other s unit d2 d3 inj l (by omega)
  obtain ⟨r, g, o, q, f, m, n, h⟩ := fireAt_frame s d unit d2 d3 inj l (now s)
  rw [fire, h] at hreg htotal ⊢
  exact ⟨rfl, rfl, hreg, htotal⟩

theorem houndStill_finishAt (s : State) (k st r0 r1 : Nat) (t : Stamp) : HoundStill s (finishAt s k st r0 r1 t) := by
  have hreg : ∀ off, HoundWord off → reg (finishAt s k st r0 r1 t) off = reg s off := fun off ho =>
    reg_finishAt s k st r0 r1 t ho.not_ringReg
  obtain ⟨r, g, o, fr, hd, h⟩ := finishAt_frame s k st r0 r1 t
  rw [h] at hreg ⊢
  exact ⟨rfl, rfl, hreg, fun _ _ => rfl⟩

theorem houndStill_finish (s : State) (k st r0 r1 : Nat) : HoundStill s (finish s k st r0 r1) := houndStill_finishAt s k st r0 r1 _

theorem houndStill_setArm (s : State) (a : Nat) (v : Option Arm) : HoundStill s (setArm s a v) :=
  ⟨rfl, rfl, fun _ _ => rfl, fun _ _ => rfl⟩

theorem houndStill_injected (s : State) (det : Nat) (units : List Nat) : HoundStill s (injected s det units).1 := by
  have hcount := houndStill_count s (off := Reg.injStatus) (lo := 16) (by unfold HoundWord; decide) (by decide) 31 1
  unfold injected
  split
  · exact .refl s
  · split
    · split
      · exact houndStill_setArm s _ _
      · dsimp only
        split
        · exact hcount.trans (houndStill_setArm _ _ _)
        · split
          · exact hcount.trans (houndStill_setArm _ _ _)
          · exact hcount
    · exact .refl s

/-! ## The talker table (R337) -/

theorem houndStill_setTalkW (s : State) (i w : Nat) (v : Word) : HoundStill s (setTalkW s i w v) :=
  .of_same (setMem_integ s _ _) (setMem_regs s _ _) (setMem_totals s _ _)

theorem houndStill_hear (s : State) (i : Nat) : HoundStill s (hear s i) := by
  unfold hear
  extract_lets t
  have ht : HoundStill s t := (houndStill_setTalkW s i 11 _).trans (houndStill_setTalkW _ i 12 _)
  exact ht.trans (.of_same rfl rfl rfl)

theorem houndStill_memReport (s : State) (m : Mem) (a outcome reader index : Nat) (inj : Bool) :
    HoundStill s (memReport s m a outcome reader index inj) :=
  houndStill_fire s (by cases m <;> decide) (by cases m <;> decide) _ _ _ inj none

theorem houndStill_talkerRepair (s : State) (i w reader : Nat) (inj : Bool) : HoundStill s (talkerRepair s i w reader inj) := by
  unfold talkerRepair
  split
  · exact (houndStill_setTalkW s i 3 _).trans (houndStill_memReport _ _ _ _ _ _ _)
  · split
    · exact (houndStill_setTalkW s i 8 _).trans (houndStill_memReport _ _ _ _ _ _ _)
    · split
      · exact ((houndStill_setTalkW s i 9 _).trans (houndStill_setTalkW _ i 10 _)).trans (houndStill_memReport _ _ _ _ _ _ _)
      · exact ((((houndStill_setTalkW s i 13 _).trans (houndStill_setTalkW _ i 14 _)).trans (houndStill_setTalkW _ i 15 _)).trans
          (houndStill_hear _ i)).trans (houndStill_memReport _ _ _ _ _ _ _)

theorem houndStill_talkerRead (s : State) (i reader : Nat) (readers ws : List Nat) :
    HoundStill s (talkerRead s i reader readers ws).1 := by
  induction ws generalizing s with
  | nil => exact .refl s
  | cons w ws ih =>
    have hread : HoundStill s (memRead s .talkers (16 * i + w) readers).s := by
      rw [memRead_frame]
      exact houndStill_injected s _ _
    exact (HoundStill.ite (hread.trans (houndStill_talkerRepair _ i w reader _)) hread).trans (ih _)

/-! ## The end of a record (R155, R172, R334) -/

/-- The Leash of a talker's port changes registers, event outputs, serial ports and what leaves the hub. -/
theorem leashTalker_frame (s : State) (i : Nat) :
    ∃ r e x os, leashTalker s i = { s with regs := r, evOut := e, serial := x, out := s.out ++ os } := by
  unfold leashTalker
  split
  · exact (tickServed_leashUpdate s _).frame
  · exact (TickServed.refl s).frame

theorem not_houndWord_spStatus (p : Nat) : ¬HoundWord (Reg.spStatus p) := by
  unfold HoundWord Reg.spStatus Reg.detCount Reg.packCounts Reg.packAbandon
  omega

theorem houndStill_leashTalker (s : State) (i : Nat) : HoundStill s (leashTalker s i) := by
  have hreg : ∀ off, HoundWord off → reg (leashTalker s i) off = reg s off := fun off ho => by
    unfold leashTalker
    split
    · exact (leashServed_leashUpdate s _).reg off fun e => not_houndWord_spStatus _ (e ▸ ho)
    · rfl
  obtain ⟨r, e, x, os, h⟩ := leashTalker_frame s i
  rw [h] at hreg ⊢
  exact ⟨rfl, rfl, hreg, fun _ _ => rfl⟩

theorem houndStill_dropRun (s : State) (g : Nat) : HoundStill s (dropRun s g) := .of_same rfl rfl rfl

theorem houndStill_leaveFlight (s : State) (r : Rec) (plies : Nat) : HoundStill s (leaveFlight s r plies) := by
  unfold leaveFlight
  extract_lets i x y z
  have hx : HoundStill s x := houndStill_talkerRead s i readerHerder [] [8, 10]
  have hy : HoundStill x y := .ite (.refl x) (houndStill_setTalkW x i 10 _)
  have hz : HoundStill y z := houndStill_setTalkW y i 8 _
  exact (((hx.trans hy).trans hz).trans (houndStill_dropRun z r.gran)).trans (houndStill_leashTalker _ i)

theorem houndStill_lqReport (s : State) (c : Copy) (word outcome : Nat) (inj : Bool) : HoundStill s (lqReport s c word outcome inj) :=
  houndStill_fire s (by decide) (by decide) _ _ _ inj none

theorem houndStill_lqNotRebuilt (s : State) (b : Rebuild) : HoundStill s (lqNotRebuilt s b) := by
  have hcount : ∀ t, HoundStill t (count t Reg.retrCountB 15 0 1) := fun t =>
    houndStill_count t (by unfold HoundWord; decide) (by decide) 15 1
  unfold lqNotRebuilt
  split
  · exact .refl s
  · rename_i c _
    have hgone : HoundStill s (dropCopy s c.arrival) := .of_same rfl rfl rfl
    exact (hgone.trans (hcount _)).trans (houndStill_lqReport _ c _ _ _)

/-- The hub without the record r that engine e holds: its granules are let go and its plies charged, or the copy that a rebuild run did
not close is dropped. -/
def recordLeft (s : State) (e : Nat) (r : Rec) : State :=
  match (engine s e).rebuild with
  | none => leaveFlight s r (engine s e).plies
  | some b => if (engine s e).closes ≤ b.ordinal then lqNotRebuilt (dropRun s r.gran) b else dropRun s r.gran

/-- An engine behind its record. -/
def recordEnded (g : Engine) : Engine :=
  { g with recd := none, rebuild := none, item := none, waitTb := none, judged := false, reload := false,
           flags := flagSet g.flags flagOpen false }

/-- A record that ended is counted in its draining group and by the bank swap in progress. -/
def endCounted (s : State) (groups : SMap Nat) (swap : Option Nat) : State :=
  setPack s { s.pack with groupEnded := groups, swapEnded := swap }

/-- The end of a record: what the record held is left, a draining group and a bank swap count it, and the engine is free. -/
theorem engEnd_eq {s : State} {e : Nat} {r : Rec} (h : (engine s e).recd = some r) (abandoned : Bool) :
    ∃ n w, engEnd s e abandoned = setEngine (endCounted (recordLeft s e r) n w) e (recordEnded (engine (recordLeft s e r) e)) := by
  unfold engEnd
  extract_lets g grp
  split
  · rename_i hnone
    exact absurd (hnone.symm.trans h) (by simp)
  · rename_i r' hsome
    obtain rfl : r' = r := Option.some.inj (hsome.symm.trans h)
    extract_lets dropped left packLeft x packX y gLast
    have hleft : left = recordLeft s e r' := by
      unfold left recordLeft g
      cases (engine s e).rebuild <;> rfl
    have hx : ∃ n, x = endCounted left n left.pack.swapEnded := by
      unfold x
      split
      · exact ⟨_, rfl⟩
      · exact ⟨left.pack.groupEnded, rfl⟩
    have hy : ∃ n w, y = endCounted left n w := by
      obtain ⟨n, hx⟩ := hx
      unfold y packX
      rw [hx]
      split
      · split
        · exact ⟨n, _, rfl⟩
        · exact ⟨n, _, rfl⟩
      · exact ⟨n, _, rfl⟩
    obtain ⟨n, w, hy⟩ := hy
    unfold gLast
    rw [hy, ← hleft]
    exact ⟨n, w, rfl⟩

theorem houndStill_recordLeft (s : State) (e : Nat) (r : Rec) : HoundStill s (recordLeft s e r) := by
  have hdrop := houndStill_dropRun s r.gran
  unfold recordLeft
  split
  · exact houndStill_leaveFlight s r _
  · exact .ite (hdrop.trans (houndStill_lqNotRebuilt _ _)) hdrop

theorem houndStill_engEnd (s : State) (e : Nat) (abandoned : Bool) : HoundStill s (engEnd s e abandoned) := by
  cases hrec : (engine s e).recd with
  | none =>
    unfold engEnd
    simp only [hrec]
    exact .refl s
  | some r =>
    obtain ⟨n, w, h⟩ := engEnd_eq hrec abandoned
    rw [h]
    exact (houndStill_recordLeft s e r).trans (.of_same rfl rfl rfl)

/-- The engine whose record ended is free. -/
theorem engine_engEnd_recd (s : State) (e : Nat) (abandoned : Bool) : (engine (engEnd s e abandoned) e).recd = none := by
  cases hrec : (engine s e).recd with
  | none =>
    unfold engEnd
    simp only [hrec]
  | some r =>
    obtain ⟨n, w, h⟩ := engEnd_eq hrec abandoned
    rw [h, engine_setEngine, if_pos rfl]
    rfl

end Sys2Proof.Machine
end

section
/-! # END and DROP (R155, R164, R172) -/

namespace Sys2Proof.Machine

/-! ## The dispatch -/

theorem exec_endRecord (e : Fin 32) (s : State) : exec (.endRecord e) s = execEndRecord e s := rfl

theorem exec_drop (e : Fin 32) (s : State) : exec (.drop e) s = execDrop e s := rfl

/-! ## A record that leaves flight (R155, R164) -/

/-- Quiet reads of good words of a talker entry change nothing. -/
theorem talkerCheck_good_words {s : State} {i : Nat} {ws : List Nat} (hi : s.integ.arms = [])
    (hg : ∀ w ∈ ws, memGood (memGet s .talkers (16 * i + w)) = true) (reader : Nat) (readers : List Nat) :
    talkerCheck s i reader readers ws = s := by
  have hread : (talkerRead s i reader readers ws).1 = s := by
    induction ws with
    | nil => rfl
    | cons w ws ih =>
      simp only [talkerRead, memRead_good hi (hg w List.mem_cons_self), Bool.false_eq_true, if_false]
      exact ih fun x hx => hg x (List.mem_cons_of_mem _ hx)
  exact hread

/-- What is left in the ply bucket of talker i after a record of so many plies, where its entry has a ply bucket (R164). -/
def pliesLeft (s : State) (i plies : Nat) : Word :=
  if fld (talkW s i 5) 15 0 = 0 then talkW s i 10 else BitVec.ofInt 32 (max (-2 ^ 31) ((talkW s i 10).toInt - plies))

/-- A bucket that is charged stays above the least number of a word, and below its greatest. -/
theorem sat32_sub (w : Word) (n : Nat) : sat32 (w.toInt - n) = max (-2 ^ 31) (w.toInt - n) := by
  have hlt := BitVec.toInt_lt (x := w)
  unfold sat32
  split <;> omega

/-- A record that ends with the words of its talker's entry good: its USE and its ply bucket. -/
def talkerCharged (s : State) (r : Rec) (plies : Nat) : State :=
  let t := if fld (talkW s r.talker 5) 15 0 = 0 then s else setTalkW s r.talker 10 (pliesLeft s r.talker plies)
  setTalkW t r.talker 8 (BitVec.ofNat 32 (fld (talkW s r.talker 8) 16 0 - r.count))

/-- The charge writes words of the talker table. -/
theorem talkerCharged_frame (s : State) (r : Rec) (plies : Nat) : ∃ m, talkerCharged s r plies = { s with talkers := m } := by
  unfold talkerCharged
  dsimp only
  split
  · exact ⟨_, rfl⟩
  · exact ⟨_, rfl⟩

theorem talkW_talkerCharged_use (s : State) (r : Rec) (plies : Nat) :
    talkW (talkerCharged s r plies) r.talker 8 = BitVec.ofNat 32 (fld (talkW s r.talker 8) 16 0 - r.count) :=
  (talkW_setTalkW _ _ _ _ _ _).trans (if_pos rfl)

theorem talkW_talkerCharged_plies (s : State) (r : Rec) (plies : Nat) :
    talkW (talkerCharged s r plies) r.talker 10 = pliesLeft s r.talker plies := by
  unfold talkerCharged
  rw [talkW_setTalkW, if_neg (by omega)]
  split
  · rename_i hdepth
    rw [pliesLeft, if_pos hdepth]
  · rw [talkW_setTalkW, if_pos rfl]

/-- A record leaves flight with the words of its talker's entry good. -/
theorem leaveFlight_good {s : State} {r : Rec} (hi : s.integ.arms = []) (h8 : memGood (memGet s .talkers (16 * r.talker + 8)) = true)
    (h10 : memGood (memGet s .talkers (16 * r.talker + 10)) = true) (plies : Nat) :
    leaveFlight s r plies = leashTalker (dropRun (talkerCharged s r plies) r.gran) r.talker := by
  have hread := talkerCheck_good_words (i := r.talker) hi (ws := [8, 10]) (by simp [h8, h10]) readerHerder []
  unfold leaveFlight talkerCharged
  simp only [hread, beq_iff_eq]
  by_cases hdepth : fld (talkW s r.talker 5) 15 0 = 0
  · simp only [hdepth, if_true]
  · simp only [hdepth, if_false, talkW_setTalkW, pliesLeft, sat32_sub]
    rw [if_neg (by omega)]
    rfl

/-- From s to t the record r that engine e held has ended after so many plies: the engine is free, the granules are let go, and the talker's
USE and ply bucket are charged. -/
structure RecordGone (s : State) (e : Nat) (r : Rec) (plies : Nat) (t : State) : Prop where
  recd : (engine t e).recd = none
  item : (engine t e).item = none
  others : ∀ k, k ≠ e → engine t k = engine s k
  runs : t.herder.runs = s.herder.runs.eraseP (fun x => x.1 == r.gran)
  use : talkW t r.talker 8 = BitVec.ofNat 32 (fld (talkW s r.talker 8) 16 0 - r.count)
  bucket : talkW t r.talker 10 = pliesLeft s r.talker plies
  mems : ∀ m a, m ≠ .talkers → memGet t m a = memGet s m a

/-- The record that an engine holds ends, with the words of its talker's entry good. -/
theorem engEnd_recordGone {s : State} {e : Nat} {r : Rec} (hrec : (engine s e).recd = some r) (hrun : (engine s e).rebuild = none)
    (hi : s.integ.arms = []) (h8 : memGood (memGet s .talkers (16 * r.talker + 8)) = true)
    (h10 : memGood (memGet s .talkers (16 * r.talker + 10)) = true) (abandoned : Bool) :
    RecordGone s e r (engine s e).plies (engEnd s e abandoned) := by
  have hleft : recordLeft s e r = leashTalker (dropRun (talkerCharged s r (engine s e).plies) r.gran) r.talker := by
    unfold recordLeft
    rw [hrun]
    exact leaveFlight_good hi h8 h10 _
  obtain ⟨n, w, h⟩ := engEnd_eq hrec abandoned
  rw [hleft] at h
  have hmem : memOf (engEnd s e abandoned) = memOf (talkerCharged s r (engine s e).plies) := by
    rw [h, memOf_setEngine, endCounted, memOf_setPack, memOf_leashTalker, memOf_dropRun]
  have hword : ∀ x, talkW (engEnd s e abandoned) r.talker x = talkW (talkerCharged s r (engine s e).plies) r.talker x := fun x =>
    memWord_of_memOf hmem _ _
  obtain ⟨talkers, hcharged⟩ := talkerCharged_frame s r (engine s e).plies
  obtain ⟨regs, outs, ports, os, hleash⟩ := leashTalker_frame (dropRun (talkerCharged s r (engine s e).plies) r.gran) r.talker
  refine ⟨engine_engEnd_recd s e abandoned, ?_, fun k hk => ?_, ?_, ?_, ?_, fun m a hm => ?_⟩
  · rw [h, engine_setEngine, if_pos rfl]
    rfl
  · rw [h, engine_setEngine, if_neg hk, hleash, hcharged]
    rfl
  · rw [h, hleash, hcharged]
    rfl
  · rw [hword, talkW_talkerCharged_use]
  · rw [hword, talkW_talkerCharged_plies]
  · have hother : memOf (setMem s .talkers talkers) m = memOf s m := (memOf_setMem s _ m talkers).trans (if_neg hm)
    rw [memGet_of_memOf hmem, hcharged]
    exact congrArg (sget (memDefault m) · a) hother

/-- The end of a record counted from a hub that differs in the engine of the record. -/
theorem RecordGone.of_engine {s u t : State} {e plies : Nat} {r : Rec} (h : RecordGone u e r plies t)
    (hothers : ∀ k, k ≠ e → engine u k = engine s k) (hruns : u.herder = s.herder) (hmem : memOf u = memOf s) :
    RecordGone s e r plies t := by
  have hword : ∀ x, talkW u r.talker x = talkW s r.talker x := fun x => memWord_of_memOf hmem _ _
  have hbucket := h.bucket
  have huse := h.use
  rw [pliesLeft, hword, hword] at hbucket
  rw [hword] at huse
  exact ⟨h.recd, h.item, fun k hk => (h.others k hk).trans (hothers k hk), hruns ▸ h.runs, huse, hbucket,
    fun m a hm => (h.mems m a hm).trans (memGet_of_memOf hmem m a)⟩

end Sys2Proof.Machine

namespace Sys2Proof.Proofs
open Sys2Proof.Machine

/-- Settles O15: END and DROP by the end of the record on the hub with the ply charged, where END has counted an open item. -/
theorem nymsaEnds : Obligations.NymsaEnds := by
  unfold Obligations.NymsaEnds
  intro s e w r hrec hrun h8 h10
  dsimp only
  have hends : ∀ u : State, u.integ.arms = [] → memOf u = memOf s → u.herder = s.herder →
      u.pack.engines = (nyAfter s e 1 id).pack.engines → RecordGone s e r ((engine s e).plies + 1) (engEnd u e false) :=
    fun u hi hmem hherder hengines => by
      have hu : engine u e = engine (nyAfter s e 1 id) e := engine_of_engines hengines e
      rw [engine_nyAfter] at hu
      have hgone : RecordGone u e r (engine u e).plies (engEnd u e false) :=
        engEnd_recordGone (by rw [hu]; exact hrec) (by rw [hu]; exact hrun) hi (by rw [memGet_of_memOf hmem, h8])
          (by rw [memGet_of_memOf hmem, h10]) false
      rw [hu] at hgone
      refine hgone.of_engine (fun k hk => ?_) hherder hmem
      rw [engine_of_engines hengines k, engine, nyAfter, sget_sset, if_neg hk]
      rfl
  have htotal : ∀ u, total (engEnd u e false) Reg.packCounts 0 = total u Reg.packCounts 0 := fun u =>
    (houndStill_engEnd u e false).total Reg.packCounts (.inr (.inr (.inl rfl)))
  refine ⟨fun hruns => ?_, fun hruns => ?_⟩
  · rw [exec_endRecord, execEndRecord, nyPlain_runs hruns]
    obtain ⟨⟨hi, -, -⟩, -⟩ := hruns
    cases hitem : (engine s e).item with
    | none =>
      have hnormal : engEndNormal (nyAfter s e 1 id) e = engEnd (nyAfter s e 1 id) e false := by simp [engEndNormal, hitem]
      have h := hends (nyAfter s e 1 id) hi rfl rfl rfl
      rw [hnormal]
      exact ⟨_, rfl, ⟨h.recd, h.item, h.others, h.runs, h.use, h.bucket, h.mems⟩, htotal _⟩
    | some i =>
      have hnormal : engEndNormal (nyAfter s e 1 id) e = engEnd (count (nyAfter s e 1 id) Reg.packCounts 15 0 1) e false := by
        simp [engEndNormal, hitem, hrun]
      have h := hends (count (nyAfter s e 1 id) Reg.packCounts 15 0 1) hi (memOf_count _ _ _ _ _) rfl rfl
      rw [hnormal]
      exact ⟨_, rfl, ⟨h.recd, h.item, h.others, h.runs, h.use, h.bucket, h.mems⟩, (htotal _).trans (total_count _ _ 15 0 1)⟩
  · rw [exec_drop, execDrop, nyPlain_runs hruns]
    obtain ⟨⟨hi, -, -⟩, -⟩ := hruns
    have h := hends (nyAfter s e 1 id) hi rfl rfl rfl
    exact ⟨_, rfl, ⟨h.recd, h.item, h.others, h.runs, h.use, h.bucket, h.mems⟩, htotal _⟩

end Sys2Proof.Proofs
end

section
/-! # Bucket refill and talker sweep (R160, R164)

Both walk the valid entries of the talker table. Each entry is served by its own words alone, so what the walk makes of it is what serving
it once makes of it. -/

namespace Sys2Proof.Machine

/-! ## The dispatch -/

theorem exec_bucketRefill (s : State) : exec .bucketRefill s = execBucketRefill s := rfl

theorem exec_talkerSweep (s : State) : exec .talkerSweep s = execTalkerSweep s := rfl

/-! ## The valid entries -/

/-- The keys of a rising map rise from each to every later one. -/
theorem pairwise_of_srising {α : Type} {m : SMap α} (h : srising m = true) : m.Pairwise fun a b => a.1 < b.1 := by
  induction m with
  | nil => exact .nil
  | cons e m ih => exact .cons (srising_lt h) (ih ((srising_cons e.1 e.2 m).1 h).2)

/-- A listed key of a rising map holds its value. -/
theorem sget_of_mem {α : Type} (d : α) {m : SMap α} {k : Nat} {v : α} (h : srising m = true) (hmem : (k, v) ∈ m) : sget d m k = v := by
  induction m with
  | nil => simp at hmem
  | cons e m ih =>
    rcases List.mem_cons.1 hmem with rfl | hlater
    · simp [sget]
    · have hne : e.1 ≠ k := Nat.ne_of_lt (srising_lt h (k, v) hlater)
      rw [sget, if_neg hne]
      exact ih ((srising_cons e.1 e.2 m).1 h).2 hlater

theorem srising_talkers {s : State} (h : Memory.wf s = true) : srising s.talkers = true := by
  have hwf := swf_memOf .talkers h
  rw [swf, Bool.and_eq_true] at hwf
  exact hwf.1

/-- An entry is among the valid ones when its word 3 is listed with VALID. -/
theorem mem_validTalkers {s : State} {i : Nat} : i ∈ validTalkers s ↔ ∃ v, (16 * i + 3, v) ∈ s.talkers ∧ bit (memData v) 31 = true := by
  unfold validTalkers
  rw [List.mem_filterMap]
  constructor
  · rintro ⟨⟨k, v⟩, hmem, hsome⟩
    split at hsome
    · rename_i hcond
      rw [Bool.and_eq_true, beq_iff_eq] at hcond
      obtain ⟨hkey, hvalid⟩ := hcond
      have hindex : k / 16 = i := Option.some.inj hsome
      have hk : k = 16 * i + 3 := by omega
      exact ⟨v, hk ▸ hmem, hvalid⟩
    · exact absurd hsome (by simp)
  · rintro ⟨v, hmem, hvalid⟩
    refine ⟨_, hmem, ?_⟩
    rw [if_pos (by rw [Bool.and_eq_true, beq_iff_eq]; exact ⟨by omega, hvalid⟩)]
    exact congrArg some (by omega)

theorem talkerValid_of_mem {s : State} {i : Nat} (h : Memory.wf s = true) (hi : i ∈ validTalkers s) : talkerValid s i = true := by
  obtain ⟨v, hmem, hvalid⟩ := mem_validTalkers.1 hi
  have hword : talkW s i 3 = memData v := congrArg memData (sget_of_mem (memDefault .talkers) (srising_talkers h) hmem)
  rw [talkerValid, hword, hvalid]

/-- No entry is listed twice. -/
theorem nodup_validTalkers {s : State} (h : Memory.wf s = true) : (validTalkers s).Nodup := by
  have hpairs : (validTalkers s).Pairwise fun i j => i < j := by
    unfold validTalkers
    rw [List.pairwise_filterMap]
    refine (pairwise_of_srising (srising_talkers h)).imp fun {a b} hlt i hi j hj => ?_
    split at hi
    · split at hj
      · rename_i ha hb
        rw [Bool.and_eq_true, beq_iff_eq] at ha hb
        obtain ⟨hamod, -⟩ := ha
        obtain ⟨hbmod, -⟩ := hb
        have hadiv : a.1 / 16 = i := Option.some.inj hi
        have hbdiv : b.1 / 16 = j := Option.some.inj hj
        omega
      · exact absurd hj (by simp)
    · exact absurd hi (by simp)
  exact hpairs.imp Nat.ne_of_lt

/-- A walk over parts without repetition. K holds of every state on the way; Q a says that part a is still to be served, and R a that it
has been, and serving another part disturbs neither. -/
theorem foldl_parts {σ α : Type} {f : σ → α → σ} {K : σ → Prop} {Q R : α → σ → Prop}
    (hK : ∀ x a, K x → Q a x → K (f x a)) (hdo : ∀ x a, K x → Q a x → R a (f x a))
    (hQ : ∀ x a b, K x → Q b x → a ≠ b → Q a x → Q a (f x b)) (hR : ∀ x a b, K x → Q b x → a ≠ b → R a x → R a (f x b))
    {l : List α} (hl : l.Nodup) {x : σ} (hx : K x) (hparts : ∀ a ∈ l, Q a x) :
    K (l.foldl f x) ∧ (∀ a ∈ l, R a (l.foldl f x)) ∧ ∀ a, a ∉ l → R a x → R a (l.foldl f x) := by
  induction l generalizing x with
  | nil => exact ⟨hx, by simp, fun _ _ h => h⟩
  | cons b l ih =>
    obtain ⟨hb, hl⟩ := List.nodup_cons.1 hl
    have hqb : Q b x := hparts b List.mem_cons_self
    have hrest : ∀ a ∈ l, Q a (f x b) := fun a ha =>
      hQ x a b hx hqb (fun e => hb (e ▸ ha)) (hparts a (List.mem_cons_of_mem _ ha))
    obtain ⟨hlast, hserved, hkept⟩ := ih hl (hK x b hx hqb) hrest
    refine ⟨hlast, fun a ha => ?_, fun a ha hr => ?_⟩
    · rcases List.mem_cons.1 ha with rfl | ha
      · exact hkept a hb (hdo x a hx hqb)
      · exact hserved a ha
    · rw [List.mem_cons, not_or] at ha
      obtain ⟨hne, hout⟩ := ha
      exact hkept a hout (hR x a b hx hqb hne hr)

/-- The words of entry i are in t what they are in s. -/
def SameEntry (s : State) (i : Nat) (t : State) : Prop :=
  ∀ w, w < 16 → memGet t .talkers (16 * i + w) = memGet s .talkers (16 * i + w)

theorem SameEntry.talkW {s t : State} {i w : Nat} (h : SameEntry s i t) (hw : w < 16) : talkW t i w = talkW s i w :=
  congrArg memData (h w hw)

theorem SameEntry.trans {s t u : State} {i : Nat} (h : SameEntry s i t) (k : SameEntry t i u) : SameEntry s i u :=
  fun w hw => (k w hw).trans (h w hw)

/-- A word of another entry is written. -/
theorem sameEntry_setTalkW (s : State) {i j w : Nat} (v : Word) (h : i ≠ j) (hw : w < 16) : SameEntry s i (setTalkW s j w v) :=
  fun x hx => memGet_setTalkW s v (by omega)

theorem SameEntry.ite {s t u : State} {i : Nat} {c : Prop} [Decidable c] (ht : SameEntry s i t) (hu : SameEntry s i u) :
    SameEntry s i (if c then t else u) := by
  split
  · exact ht
  · exact hu

/-! ## The refill (R164) -/

/-- What BUCKET_REFILL does with an entry. -/
def refillEntry (s : State) (i : Nat) : State :=
  let s := talkerCheck s i readerHerder [] [4, 5, 9, 10]
  let sf := fld (talkW s i 4) 31 16
  let sd := fld (talkW s i 4) 15 0
  let pf := fld (talkW s i 5) 31 16
  let pd := fld (talkW s i 5) 15 0
  let s := if sd == 0 then s else setTalkW s i 9 (BitVec.ofNat 32 (min (fld (talkW s i 9) 23 0 + sf) (sd * 256)))
  if pd == 0 then s
  else
    let v : Int := (talkW s i 10).toInt + (pf * 16 : Nat)
    setTalkW s i 10 (ofInt (if ((pd * 16 : Nat) : Int) < v then (pd * 16 : Nat) else v))

theorem execBucketRefill_due {s : State} (htick : ticking s = true) (hdue : s.herder.refillMs < drainMs s) :
    execBucketRefill s = .next { (validTalkers s).foldl refillEntry s with
      herder := { ((validTalkers s).foldl refillEntry s).herder with
        refillMs := ((validTalkers s).foldl refillEntry s).herder.refillMs + 1 } } := by
  unfold execBucketRefill
  rw [if_neg (by simp [htick, hdue])]
  rfl

/-- The sentence bucket of an entry, refilled by one millisecond. -/
def sentencesRefilled (s : State) (i : Nat) : State :=
  if fld (talkW s i 4) 15 0 = 0 then s
  else setTalkW s i 9 (BitVec.ofNat 32 (min (fld (talkW s i 9) 23 0 + fld (talkW s i 4) 31 16) (fld (talkW s i 4) 15 0 * 256)))

/-- Both buckets of an entry, refilled by one millisecond. -/
def bucketsRefilled (s : State) (i : Nat) : State :=
  if fld (talkW s i 5) 15 0 = 0 then sentencesRefilled s i
  else setTalkW (sentencesRefilled s i) i 10
    (BitVec.ofInt 32 (min ((talkW s i 10).toInt + (fld (talkW s i 5) 31 16 * 16 : Nat)) (fld (talkW s i 5) 15 0 * 16 : Nat)))

/-- The refill of the sentence bucket writes word 9 alone. -/
theorem talkW_sentencesRefilled (s : State) {i w : Nat} (h : w ≠ 9) : talkW (sentencesRefilled s i) i w = talkW s i w := by
  unfold sentencesRefilled
  split
  · rfl
  · exact (talkW_setTalkW _ _ _ _ _ _).trans (if_neg (by omega))

theorem refillEntry_good {s : State} {i : Nat} (hi : s.integ.arms = [])
    (hg : ∀ w, w = 4 ∨ w = 5 ∨ w = 9 ∨ w = 10 → memGood (memGet s .talkers (16 * i + w)) = true) :
    refillEntry s i = bucketsRefilled s i := by
  have hread := talkerCheck_good_words (i := i) hi (ws := [4, 5, 9, 10]) (fun w hw => hg w (by simpa using hw)) readerHerder []
  have hcap : ∀ a b : Int, (if b < a then b else a) = min a b := fun a b => by omega
  unfold refillEntry bucketsRefilled
  simp only [hread, beq_iff_eq, hcap]
  rw [← sentencesRefilled, talkW_sentencesRefilled s (by decide)]
  rfl

theorem bucketsRefilled_frame (s : State) (i : Nat) : ∃ m, bucketsRefilled s i = { s with talkers := m } := by
  unfold bucketsRefilled sentencesRefilled
  split
  · split
    · exact ⟨_, rfl⟩
    · exact ⟨_, rfl⟩
  · split
    · exact ⟨_, rfl⟩
    · exact ⟨_, rfl⟩

/-- The refill of an entry leaves the others. -/
theorem sameEntry_bucketsRefilled (s : State) {i j : Nat} (h : i ≠ j) : SameEntry s i (bucketsRefilled s j) := by
  have hsentences : SameEntry s i (sentencesRefilled s j) :=
    .ite (fun _ _ => rfl) (sameEntry_setTalkW s _ h (by decide))
  exact .ite hsentences (hsentences.trans (sameEntry_setTalkW _ _ h (by decide)))

/-- The sentence tokens after a refill. -/
theorem talkW_bucketsRefilled_sentences {s : State} {i : Nat} (hdepth : fld (talkW s i 4) 15 0 ≠ 0) :
    (talkW (bucketsRefilled s i) i 9).toNat =
      min (fld (talkW s i 9) 23 0 + fld (talkW s i 4) 31 16) (fld (talkW s i 4) 15 0 * 256) := by
  have hlt := fld_lt (talkW s i 4) 15 0
  have hsentences : (talkW (sentencesRefilled s i) i 9).toNat =
      min (fld (talkW s i 9) 23 0 + fld (talkW s i 4) 31 16) (fld (talkW s i 4) 15 0 * 256) := by
    rw [sentencesRefilled, if_neg hdepth, talkW_setTalkW, if_pos rfl, BitVec.toNat_ofNat]
    omega
  unfold bucketsRefilled
  split
  · exact hsentences
  · rw [talkW_setTalkW, if_neg (by omega), hsentences]

/-- The ply tokens after a refill. -/
theorem talkW_bucketsRefilled_plies {s : State} {i : Nat} (hdepth : fld (talkW s i 5) 15 0 ≠ 0) :
    (talkW (bucketsRefilled s i) i 10).toInt =
      min ((talkW s i 10).toInt + (fld (talkW s i 5) 31 16 * 16 : Nat)) (fld (talkW s i 5) 15 0 * 16 : Nat) := by
  have hlt := fld_lt (talkW s i 5) 15 0
  have hleast := BitVec.le_toInt (talkW s i 10)
  rw [bucketsRefilled, if_neg hdepth, talkW_setTalkW, if_pos rfl, BitVec.toInt_ofInt_eq_self (by decide)]
  · omega
  · omega

/-- The refill that an entry of s is to have had, in t. -/
def EntryRefilled (s : State) (i : Nat) (t : State) : Prop :=
  (fld (talkW s i 4) 15 0 ≠ 0 →
      (talkW t i 9).toNat = min (fld (talkW s i 9) 23 0 + fld (talkW s i 4) 31 16) (fld (talkW s i 4) 15 0 * 256))
    ∧ (fld (talkW s i 5) 15 0 ≠ 0 →
        (talkW t i 10).toInt = min ((talkW s i 10).toInt + (fld (talkW s i 5) 31 16 * 16 : Nat)) (fld (talkW s i 5) 15 0 * 16 : Nat))

/-- The walk of BUCKET_REFILL over valid entries with good words. -/
theorem refillWalk {s : State} (hi : s.integ.arms = []) (hwf : Memory.wf s = true)
    (hg : ∀ i w, i ∈ validTalkers s → w = 4 ∨ w = 5 ∨ w = 9 ∨ w = 10 → memGood (memGet s .talkers (16 * i + w)) = true) :
    (∃ m, (validTalkers s).foldl refillEntry s = { s with talkers := m })
      ∧ ∀ i ∈ validTalkers s, EntryRefilled s i ((validTalkers s).foldl refillEntry s) := by
  have hserve : ∀ x i, (∃ m, x = { s with talkers := m }) → i ∈ validTalkers s ∧ SameEntry s i x → refillEntry x i = bucketsRefilled x i :=
    fun x i ⟨m, hx⟩ ⟨hmem, hsame⟩ => refillEntry_good (by rw [hx]; exact hi) fun w hw => by
      rw [hsame w (by omega)]
      exact hg i w hmem hw
  have hwalk := foldl_parts (f := refillEntry) (K := fun x => ∃ m, x = { s with talkers := m })
    (Q := fun i x => i ∈ validTalkers s ∧ SameEntry s i x) (R := EntryRefilled s) ?_ ?_ ?_ ?_
    (nodup_validTalkers hwf) ⟨s.talkers, rfl⟩ fun i hmem => ⟨hmem, fun _ _ => rfl⟩
  · exact ⟨hwalk.1, hwalk.2.1⟩
  · intro x i hx hq
    obtain ⟨m, h⟩ := bucketsRefilled_frame x i
    rw [hserve x i hx hq, h]
    obtain ⟨m', hx⟩ := hx
    exact ⟨m, by rw [hx]⟩
  · intro x i hx hq
    rw [hserve x i hx hq]
    obtain ⟨-, hsame⟩ := hq
    refine ⟨fun hdepth => ?_, fun hdepth => ?_⟩
    · rw [← hsame.talkW (by decide)] at hdepth
      rw [talkW_bucketsRefilled_sentences hdepth, hsame.talkW (by decide), hsame.talkW (by decide)]
    · rw [← hsame.talkW (by decide)] at hdepth
      rw [talkW_bucketsRefilled_plies hdepth, hsame.talkW (by decide), hsame.talkW (by decide)]
  · intro x i j hx hj hne hq
    rw [hserve x j hx hj]
    obtain ⟨hmem, hsame⟩ := hq
    exact ⟨hmem, hsame.trans (sameEntry_bucketsRefilled x hne)⟩
  · intro x i j hx hj hne hr
    rw [hserve x j hx hj]
    have hsame := sameEntry_bucketsRefilled x hne
    unfold EntryRefilled at hr ⊢
    rwa [hsame.talkW (by decide), hsame.talkW (by decide)]

/-! ## The sweep (R160) -/

/-- What TALKER_SWEEP does with an entry. -/
def sweepEntry (s : State) (i : Nat) : State :=
  let s := talkerCheck s i readerHerder [] [3, 8]
  let own := fld (talkW s i 3) 15 0
  let limit := if own == 0 then regF s Reg.talkerCtrl 31 16 else own
  let quiet := sinceTb s (sget 0 s.herder.heard i - 1)
  if talkerValid s i && !bit (talkW s i 3) 30 && fld (talkW s i 8) 16 0 == 0 && limit != 0 && decide (limit * Config.tickS < quiet) then
    count (setTalkW s i 3 (setFld (talkW s i 3) 31 31 0)) Reg.ttAged 15 0 1
  else s

theorem execTalkerSweep_due {s : State} (htick : ticking s = true) (hdue : s.herder.sweepS < drainMs s / 1000) :
    execTalkerSweep s = .next { (validTalkers s).foldl sweepEntry s with
      herder := { ((validTalkers s).foldl sweepEntry s).herder with
        sweepS := ((validTalkers s).foldl sweepEntry s).herder.sweepS + 1 } } := by
  unfold execTalkerSweep
  rw [if_neg (by simp [htick, hdue])]
  rfl

/-- An entry is unpinned, charged with nothing, and silent for longer than its limit. -/
def agedOut (s : State) (i : Nat) : Bool :=
  let own := fld (talkW s i 3) 15 0
  let limit := if own = 0 then regF s Reg.talkerCtrl 31 16 else own
  !bit (talkW s i 3) 30 && fld (talkW s i 8) 16 0 == 0 && limit != 0
    && decide (limit * 250000000 < s.time.tb - (sget 0 s.herder.heard i - 1))

/-- An entry that ages out is invalid, and is counted. -/
def entryAged (s : State) (i : Nat) : State := count (setTalkW s i 3 (setFld (talkW s i 3) 31 31 0)) Reg.ttAged 15 0 1

theorem sweepEntry_good {s : State} {i : Nat} (hi : s.integ.arms = [])
    (hg : ∀ w, w = 3 ∨ w = 8 → memGood (memGet s .talkers (16 * i + w)) = true) (hvalid : talkerValid s i = true) :
    sweepEntry s i = if agedOut s i then entryAged s i else s := by
  have hread := talkerCheck_good_words (i := i) hi (ws := [3, 8]) (fun w hw => hg w (by simpa using hw)) readerHerder []
  unfold sweepEntry agedOut
  simp only [hread, hvalid, Bool.true_and, beq_iff_eq]
  rfl

/-- An entry that ages out loses VALID in its word 3. -/
theorem memOf_entryAged (s : State) (i : Nat) : memOf (entryAged s i) = memOf (setTalkW s i 3 (setFld (talkW s i 3) 31 31 0)) :=
  memOf_count _ Reg.ttAged 15 0 1

theorem sameEntry_sweep (s : State) {i j : Nat} (h : i ≠ j) : SameEntry s i (if agedOut s j then entryAged s j else s) := by
  refine .ite (fun w hw => ?_) fun _ _ => rfl
  rw [memGet_of_memOf (memOf_entryAged s j)]
  exact sameEntry_setTalkW s _ h (by decide) w hw

/-- The counter of entries aged out is not TALKER_CTRL. -/
theorem reg_entryAged_talkerCtrl (s : State) (i : Nat) : reg (entryAged s i) Reg.talkerCtrl = reg s Reg.talkerCtrl := by
  rw [entryAged, reg_count_other (by decide)]
  exact reg_of_regs (setMem_regs s .talkers _) _

/-- VALID of an entry behind the sweep of it. -/
theorem talkerValid_sweep {s : State} {i : Nat} (hvalid : talkerValid s i = true) :
    talkerValid (if agedOut s i then entryAged s i else s) i = !agedOut s i := by
  cases agedOut s i with
  | false => exact hvalid
  | true =>
    have hword : talkW (entryAged s i) i 3 = setFld (talkW s i 3) 31 31 0 :=
      (memWord_of_memOf (memOf_entryAged s i) _ _).trans ((talkW_setTalkW s i i 3 3 _).trans (if_pos rfl))
    show bit (talkW (entryAged s i) i 3) 31 = false
    rw [hword, bit_eq, BitVec.getLsbD, testBit_setFld (by decide) (by decide), if_pos (by decide)]
    rfl

/-- From s to t nothing that the age of an entry rests on has changed outside the talker table. -/
structure SweepKept (s t : State) : Prop where
  frame : ∃ r n m, t = { s with regs := r, totals := n, talkers := m }
  ctrl : reg t Reg.talkerCtrl = reg s Reg.talkerCtrl

/-- The age of an entry rests on its words, on TALKER_CTRL, and on when it was heard. -/
theorem SweepKept.agedOut {s t : State} {i : Nat} (h : SweepKept s t) (hsame : SameEntry s i t) : agedOut t i = agedOut s i := by
  have hctrl := regF_of_reg h.ctrl 31 16
  obtain ⟨r, n, m, hframe⟩ := h.frame
  have htime : t.time = s.time := by rw [hframe]
  have hherder : t.herder = s.herder := by rw [hframe]
  unfold Machine.agedOut
  rw [hsame.talkW (by decide), hsame.talkW (by decide), hctrl, htime, hherder]

/-- The walk of TALKER_SWEEP over valid entries with good words. -/
theorem sweepWalk {s : State} (hi : s.integ.arms = []) (hwf : Memory.wf s = true)
    (hg : ∀ i w, i ∈ validTalkers s → w = 3 ∨ w = 8 → memGood (memGet s .talkers (16 * i + w)) = true) :
    SweepKept s ((validTalkers s).foldl sweepEntry s)
      ∧ ∀ i ∈ validTalkers s, talkerValid ((validTalkers s).foldl sweepEntry s) i = !agedOut s i := by
  have hvalid : ∀ x i, i ∈ validTalkers s → SameEntry s i x → talkerValid x i = true := fun x i hmem hsame => by
    rw [talkerValid, hsame.talkW (by decide)]
    exact talkerValid_of_mem hwf hmem
  have hserve : ∀ x i, SweepKept s x → i ∈ validTalkers s ∧ SameEntry s i x →
      sweepEntry x i = if agedOut x i then entryAged x i else x := fun x i hx ⟨hmem, hsame⟩ => by
    obtain ⟨r, n, m, hframe⟩ := hx.frame
    refine sweepEntry_good (by rw [hframe]; exact hi) (fun w hw => ?_) (hvalid x i hmem hsame)
    rw [hsame w (by omega)]
    exact hg i w hmem hw
  have hwalk := foldl_parts (f := sweepEntry) (K := SweepKept s) (Q := fun i x => i ∈ validTalkers s ∧ SameEntry s i x)
    (R := fun i x => talkerValid x i = !agedOut s i) ?_ ?_ ?_ ?_
    (nodup_validTalkers hwf) ⟨⟨s.regs, s.totals, s.talkers, rfl⟩, rfl⟩ fun i hmem => ⟨hmem, fun _ _ => rfl⟩
  · exact ⟨hwalk.1, hwalk.2.1⟩
  · intro x i hx hq
    rw [hserve x i hx hq]
    split
    · obtain ⟨r, n, m, hframe⟩ := hx.frame
      exact ⟨⟨_, _, _, by rw [hframe]; rfl⟩, (reg_entryAged_talkerCtrl x i).trans hx.ctrl⟩
    · exact hx
  · intro x i hx hq
    rw [hserve x i hx hq, ← hx.agedOut hq.2]
    exact talkerValid_sweep (hvalid x i hq.1 hq.2)
  · intro x i j hx hj hne hq
    rw [hserve x j hx hj]
    obtain ⟨hmem, hsame⟩ := hq
    exact ⟨hmem, hsame.trans (sameEntry_sweep x hne)⟩
  · intro x i j hx hj hne hr
    rw [hserve x j hx hj, talkerValid, (sameEntry_sweep x hne).talkW (by decide)]
    exact hr

end Sys2Proof.Machine
end

section
/-! # Dispatch and the hounds of engines (R167, R168, R170, R187, R188) -/

namespace Sys2Proof.Machine

/-! ## The dispatch of the commands -/

theorem exec_dispatch (s : State) : exec .dispatch s = execDispatch s := rfl

theorem exec_engineHoundTrip (e : Fin 32) (s : State) : exec (.engineHoundTrip e) s = execEngineHoundTrip e s := rfl

/-! ## A record is given to an engine (R168, R170) -/

/-- Quiet reads of good header words change nothing, and none fails. -/
theorem headerLoad_good {s : State} {r : Rec} {ks : List Nat} (hi : s.integ.arms = [])
    (hg : ∀ k ∈ ks, memGood (memGet s .kennel (4 * r.gran + k)) = true) (e : Nat) : headerLoad s e r ks = (s, true) := by
  induction ks with
  | nil => rfl
  | cons k ks ih =>
    simp only [headerLoad, memRead_good hi (hg k List.mem_cons_self), Bool.false_eq_true, if_false]
    exact ih fun j hj => hg j (List.mem_cons_of_mem _ hj)

/-- The hub with record r given to engine e, before the engine has loaded anything. -/
def engGiven (s : State) (e : Nat) (r : Rec) (bank : Nat) : State :=
  setEngine s e
    { engine s e with
      recd := some r, rebuild := none, plies := 0, startTb := s.time.tb, paused := 0, waitTb := none, effect := false,
      reparsed := false, judged := false, reload := false, lastSeq := r.seq, lastTalker := r.talker, bank := bank }

/-- A record with good header words starts on its engine. -/
theorem engStart_good {s : State} {r : Rec} (hi : s.integ.arms = [])
    (hg : ∀ k, k = 0 ∨ k = 1 ∨ k = 2 ∨ k = 9 ∨ k = 10 ∨ k = 11 → memGood (memGet s .kennel (4 * r.gran + k)) = true)
    (e bank : Nat) (route : Word) :
    engStart s e r none bank route = engLoad (engGiven s e r bank) e r route (recordPlies s r.talker) bank := by
  have hload : headerLoad (engGiven s e r bank) e r [0, 1, 2, 9, 10, 11] = (engGiven s e r bank, true) :=
    headerLoad_good (s := engGiven s e r bank) hi
      (fun k hk => by
        rw [engGiven, memGet_setEngine]
        exact hg k (by simpa using hk)) e
  calc
    engStart s e r none bank route =
        if (headerLoad (engGiven s e r bank) e r [0, 1, 2, 9, 10, 11]).2 then
          engLoad (headerLoad (engGiven s e r bank) e r [0, 1, 2, 9, 10, 11]).1 e r route
            (recordPlies (headerLoad (engGiven s e r bank) e r [0, 1, 2, 9, 10, 11]).1 r.talker) bank
        else engEnd (engLoad (headerLoad (engGiven s e r bank) e r [0, 1, 2, 9, 10, 11]).1 e r route
            (recordPlies (headerLoad (engGiven s e r bank) e r [0, 1, 2, 9, 10, 11]).1 r.talker) bank) e false := rfl
    _ = engLoad (engGiven s e r bank) e r route (recordPlies s r.talker) bank := by
      rw [hload, if_pos rfl]
      rfl

/-- The hub with record r taken from those that wait, and the dispatch counted. -/
def dispatchTaken (s : State) (r : Rec) : State :=
  count (setHerder s { s.herder with waiting := s.herder.waiting.filter fun x => x.seq != r.seq }) Reg.herderDispatch 31 0 1

/-- The chosen head goes to the lowest free engine. -/
theorem execDispatch_given {s : State} {e : Nat} {r : Rec} (htick : ticking s = true) (hquiet : Quiet s) (hboot : bootBusy s = false)
    (hfree : freeEngine s = some e) (hrebuilds : s.herder.rebuilds = []) (hnext : nextHead s (readyHeads s) = some r)
    (h3 : memGood (memGet s .talkers (16 * r.talker + 3)) = true) (h6 : memGood (memGet s .talkers (16 * r.talker + 6)) = true)
    (hroute : memGood (memGet s .routes (512 * s.pack.active + routeIndex s r)) = true) :
    execDispatch s = .next (engStart (dispatchTaken s r) e r none s.pack.active
      (memWord s .routes (512 * s.pack.active + routeIndex s r))) := by
  have hread := talkerCheck_good_words (i := r.talker) hquiet.1 (ws := [3, 6]) (by simp [h3, h6]) readerHerder []
  have hbank := bankRead_good hquiet hroute readerHerder []
  simp only [execDispatch, htick, hboot, hfree, hrebuilds, hnext, hread, hbank, Bool.not_true, Bool.or_false, Bool.false_eq_true,
    if_false]
  simp only [dispatchTaken, hrebuilds]

/-- What an engine starts from. -/
theorem engine_engLoad (s : State) (e : Nat) (r : Rec) (route : Word) (budget bank : Nat) :
    ∃ w c f, engine (engLoad s e r route budget bank) e =
      { engine s e with
        w := w, pc := fld route 14 0, cursor := c, flags := f, stack := [], fields := [], budget := budget, budget0 := budget, bank := bank,
        item := none, closes := 0 }
      ∧ w.getD 0 0 = recW s r 0 ∧ w.getD 7 0 = BitVec.ofNat 32 budget :=
  ⟨_, _, _, (engine_setEngine s e e _).trans (if_pos rfl), rfl, rfl⟩

/-- What the engine, the queue of the Herder and the count of dispatches hold after a dispatch. -/
theorem dispatch_spec {s : State} {r : Rec} (hi : s.integ.arms = [])
    (hg : ∀ k, k = 0 ∨ k = 1 ∨ k = 2 ∨ k = 9 ∨ k = 10 ∨ k = 11 → memGood (memGet s .kennel (4 * r.gran + k)) = true)
    (e bank : Nat) (route : Word) :
    ∃ t, engStart (dispatchTaken s r) e r none bank route = t ∧ (engine t e).recd = some r ∧ (engine t e).pc = fld route 14 0
      ∧ (engine t e).bank = bank ∧ (engine t e).budget = recordPlies s r.talker ∧ (engine t e).plies = 0
      ∧ (engine t e).w.getD 0 0 = memWord s .kennel (4 * r.gran) ∧ (engine t e).w.getD 7 0 = BitVec.ofNat 32 (recordPlies s r.talker)
      ∧ (∀ x, x ≠ e → engine t x = engine s x) ∧ t.herder.waiting = s.herder.waiting.filter (fun x => x.seq != r.seq)
      ∧ total t Reg.herderDispatch 0 = (total s Reg.herderDispatch 0 + 1) % 2 ^ 32 := by
  have hmem : memOf (dispatchTaken s r) = memOf s := memOf_count _ Reg.herderDispatch 31 0 1
  have hplies : recordPlies (dispatchTaken s r) r.talker = recordPlies s r.talker := by
    rw [recordPlies, recordPlies, talkW, talkW, memWord_of_memOf hmem]
  have hcounted : total (dispatchTaken s r) Reg.herderDispatch 0 = (total s Reg.herderDispatch 0 + 1) % 2 ^ 32 := by
    rw [dispatchTaken, total_count]
    rfl
  have hheader : recW (engGiven (dispatchTaken s r) e r bank) r 0 = memWord s .kennel (4 * r.gran) := by
    rw [engGiven, recW_setEngine, recW, memWord_of_memOf hmem, Nat.add_zero]
  have hother : ∀ x, x ≠ e →
      engine (engLoad (engGiven (dispatchTaken s r) e r bank) e r route (recordPlies s r.talker) bank) x = engine s x := fun x hx => by
    rw [engLoad, engine_setEngine, if_neg hx, engGiven, engine_setEngine, if_neg hx]
    rfl
  obtain ⟨w, c, f, hloaded, hw0, hw7⟩ := engine_engLoad (engGiven (dispatchTaken s r) e r bank) e r route (recordPlies s r.talker) bank
  have hgiven : (engine (engGiven (dispatchTaken s r) e r bank) e).recd = some r
      ∧ (engine (engGiven (dispatchTaken s r) e r bank) e).plies = 0 := by
    rw [engGiven, engine_setEngine, if_pos rfl]
    exact ⟨rfl, rfl⟩
  obtain ⟨hrecd, hplies0⟩ := hgiven
  rw [engStart_good (s := dispatchTaken s r) hi (fun k hk => by rw [memGet_of_memOf hmem]; exact hg k hk), hplies]
  refine ⟨_, rfl, ?_, ?_, ?_, ?_, ?_, ?_, ?_, hother, rfl, hcounted⟩
  · rw [hloaded]
    exact hrecd
  · rw [hloaded]
  · rw [hloaded]
  · rw [hloaded]
  · rw [hloaded]
    exact hplies0
  · rw [hloaded]
    exact hw0.trans hheader
  · rw [hloaded]
    exact hw7

/-! ## Engine hounds (R187, R188) -/

theorem execEngineHoundTrip_within {s : State} {e : Fin 32} {r : Rec} (hrec : (engine s e).recd = some r)
    (hin : wallTicks s (engine s e) ≤ houndLimit s (engine s e)) : execEngineHoundTrip e s = .next s := by
  have hpast : houndPast s e = false := by simpa [houndPast] using hin
  simp only [execEngineHoundTrip, hrec, hpast, Bool.and_false, Bool.false_eq_true, if_false]

theorem execEngineHoundTrip_past {s : State} {e : Fin 32} {r : Rec} (htick : ticking s = true) (hrec : (engine s e).recd = some r)
    (hpast : houndLimit s (engine s e) < wallTicks s (engine s e)) :
    execEngineHoundTrip e s = .next (engWedge s e 0x70 r.talker (houndDetail s e) false) := by
  have hpast : houndPast s e = true := by simpa [houndPast] using hpast
  simp only [execEngineHoundTrip, hrec, htick, hpast, Bool.and_true, if_true]

/-- A record is abandoned, and counted (R188). -/
theorem engAbandon_busy {s : State} {e : Nat} {r : Rec} (hrec : (engine s e).recd = some r) :
    engAbandon s e = engEnd (count s Reg.packAbandon 15 0 1) e true := by
  simp [engAbandon, engBusy, hrec]

/-- An engine whose record is abandoned is wedged, among the units wedged. -/
def engineWedged (s : State) (e : Nat) : State :=
  { setEngine s e { engine s e with wedged := true } with
    integ := { s.integ with wedged := s.integ.wedged ++ [unitEngine e] } }

theorem engWedge_eq (s : State) (e det d2 d3 : Nat) (inj : Bool) :
    engWedge s e det d2 d3 inj = event (fire (engineWedged (engAbandon s e) e) det (unitEngine e) d2 d3 inj none) 3 0 (unitEngine e) d2 d3 inj
      (now (fire (engineWedged (engAbandon s e) e) det (unitEngine e) d2 d3 inj none)) := rfl

/-- Neither a report nor an event changes the Pack, the units wedged, or WEDGE_LOG. -/
theorem reported_frame (s : State) (det unit d2 d3 : Nat) (inj : Bool) (kind : Nat) (t : Stamp) :
    (event (fire s det unit d2 d3 inj none) kind 0 unit d2 d3 inj t).pack = s.pack
      ∧ (event (fire s det unit d2 d3 inj none) kind 0 unit d2 d3 inj t).integ.wedged = s.integ.wedged
      ∧ (event (fire s det unit d2 d3 inj none) kind 0 unit d2 d3 inj t).integ.wedges = s.integ.wedges := by
  obtain ⟨r, g, o, q, f, m, n, h⟩ := fireAt_frame s det unit d2 d3 inj none (now s)
  obtain ⟨r', g', o', q', f', h'⟩ := event_frame (fire s det unit d2 d3 inj none) kind 0 unit d2 d3 inj t
  rw [h', fire, h]
  exact ⟨rfl, rfl, rfl⟩

/-- An engine whose record has run past its limit is wedged, with its record abandoned and reported. -/
theorem engWedge_spec {s : State} {e : Nat} {r : Rec} (hrec : (engine s e).recd = some r) (d2 d3 : Nat) (inj : Bool) :
    ∃ t, engWedge s e 0x70 d2 d3 inj = t ∧ (engine t e).wedged = true ∧ (engine t e).recd = none ∧ isWedged t (unitEngine e) = true
      ∧ FiredOnce s t 0x70 ∧ total t Reg.packAbandon 0 = (total s Reg.packAbandon 0 + 1) % 2 ^ 32 := by
  have h70 : HoundWord (Reg.detCount 0x70) := .inl rfl
  have habandon : HoundWord Reg.packAbandon := .inr (.inr (.inr rfl))
  have hended : HoundStill (count s Reg.packAbandon 15 0 1) (engAbandon s e) := by
    rw [engAbandon_busy hrec]
    exact houndStill_engEnd _ e true
  have hrecd : (engine (engAbandon s e) e).recd = none := by
    rw [engAbandon_busy hrec]
    exact engine_engEnd_recd _ e true
  generalize hu : engineWedged (engAbandon s e) e = u
  have hengine : engine u e = { engine (engAbandon s e) e with wedged := true } := by
    rw [← hu]
    exact (engine_setEngine _ e e _).trans (if_pos rfl)
  have hregs : ∀ off, reg u off = reg (engAbandon s e) off := fun off => by rw [← hu]; rfl
  have htotals : ∀ off lo, total u off lo = total (engAbandon s e) off lo := fun off lo => by rw [← hu]; rfl
  have hunit : unitEngine e ∈ u.integ.wedged := by
    rw [← hu]
    exact List.mem_append_right _ List.mem_cons_self
  have hevent := houndStill_event (fire u 0x70 (unitEngine e) d2 d3 inj none) 3 0 (unitEngine e) d2 d3 inj
    (now (fire u 0x70 (unitEngine e) d2 d3 inj none))
  have hfired := firedOnce_fire u 0x70 (unitEngine e) d2 d3 inj
  have hquiet : total (fire u 0x70 (unitEngine e) d2 d3 inj none) Reg.packAbandon 0 = total u Reg.packAbandon 0 :=
    total_fire_other u _ _ _ _ _ (by decide)
  obtain ⟨hpack, hwedged, -⟩ := reported_frame u 0x70 (unitEngine e) d2 d3 inj 3 (now (fire u 0x70 (unitEngine e) d2 d3 inj none))
  rw [engWedge_eq, hu]
  refine ⟨_, rfl, ?_, ?_, ?_, ?_, ?_⟩
  · rw [engine, hpack, ← engine, hengine]
  · rw [engine, hpack, ← engine, hengine]
    exact hrecd
  · rw [isWedged, hwedged]
    simpa using hunit
  · refine firedOnce_from (s' := u) ?_ ?_ ?_
    · rw [htotals, hended.total _ h70, total_count_other s 15 1 (by decide)]
    · rw [hregs, hended.reg _ h70, reg_count_other (by decide)]
    · rw [FiredOnce, hevent.total _ h70, hevent.reg _ h70]
      exact hfired
  · rw [hevent.total _ habandon, hquiet, htotals, hended.total _ habandon, total_count]

end Sys2Proof.Machine
end

section
/-! # What a wedge leaves of the hounds' words (R344, R345)

The wedge of a unit ends what the unit did: copies are discarded, commands complete, a port or the bridge stops. None of it wedges a further
unit, enters a trip in WEDGE_LOG, or counts a hound's detector. -/

namespace Sys2Proof.Machine

/-! ## Endpoints that are given up (R230, R367) -/

theorem not_houndWord_lqFlushed (l : Nat) : ¬HoundWord (Reg.lqFlushed l) := by
  unfold HoundWord Reg.lqFlushed Reg.detCount Reg.packCounts Reg.packAbandon
  omega

theorem houndStill_flushCopies (s : State) (p : Copy → Bool) : HoundStill s (flushCopies s p).1 := by
  unfold flushCopies
  extract_lets gone q x
  have hx : HoundStill s x := .of_same rfl rfl rfl
  have hcount : ∀ (t : State) (c : Copy), HoundStill t (count t (Reg.lqFlushed c.listener) 31 16 1) := fun t c =>
    houndStill_count t (not_houndWord_lqFlushed c.listener) (by decide) 31 1
  exact hx.trans (.foldl hcount gone x)

theorem houndStill_setLq (s : State) (q : Listeners) : HoundStill s (setLq s q) := .of_same rfl rfl rfl

theorem houndStill_flushEndpoint (s : State) (kind num : Nat) : HoundStill s (flushEndpoint s kind num).1 := by
  have hcopies := houndStill_flushCopies s fun c => boundTo c.w0 kind num none
  unfold flushEndpoint
  exact hcopies.trans (houndStill_setLq _ _)

theorem houndStill_releaseNow (s : State) (e : Nat) : HoundStill s (releaseNow s e) := by
  have hdisown : HoundStill s (disown s e) := .of_same rfl rfl rfl
  unfold releaseNow flushOwner
  obtain ⟨k, n⟩ := endpointKind e
  exact .ite hdisown (hdisown.trans (houndStill_flushEndpoint _ k n))

theorem houndStill_releaseDone (s : State) (e : Nat) : HoundStill s (releaseDone s e) := .ite (houndStill_releaseNow s e) (.refl s)

theorem houndStill_releaseAll (s : State) : HoundStill s (releaseAll s) := by
  unfold releaseAll
  extract_lets p x y
  have hx : HoundStill s x := .of_same rfl rfl rfl
  have hy : HoundStill x y := houndStill_flushCopies x _
  exact (hx.trans hy).trans (houndStill_setLq y _)

/-- The hub stops (R345). -/
theorem houndStill_hubStop (s : State) (px : Bool) : HoundStill s (hubStop s px) := by
  have hlow : HoundStill s (aliveLow s) := by
    obtain ⟨l, h⟩ := aliveLow_frame s
    rw [h]
    exact .of_same rfl rfl rfl
  exact (hlow.trans (houndStill_releaseAll _)).trans ⟨rfl, rfl, fun _ _ => rfl, fun _ _ => rfl⟩

/-- A command that waits, where one does, completes. -/
theorem houndStill_finishSome (s : State) (slot : Option Nat) (st r0 r1 : Nat) :
    HoundStill s (match slot with
      | some k => finish s k st r0 r1
      | none => s) := by
  cases slot with
  | none => exact .refl s
  | some k => exact houndStill_finish s k st r0 r1

/-! ## Serial ports and event outputs -/

theorem houndStill_wedgeSerial (s : State) (p : Nat) : HoundStill s (wedgeSerial s p) := by
  unfold wedgeSerial
  extract_lets v waits x q y z
  have hy : HoundStill s y := .of_same rfl rfl rfl
  exact (hy.trans (houndStill_finishSome y waits stWedged 0 0)).trans (houndStill_releaseNow _ _)

theorem houndStill_wedgeEventOut (s : State) {m : Nat} (hm : m < 8) : HoundStill s (wedgeEventOut s m) := by
  have hctrl : ¬HoundWord (Reg.eoCtrl m) := by
    unfold HoundWord Reg.eoCtrl Reg.detCount Reg.packCounts Reg.packAbandon
    omega
  unfold wedgeEventOut
  extract_lets o x y
  have hx : HoundStill s x := .of_same rfl rfl rfl
  have hy : HoundStill x y := by
    unfold y
    split
    · exact (houndStill_setF x hctrl 31 31 0).trans (houndStill_finish _ _ _ _ _)
    · exact .refl x
  exact (hx.trans hy).trans (houndStill_releaseNow y _)

/-! ## CAN and Ethernet ports -/

theorem not_houndWord_cnCtrl (n : Nat) : ¬HoundWord (Reg.cnCtrl n) := by
  unfold HoundWord Reg.cnCtrl Reg.detCount Reg.packCounts Reg.packAbandon
  omega

theorem houndStill_canStop (s : State) (n slot : Nat) : HoundStill s (canStop s n slot) := by
  unfold canStop
  extract_lets v outs ins v' x y
  have hx : HoundStill s x := (HoundStill.of_same rfl rfl rfl : HoundStill s (setCan s n v')).trans
    (houndStill_setF _ (not_houndWord_cnCtrl n) 31 31 0)
  have hy : HoundStill x y := .foldl (fun t c => houndStill_finish t c.slot _ _ _) v.sends x
  exact (((hx.trans hy).trans (houndStill_flushEndpoint y 2 n)).trans (houndStill_releaseDone _ _)).trans (houndStill_finish _ _ _ _ _)

theorem houndStill_laneDrop (s : State) (n : Nat) : HoundStill s (laneDrop s n) := by
  have hcounts : ¬HoundWord (Reg.cnTxCounts n) := by
    unfold HoundWord Reg.cnTxCounts Reg.detCount Reg.packCounts Reg.packAbandon
    omega
  have hset : ∀ v, HoundStill s (setCan s n v) := fun v => .of_same rfl rfl rfl
  exact .ite (.refl s) ((hset _).trans (houndStill_count _ hcounts (by decide) 15 1))

theorem houndStill_wedgeCan (s : State) (n : Nat) : HoundStill s (wedgeCan s n) := by
  unfold wedgeCan
  extract_lets v x y z w
  split
  · exact (houndStill_canStop s n _).trans (houndStill_releaseNow _ _)
  · have hx : HoundStill s x := .of_same rfl rfl rfl
    have hy : HoundStill x y := (houndStill_laneDrop x n).trans (.foldl (fun t c => houndStill_finish t c.slot _ _ _) v.sends _)
    have hz : HoundStill y z := by
      unfold z
      split
      · exact houndStill_finish y _ _ _ _
      · exact .refl y
    exact (((hx.trans hy).trans hz).trans (houndStill_finishSome z v.pendApplied stWedged 0 0)).trans (houndStill_releaseNow _ _)

theorem houndStill_setEth (s : State) (n : Nat) (v : EthPort) : HoundStill s (setEth s n v) := .of_same rfl rfl rfl

theorem not_houndWord_ethTxErr (n : Nat) : ¬HoundWord (Reg.ethTxErr n) := by
  unfold HoundWord Reg.ethTxErr Reg.detCount Reg.packCounts Reg.packAbandon
  omega

theorem houndStill_ethDropLaunches (s : State) (n status : Nat) : HoundStill s (ethDropLaunches s n status) := by
  unfold ethDropLaunches
  extract_lets v x
  have hx : HoundStill s x := .of_same rfl rfl rfl
  have hcount : ∀ t, HoundStill t (count t (Reg.ethTxErr n) 23 16 1) := fun t =>
    houndStill_count t (not_houndWord_ethTxErr n) (by decide) 23 1
  exact hx.trans (.foldl (fun t f => (HoundStill.ite (hcount t) (.refl t)).trans (houndStill_finish _ f.slot status 0 0)) v.launches x)

theorem houndStill_ethAbandon (s : State) (n : Nat) : HoundStill s (ethAbandon s n) := by
  have hset := houndStill_setEth s n { eth s n with tx := none }
  have herr : HoundStill s (count (setEth s n { eth s n with tx := none }) (Reg.ethTxErr n) 23 16 1) :=
    hset.trans (houndStill_count _ (not_houndWord_ethTxErr n) (by decide) 23 1)
  unfold ethAbandon
  extract_lets v t
  split
  · exact .refl s
  · exact herr.trans (houndStill_finish _ _ _ _ _)
  · exact herr.trans (houndStill_releaseDone _ _)
  · exact hset

theorem houndStill_ethLinkDown (s : State) (n : Nat) : HoundStill s (ethLinkDown s n) := by
  unfold ethLinkDown
  split
  · exact .refl s
  · extract_lets v q x y
    have hx : HoundStill s x := .of_same rfl rfl rfl
    have hy : HoundStill x y := (houndStill_ethAbandon x n).trans (houndStill_ethDropLaunches _ n stLinkFailed)
    exact (hx.trans hy).trans (houndStill_event y 2 0 (unitEth n) 0 0 false (now y))

theorem houndStill_ethStop (s : State) (n slot : Nat) : HoundStill s (ethStop s n slot) := by
  have hctrl : ¬HoundWord (Reg.ethCtrl n) := by
    unfold HoundWord Reg.ethCtrl Reg.detCount Reg.packCounts Reg.packAbandon
    omega
  unfold ethStop
  extract_lets v x y
  have hx : HoundStill s x := (houndStill_setF s hctrl 31 31 0).trans (houndStill_setEth _ n _)
  have hy : HoundStill x y := houndStill_ethDropLaunches x n stDiscarded
  exact ((((hx.trans hy).trans (houndStill_flushEndpoint y 3 n)).trans (houndStill_releaseDone _ (epEth n))).trans
    (houndStill_ethLinkDown _ n)).trans (houndStill_finish _ _ _ _ _)

theorem houndStill_ethFrameEnd (s : State) (n : Nat) : HoundStill s (ethFrameEnd s n) := by
  have hdone := houndStill_releaseDone s (epEth n)
  unfold ethFrameEnd
  extract_lets x
  split
  · exact hdone.trans (houndStill_ethStop _ _ _)
  · exact hdone

/-! ## Panels -/

theorem houndStill_panelMaps (s : State) (n : Nat) : HoundStill s (panelMaps s n) := by
  have hrun : ¬HoundWord (Reg.pnRun n) := by
    unfold HoundWord Reg.pnRun Reg.detCount Reg.packCounts Reg.packAbandon
    omega
  have hpend : ¬HoundWord (Reg.pnPend n) := by
    unfold HoundWord Reg.pnPend Reg.detCount Reg.packCounts Reg.packAbandon
    omega
  exact (houndStill_setReg s hrun _).trans (houndStill_setReg _ hpend _)

theorem houndStill_panelStop (s : State) (n flushed : Nat) (slot : Option Nat) : HoundStill s (panelStop s n flushed slot) := by
  have hcounts : ¬HoundWord (Reg.pnCounts n) := by
    unfold HoundWord Reg.pnCounts Reg.detCount Reg.packCounts Reg.packAbandon
    omega
  have hend : ∀ (t : State) (u : PanelRun), HoundStill t (panelEnd t u) := fun t u => by
    unfold panelEnd
    split
    · exact houndStill_finish t _ _ _ _
    · exact .refl t
  have hreq : ∀ (t : State) (q : PanelReq), HoundStill t (match q.slot with
      | some k => finish (count t (Reg.pnCounts n) 7 0 1) k stDone 0 0
      | none => t) := fun t q => by
    split
    · exact (houndStill_count t hcounts (by decide) 7 1).trans (houndStill_finish _ _ _ _ _)
    · exact .refl t
  unfold panelStop
  extract_lets p x y z w v
  have hx : HoundStill s x := .of_same rfl rfl rfl
  have hy : HoundStill x y := .foldl hend p.runs x
  have hz : HoundStill y z := .foldl hreq p.reqs y
  have hv : HoundStill z v := (houndStill_panelMaps z n).trans (.ite (.of_same rfl rfl rfl) (.refl _))
  exact (((hx.trans hy).trans hz).trans hv).trans (houndStill_finishSome v slot _ _ _)

theorem houndStill_wedgePanel (s : State) (n : Nat) : HoundStill s (wedgePanel s n) := by
  have hset : ∀ q, HoundStill s (setPanel s n q) := fun q => .of_same rfl rfl rfl
  unfold wedgePanel
  extract_lets p x
  have hx : HoundStill s x := by
    unfold x
    split
    · exact (hset _).trans (houndStill_finish _ _ _ _ _)
    · exact .refl s
  exact (hx.trans (houndStill_panelStop x n 0 _)).trans (houndStill_releaseNow _ _)

/-! ## The cabinet bus -/

theorem houndStill_setBridge (s : State) (b : Bridge) : HoundStill s (setBridge s b) := .of_same rfl rfl rfl

theorem houndStill_prefDiscard (s : State) (w n addr : Nat) (inj : Bool) : HoundStill s (prefDiscard s w n addr inj) := by
  have hdiscard : ¬HoundWord (Reg.cbFwPrefDiscard w) := by
    unfold HoundWord Reg.cbFwPrefDiscard Reg.detCount Reg.packCounts Reg.packAbandon
    omega
  have haddr : ¬HoundWord (Reg.cbFwPrefAddr w) := by
    unfold HoundWord Reg.cbFwPrefAddr Reg.detCount Reg.packCounts Reg.packAbandon
    omega
  unfold prefDiscard
  split
  · exact .refl s
  · extract_lets x y
    have hx : HoundStill s x := houndStill_count s hdiscard (by decide) 31 n
    have hy : HoundStill x y := .ite (.refl x) (houndStill_setReg x haddr _)
    exact (hx.trans hy).trans (houndStill_fire y (by decide) (by decide) _ _ _ _ _)

theorem houndStill_prefInvalidate (s : State) (w : Nat) (inj : Bool) : HoundStill s (prefInvalidate s w inj) := by
  unfold prefInvalidate
  extract_lets x
  have hx : HoundStill s x := by
    unfold x
    split
    · exact .ite ((houndStill_prefDiscard s w _ _ false).trans (houndStill_setBridge _ _)) (.refl s)
    · exact .refl s
  split
  · exact hx
  · exact (hx.trans (houndStill_setBridge x _)).trans (houndStill_prefDiscard _ w _ _ inj)

theorem houndStill_readReply (s : State) (r : FarHostRead) : HoundStill s (readReply s r) := by
  have hemit : ∀ o, HoundStill s (emit s o) := fun o => .of_same rfl rfl rfl
  exact .ite ((hemit _).trans (houndStill_setBridge _ _)) (hemit _)

theorem houndStill_settleBridge (n : Nat) (s : State) : HoundStill s (settleBridge n s) := by
  induction n generalizing s with
  | zero => exact .refl s
  | succ n ih =>
    unfold settleBridge
    split
    · exact .refl s
    · rename_i c _
      have hfence : HoundStill s (fenceEnd s c.slot) := (houndStill_setBridge s _).trans (houndStill_finishAt _ _ _ _ _ _)
      exact .ite ((houndStill_finish s c.slot _ _ _).trans (ih _)) (.ite (hfence.trans (ih _)) (.refl s))

theorem houndStill_rmwEnd (s : State) (r : FarRmw) (status res0 res1 : Nat) : HoundStill s (rmwEnd s r status res0 res1) :=
  ((houndStill_setBridge s _).trans (houndStill_finish _ r.slot status res0 res1)).trans (houndStill_settleBridge _ _)

theorem houndStill_bridgeOff (s : State) : HoundStill s (bridgeOff s false) := by
  unfold bridgeOff
  extract_lets b granted keep gone kept cleared inRead held done b1 b2 b3 b4 set replied freed settled left src
  have hkept : HoundStill s kept := .refl s
  have hcleared : HoundStill kept cleared := .foldl (fun t w => houndStill_prefInvalidate t w false) _ kept
  have hset : HoundStill cleared set := houndStill_setBridge cleared b4
  have hreplied : HoundStill set replied := .foldl (fun t r => houndStill_readReply t _) done set
  have hfreed : HoundStill replied freed := .ite (.of_same rfl rfl rfl) (.refl replied)
  have hsettled : HoundStill freed settled := by
    unfold settled
    split
    · exact .ite (.refl freed) (houndStill_rmwEnd freed _ stFarFault 0xFFFF 0)
    · exact .refl freed
  have hcmds : HoundStill settled { settled with host := { src with cmds := settled.host.cmds.map left } } := .of_same rfl rfl rfl
  exact ((((((hkept.trans hcleared).trans hset).trans hreplied).trans hfreed).trans hsettled).trans hcmds).trans
    (houndStill_settleBridge _ _)

/-! ## The flash -/

theorem houndStill_loadFault (s : State) (c : HostCmd) (status : Nat) : HoundStill s (loadFault s c status) := by
  have hsrc : ¬HoundWord (Reg.bankSrc (idleBank s)) := by
    unfold HoundWord Reg.bankSrc idleBank Reg.detCount Reg.packCounts Reg.packAbandon
    omega
  exact .ite ((houndStill_setF s hsrc 0 0 1).trans (houndStill_finish _ _ _ _ _)) (houndStill_finish s _ _ _ _)

theorem houndStill_wedgeFlash (s : State) : HoundStill s (wedgeFlash s) := by
  unfold wedgeFlash
  extract_lets ends
  have hends : ∀ t c, HoundStill t (ends t c) := fun t c =>
    .ite (houndStill_finish t c.slot stWedged 0 0) (.ite (houndStill_loadFault t c stFlashFault) (.refl t))
  exact .foldl hends _ s

/-! ## Every unit (R344) -/

/-- From s to t no further unit is wedged or logged, and the count of the crossing hounds stays. -/
structure TripStill (s t : State) : Prop where
  wedged : t.integ.wedged = s.integ.wedged
  wedges : t.integ.wedges = s.integ.wedges
  total : total t (Reg.detCount 0x71) 0 = total s (Reg.detCount 0x71) 0

theorem HoundStill.tripStill {s t : State} (h : HoundStill s t) : TripStill s t := ⟨h.wedged, h.wedges, h.total _ (.inr (.inl rfl))⟩

/-- What the wedge of a unit does beyond marking it. An engine's record is abandoned, which its own counter counts. -/
theorem tripStill_wedgeUnit (s : State) (x : Crossing) : TripStill s (wedgeUnit s x) := by
  cases x with
  | serial p => exact (houndStill_wedgeSerial s p).tripStill
  | watch p =>
    have hwatch : ∀ w, HoundStill s { s with power := { s.power with watches := w } } := fun w => .of_same rfl rfl rfl
    exact ((hwatch _).trans (houndStill_wedgeSerial _ p)).tripStill
  | can n => exact (houndStill_wedgeCan s n).tripStill
  | ethernet n tx =>
    exact (((houndStill_ethLinkDown s n).trans (houndStill_ethFrameEnd _ n)).trans (houndStill_releaseNow _ _)).tripStill
  | eventIn i => exact (HoundStill.refl s).tripStill
  | eventOut m => exact (houndStill_wedgeEventOut s m.isLt).tripStill
  | panel n => exact (houndStill_wedgePanel s n).tripStill
  | bridge => exact (houndStill_bridgeOff s).tripStill
  | flash => exact (houndStill_wedgeFlash s).tripStill
  | engine e =>
    have hend := houndStill_engEnd (count s Reg.packAbandon 15 0 1) e true
    have habandon : TripStill s (engAbandon s e) := by
      unfold engAbandon
      split
      · exact ⟨hend.wedged, hend.wedges, hend.tripStill.total.trans (total_count_other s 15 1 (by decide))⟩
      · exact (HoundStill.refl s).tripStill
    exact ⟨habandon.wedged, habandon.wedges, habandon.total⟩
  | kennel => exact (houndStill_hubStop s false).tripStill
  | herder => exact (houndStill_hubStop s false).tripStill
  | copier => exact (houndStill_hubStop s false).tripStill
  | timeCore => exact (houndStill_hubStop s false).tripStill
  | hostInterface => exact (houndStill_hubStop s true).tripStill

end Sys2Proof.Machine
end

section
/-! # Crossing hounds (R13, R27, R343), and the intake as a whole -/

namespace Sys2Proof.Machine

theorem exec_crossingHoundTrip (ph : CrossPhase) (out idle : Bool) (s : State) :
    exec (.crossingHoundTrip ph out idle) s = execCrossingHoundTrip ph out idle s := rfl

/-! ## The hound of a crossing -/

/-- A phase that has not waited past the limit, with no injection armed. -/
theorem execCrossingHoundTrip_within {s : State} {x : Crossing} {waited : Nat} (hi : s.integ.arms = [])
    (hin : 4000 * waited ≤ crossLimit s x) (out idle : Bool) : execCrossingHoundTrip ⟨x, waited⟩ out idle s = .next s := by
  have hpast : crossPast s x waited = false := by
    have hmin : min waited s.time.tb ≤ waited := Nat.min_le_left _ _
    rw [crossPast, decide_eq_false_iff_not]
    omega
  unfold execCrossingHoundTrip
  simp only [injected_none hi, hpast, Bool.not_false, Bool.false_eq_true, if_false, if_true, ite_self]

/-- The second detail word of a trip: the domain of the crossing and the direction of the handshake, where it has one (R343). -/
def crossDetail (x : Crossing) (out : Bool) : Nat := crossDomain x + if crossDomain x == 0xFF then 0 else b2n out * 256

/-- A phase that has waited past the limit. -/
theorem execCrossingHoundTrip_past {s : State} {x : Crossing} {waited : Nat} (htick : ticking s = true)
    (hwedged : isWedged s (crossUnit x) = false) (habsent : crossAbsent s x = false) (htb : waited ≤ s.time.tb)
    (hpast : crossLimit s x < 4000 * waited) (out idle : Bool) :
    execCrossingHoundTrip ⟨x, waited⟩ out idle s = .next (crossTrip s x (crossDetail x out) (b2n idle) false) := by
  have hlate : crossPast s x waited = true := by
    rw [crossPast, Nat.min_eq_left htb, decide_eq_true_eq]
    exact hpast
  have hlater : (waited == 0) = false := by
    rw [beq_eq_false_iff_ne]
    omega
  unfold execCrossingHoundTrip
  simp only [htick, hwedged, habsent, hlate, hlater, Bool.not_true, Bool.or_false, Bool.false_eq_true, if_false, if_true]
  rfl

/-- A trip in WEDGE_LOG, which holds 16, changes nothing else. -/
theorem wedgeLog_frame (s : State) (unit d2 : Nat) :
    ∃ l, wedgeLog s unit d2 = { s with integ := { s.integ with wedges := l } }
      ∧ (s.integ.wedges.length < 16 → l.length = s.integ.wedges.length + 1) := by
  unfold wedgeLog
  split
  · rename_i hfull
    exact ⟨s.integ.wedges, rfl, fun h => absurd h (Nat.not_lt.2 hfull)⟩
  · exact ⟨_, rfl, fun _ => by simp⟩

/-- A unit that is wedged, before the trip is reported. -/
def unitWedged (s : State) (x : Crossing) : State :=
  { s with integ := { s.integ with
      wedged := s.integ.wedged ++ [crossUnit x], pxWedged := s.integ.pxWedged || x == .hostInterface } }

/-- The trip of a crossing hound, reported once and entered in WEDGE_LOG. -/
def tripReported (s : State) (x : Crossing) (d2 d3 : Nat) (inj : Bool) : State :=
  event (fire (unitWedged s x) 0x71 (crossUnit x) d2 d3 inj none) 3 0 (crossUnit x) d2 d3 inj
    (now (fire (unitWedged s x) 0x71 (crossUnit x) d2 d3 inj none))

theorem crossTrip_eq (s : State) (x : Crossing) (d2 d3 : Nat) (inj : Bool) :
    crossTrip s x d2 d3 inj = wedgeUnit (wedgeLog (tripReported s x d2 d3 inj) (crossUnit x) d2) x := rfl

theorem tripReported_spec (s : State) (x : Crossing) (d2 d3 : Nat) (inj : Bool) :
    (tripReported s x d2 d3 inj).integ.wedged = s.integ.wedged ++ [crossUnit x]
      ∧ (tripReported s x d2 d3 inj).integ.wedges = s.integ.wedges
      ∧ total (tripReported s x d2 d3 inj) (Reg.detCount 0x71) 0 = (total s (Reg.detCount 0x71) 0 + 1) % 2 ^ 32 := by
  obtain ⟨-, hwedged, hwedges⟩ := reported_frame (unitWedged s x) 0x71 (crossUnit x) d2 d3 inj 3
    (now (fire (unitWedged s x) 0x71 (crossUnit x) d2 d3 inj none))
  obtain ⟨hfired, -⟩ := firedOnce_fire (unitWedged s x) 0x71 (crossUnit x) d2 d3 inj
  have hevent := houndStill_event (fire (unitWedged s x) 0x71 (crossUnit x) d2 d3 inj none) 3 0 (crossUnit x) d2 d3 inj
    (now (fire (unitWedged s x) 0x71 (crossUnit x) d2 d3 inj none))
  exact ⟨hwedged, hwedges, (hevent.total _ (.inr (.inl rfl))).trans hfired⟩

/-- What a trip leaves: the unit wedged, the hound's detector counted once, and the trip logged where WEDGE_LOG has room. -/
theorem crossTrip_spec (s : State) (x : Crossing) (d2 d3 : Nat) (inj : Bool) :
    ∃ t, crossTrip s x d2 d3 inj = t ∧ isWedged t (crossUnit x) = true
      ∧ total t (Reg.detCount 0x71) 0 = (total s (Reg.detCount 0x71) 0 + 1) % 2 ^ 32
      ∧ (s.integ.wedges.length < 16 → t.integ.wedges.length = s.integ.wedges.length + 1) := by
  obtain ⟨hwedged, hwedges, htotal⟩ := tripReported_spec s x d2 d3 inj
  obtain ⟨l, hlog, hroom⟩ := wedgeLog_frame (tripReported s x d2 d3 inj) (crossUnit x) d2
  have hunit := tripStill_wedgeUnit (wedgeLog (tripReported s x d2 d3 inj) (crossUnit x) d2) x
  rw [← crossTrip_eq] at hunit
  have hlogWedged : (wedgeLog (tripReported s x d2 d3 inj) (crossUnit x) d2).integ.wedged = s.integ.wedged ++ [crossUnit x] := by
    rw [hlog]
    exact hwedged
  have hlogTotal : total (wedgeLog (tripReported s x d2 d3 inj) (crossUnit x) d2) (Reg.detCount 0x71) 0 =
      (total s (Reg.detCount 0x71) 0 + 1) % 2 ^ 32 := by
    rw [hlog]
    exact htotal
  refine ⟨_, rfl, ?_, hunit.total.trans hlogTotal, fun h => ?_⟩
  · rw [isWedged, hunit.wedged, hlogWedged]
    simp
  · rw [hunit.wedges, hlog]
    rw [hwedges] at hroom
    exact hroom h

end Sys2Proof.Machine

namespace Sys2Proof.Proofs
open Sys2Proof.Machine

/-- Settles O41: refill and sweep by the walks over the valid entries, the dispatch by the start of its record, and each hound by what it
does within its limit and past it. -/
theorem intakeAndHounds : Obligations.IntakeAndHounds := by
  unfold Obligations.IntakeAndHounds
  intro s htick hi
  refine ⟨fun hdue hwf hgood => ?_, fun hdue hwf hgood => ?_, fun e r hquiet hboot hfree hrebuilds hnext h3 h6 => ?_,
    fun e r hrec => ⟨fun hin => ?_, fun hpast => ?_⟩, fun x out idle waited hwedged habsent => ⟨fun hin => ?_, fun htb hpast => ?_⟩⟩
  · obtain ⟨⟨m, hframe⟩, hserved⟩ := refillWalk hi hwf hgood
    rw [exec_bucketRefill, execBucketRefill_due htick hdue]
    refine ⟨_, rfl, ?_, fun i hmem => ?_, ?_⟩
    · rw [hframe]
    · obtain ⟨hsentences, hplies⟩ := hserved i hmem
      exact ⟨hsentences, fun hdepth _ => hplies hdepth⟩
    · rw [hframe]
  · obtain ⟨hkept, hserved⟩ := sweepWalk hi hwf hgood
    obtain ⟨r, n, m, hframe⟩ := hkept.frame
    rw [exec_talkerSweep, execTalkerSweep_due htick hdue]
    refine ⟨_, rfl, ?_, fun i hmem => hserved i hmem⟩
    rw [hframe]
  · dsimp only
    intro hroute hheader
    rw [exec_dispatch, execDispatch_given htick hquiet hboot hfree hrebuilds hnext h3 h6 hroute]
    obtain ⟨t, ht, hspec⟩ := dispatch_spec hi hheader e s.pack.active (memWord s .routes (512 * s.pack.active + routeIndex s r))
    exact ⟨t, congrArg _ ht, hspec⟩
  · rw [exec_engineHoundTrip, execEngineHoundTrip_within hrec hin]
  · rw [exec_engineHoundTrip, execEngineHoundTrip_past htick hrec hpast]
    obtain ⟨t, ht, hspec⟩ := engWedge_spec hrec r.talker (houndDetail s e) false
    exact ⟨t, congrArg _ ht, hspec⟩
  · rw [exec_crossingHoundTrip, execCrossingHoundTrip_within hi hin]
  · rw [exec_crossingHoundTrip, execCrossingHoundTrip_past htick hwedged habsent htb hpast]
    obtain ⟨t, ht, hspec⟩ := crossTrip_spec s x (crossDetail x out) (b2n idle) false
    exact ⟨t, congrArg _ ht, hspec⟩

end Sys2Proof.Proofs
end
